-- ==== Sys2Proof/Word.lean ====
section
/-! DEFINITION. The word types of the AVR32 machine (00_scope.md R8, R19 to R22) and nothing else: every helper that reads, extends or
assembles a field stands in a file a later repair can mend (Decode.lean, Machine/Operands.lean). -/

namespace Sys2Proof

/-- A 32-bit register, address or memory word (R8). -/
abbrev Word := BitVec 32

/-- A byte of memory (R8, R200). -/
abbrev Byte := BitVec 8

/-- A compact instruction or a halfword of memory (R8, R350). -/
abbrev Half := BitVec 16

/-- The 4-bit number of a general register, R0 to R15, or of a coprocessor register, CR0 to CR15 (R100, R355, R358). -/
abbrev RegNo := BitVec 4

/-- A 4-bit condition code (R370). -/
abbrev Cond := BitVec 4

end Sys2Proof
end

