-- ==== Sys2Proof/Forms.lean ====
section
/-! DEFINITION. The operand forms of the mnemonics that have more than one row in the opcode table (31_opcode_map.md R420): one inductive for
each set of formats, one constructor for each row's format, holding the operands that row's encoding carries. Lean's runtime gives an
inductive type with operands at most 245 constructors, fewer than the table's 315 rows, so the rows of one mnemonic share a constructor
of Instr and are told apart here. -/

namespace Sys2Proof

/-- The formats of `add`. -/
inductive AddForm where
  /-- Format add I C-2R (9.2.1). -/
  | formI (rd : RegNo) (rs : RegNo)
  /-- Format add II E-3R-shift (9.2.19). -/
  | formII (rd : RegNo) (rx : RegNo) (ry : RegNo) (sa : BitVec 2)
deriving DecidableEq, Repr

/-- The formats of `cp.w`. -/
inductive CpwForm where
  /-- Format cp.w I C-2R (9.2.1). -/
  | formI (rd : RegNo) (rs : RegNo)
  /-- Format cp.w II C-K6 (9.2.6). -/
  | formII (rd : RegNo) (imm : BitVec 6)
  /-- Format cp.w III E-K21 (9.2.30). -/
  | formIII (rd : RegNo) (imm : BitVec 21)
deriving DecidableEq, Repr

/-- The formats of `cpc`. -/
inductive CpcForm where
  /-- Format cpc I E-2R (9.2.27). -/
  | formI (rd : RegNo) (rs : RegNo)
  /-- Format cpc II C-1R (9.2.2). -/
  | formII (rd : RegNo)
deriving DecidableEq, Repr

/-- The formats of `rsub`. -/
inductive RsubForm where
  /-- Format rsub I C-2R (9.2.1). -/
  | formI (rd : RegNo) (rs : RegNo)
  /-- Format rsub II E-2R-K8 (9.2.23). -/
  | formII (rd : RegNo) (rs : RegNo) (imm : BitVec 8)
deriving DecidableEq, Repr

/-- The formats of `sub`. -/
inductive SubForm where
  /-- Format sub I C-2R (9.2.1). -/
  | formI (rd : RegNo) (rs : RegNo)
  /-- Format sub II E-3R-shift (9.2.19). -/
  | formII (rd : RegNo) (rx : RegNo) (ry : RegNo) (sa : BitVec 2)
  /-- Format sub III C-K8 (9.2.4). -/
  | formIII (rd : RegNo) (imm : BitVec 8)
  /-- Format sub IV E-K21 (9.2.30). -/
  | formIV (rd : RegNo) (imm : BitVec 21)
  /-- Format sub V E-2R-K16 (9.2.32). -/
  | formV (rd : RegNo) (rs : RegNo) (imm : BitVec 16)
deriving DecidableEq, Repr

/-- The formats of `sub_cond4`. -/
inductive SubCondForm where
  /-- Format sub_cond4 I E-1R-K8-cond (9.2.10). -/
  | formI (c : Cond) (rd : RegNo) (f : BitVec 1) (imm : BitVec 8)
  /-- Format sub_cond4 II E-3R-cond (9.4). -/
  | formII (c : Cond) (rd : RegNo) (rx : RegNo) (ry : RegNo)
deriving DecidableEq, Repr

/-- The formats of `mul`. -/
inductive MulForm where
  /-- Format mul I C-2R (9.2.1). -/
  | formI (rd : RegNo) (rs : RegNo)
  /-- Format mul II E-3R (9.2.20). -/
  | formII (rd : RegNo) (rx : RegNo) (ry : RegNo)
  /-- Format mul III E-2R-K8 (9.2.23). -/
  | formIII (rd : RegNo) (rs : RegNo) (imm : BitVec 8)
deriving DecidableEq, Repr

/-- The formats of `satsub.w`. -/
inductive SatsubForm where
  /-- Format satsub.w I E-3R (9.2.20). -/
  | formI (rd : RegNo) (rx : RegNo) (ry : RegNo)
  /-- Format satsub.w II E-2R-K16 (9.2.32). -/
  | formII (rd : RegNo) (rs : RegNo) (imm : BitVec 16)
deriving DecidableEq, Repr

/-- The formats of `and`, `eor`, `or`. -/
inductive LogicForm where
  /-- Format and I C-2R (9.2.1); eor I C-2R (9.2.1); or I C-2R (9.2.1). -/
  | formI (rd : RegNo) (rs : RegNo)
  /-- Format and II E-3R-K5 (9.2.49), Ry << sa5; eor II E-3R-K5 (9.2.49), Ry << sa5; or II E-3R-K5 (9.2.49), Ry << sa5. -/
  | formII (rd : RegNo) (rx : RegNo) (ry : RegNo) (sa : BitVec 5)
  /-- Format and III E-3R-K5 (9.2.49), Ry >> sa5; eor III E-3R-K5 (9.2.49), Ry >> sa5; or III E-3R-K5 (9.2.49), Ry >> sa5. -/
  | formIII (rd : RegNo) (rx : RegNo) (ry : RegNo) (sa : BitVec 5)
deriving DecidableEq, Repr

/-- The formats of `asr`, `lsl`, `lsr`. -/
inductive ShiftForm where
  /-- Format asr I E-3R (9.2.20); lsl I E-3R (9.2.20); lsr I E-3R (9.2.20). -/
  | formI (rd : RegNo) (rx : RegNo) (ry : RegNo)
  /-- Format asr II C-bit (9.2.11); lsl II C-bit (9.2.11); lsr II C-bit (9.2.11). -/
  | formII (rd : RegNo) (sa : BitVec 5)
  /-- Format asr III E-2R-K5 (9.2.24); lsl III E-2R-K5 (9.2.24); lsr III E-2R-K5 (9.2.24). -/
  | formIII (rd : RegNo) (rs : RegNo) (sa : BitVec 5)
deriving DecidableEq, Repr

/-- The formats of `rcall`. -/
inductive RcallForm where
  /-- Format rcall I C-K10 (9.2.13). -/
  | formI (disp : BitVec 10)
  /-- Format rcall II E-K21-noreg (9.2.31). -/
  | formII (disp : BitVec 21)
deriving DecidableEq, Repr

/-- The formats of `mov`. -/
inductive MovForm where
  /-- Format mov I C-K8 (9.2.4). -/
  | formI (rd : RegNo) (imm : BitVec 8)
  /-- Format mov II E-K21 (9.2.30). -/
  | formII (rd : RegNo) (imm : BitVec 21)
  /-- Format mov III C-2R (9.2.1). -/
  | formIII (rd : RegNo) (rs : RegNo)
deriving DecidableEq, Repr

/-- The formats of `mov_cond4`. -/
inductive MovCondForm where
  /-- Format mov_cond4 I E-2R-cond (9.2.51). -/
  | formI (c : Cond) (rd : RegNo) (rs : RegNo)
  /-- Format mov_cond4 II E-1R-K8-cond (9.2.10). -/
  | formII (c : Cond) (rd : RegNo) (imm : BitVec 8)
deriving DecidableEq, Repr

/-- The formats of `ld.ub`, `ld.uh`, `ld.sh`. -/
inductive LoadForm where
  /-- Format ld.ub I C-2R (9.2.1), Rp++; ld.uh I C-2R (9.2.1), Rp++; ld.sh I C-2R (9.2.1), Rp++. -/
  | formI (rd : RegNo) (rp : RegNo)
  /-- Format ld.ub II C-2R (9.2.1), --Rp; ld.uh II C-2R (9.2.1), --Rp; ld.sh II C-2R (9.2.1), --Rp. -/
  | formII (rd : RegNo) (rp : RegNo)
  /-- Format ld.ub III C-disp3 (9.2.8); ld.uh III C-disp3 (9.2.8); ld.sh III C-disp3 (9.2.8). -/
  | formIII (rd : RegNo) (rp : RegNo) (disp : BitVec 3)
  /-- Format ld.ub IV E-2R-K16 (9.2.32); ld.uh IV E-2R-K16 (9.2.32); ld.sh IV E-2R-K16 (9.2.32). -/
  | formIV (rd : RegNo) (rp : RegNo) (disp : BitVec 16)
  /-- Format ld.ub V E-3R-shift (9.2.19); ld.uh V E-3R-shift (9.2.19); ld.sh V E-3R-shift (9.2.19). -/
  | formV (rd : RegNo) (rb : RegNo) (ri : RegNo) (sa : BitVec 2)
deriving DecidableEq, Repr

/-- The formats of `ld.sb`. -/
inductive LdsbForm where
  /-- Format ld.sb I E-2R-K16 (9.2.32). -/
  | formI (rd : RegNo) (rp : RegNo) (disp : BitVec 16)
  /-- Format ld.sb II E-3R-shift (9.2.19). -/
  | formII (rd : RegNo) (rb : RegNo) (ri : RegNo) (sa : BitVec 2)
deriving DecidableEq, Repr

/-- The formats of `ld.w`. -/
inductive LdwForm where
  /-- Format ld.w I C-2R (9.2.1), Rp++. -/
  | formI (rd : RegNo) (rp : RegNo)
  /-- Format ld.w II C-2R (9.2.1), --Rp. -/
  | formII (rd : RegNo) (rp : RegNo)
  /-- Format ld.w III C-disp5 (9.2.7). -/
  | formIII (rd : RegNo) (rp : RegNo) (disp : BitVec 5)
  /-- Format ld.w IV E-2R-K16 (9.2.32). -/
  | formIV (rd : RegNo) (rp : RegNo) (disp : BitVec 16)
  /-- Format ld.w V E-3R-shift (9.2.19). -/
  | formV (rd : RegNo) (rb : RegNo) (ri : RegNo) (sa : BitVec 2)
  /-- Format ld.w VI E-3R-part (9.4). -/
  | formVI (rd : RegNo) (xp : BitVec 1) (yp : BitVec 1) (rb : RegNo) (ri : RegNo)
deriving DecidableEq, Repr

/-- The formats of `ld.d`. -/
inductive LddForm where
  /-- Format ld.d I C-1R-pair (9.2.9), Rp++. -/
  | formI (rd : RegNo) (rp : RegNo)
  /-- Format ld.d II C-1R-pair (9.2.9), --Rp. -/
  | formII (rd : RegNo) (rp : RegNo)
  /-- Format ld.d III C-1R-pair (9.2.9), Rp. -/
  | formIII (rd : RegNo) (rp : RegNo)
  /-- Format ld.d IV E-1R-pair-K16 (9.2.33). -/
  | formIV (rd : RegNo) (rp : RegNo) (disp : BitVec 16)
  /-- Format ld.d V E-3R-shift (9.2.19). -/
  | formV (rd : RegNo) (rb : RegNo) (ri : RegNo) (sa : BitVec 2)
deriving DecidableEq, Repr

/-- The formats of `st.b`, `st.h`. -/
inductive StoreForm where
  /-- Format st.b I C-2R (9.2.1), Rp++; st.h I C-2R (9.2.1), Rp++. -/
  | formI (rp : RegNo) (rs : RegNo)
  /-- Format st.b II C-2R (9.2.1), --Rp; st.h II C-2R (9.2.1), --Rp. -/
  | formII (rp : RegNo) (rs : RegNo)
  /-- Format st.b III C-disp3 (9.2.8); st.h III C-disp3 (9.2.8). -/
  | formIII (rp : RegNo) (rs : RegNo) (disp : BitVec 3)
  /-- Format st.b IV E-2R-K16 (9.2.32); st.h IV E-2R-K16 (9.2.32). -/
  | formIV (rp : RegNo) (rs : RegNo) (disp : BitVec 16)
  /-- Format st.b V E-3R-shift (9.2.19); st.h V E-3R-shift (9.2.19). -/
  | formV (rb : RegNo) (ri : RegNo) (rs : RegNo) (sa : BitVec 2)
deriving DecidableEq, Repr

/-- The formats of `st.w`. -/
inductive StwForm where
  /-- Format st.w I C-2R (9.2.1), Rp++. -/
  | formI (rp : RegNo) (rs : RegNo)
  /-- Format st.w II C-2R (9.2.1), --Rp. -/
  | formII (rp : RegNo) (rs : RegNo)
  /-- Format st.w III C-disp4 (9.2.50). -/
  | formIII (rp : RegNo) (rs : RegNo) (disp : BitVec 4)
  /-- Format st.w IV E-2R-K16 (9.2.32). -/
  | formIV (rp : RegNo) (rs : RegNo) (disp : BitVec 16)
  /-- Format st.w V E-3R-shift (9.2.19). -/
  | formV (rb : RegNo) (ri : RegNo) (rs : RegNo) (sa : BitVec 2)
deriving DecidableEq, Repr

/-- The formats of `st.d`. -/
inductive StdForm where
  /-- Format st.d I C-1R-pair (9.2.9), Rp++. -/
  | formI (rp : RegNo) (rs : RegNo)
  /-- Format st.d II C-1R-pair (9.2.9), --Rp. -/
  | formII (rp : RegNo) (rs : RegNo)
  /-- Format st.d III C-1R-pair (9.2.9), Rp. -/
  | formIII (rp : RegNo) (rs : RegNo)
  /-- Format st.d IV E-1R-pair-K16 (9.2.33). -/
  | formIV (rp : RegNo) (rs : RegNo) (disp : BitVec 16)
  /-- Format st.d V E-3R-shift (9.2.19). -/
  | formV (rb : RegNo) (ri : RegNo) (rs : RegNo) (sa : BitVec 2)
deriving DecidableEq, Repr

/-- The formats of `sthh.w`. -/
inductive SthhForm where
  /-- Format sthh.w I E-3R-K8-XY (9.2.53). -/
  | formI (rx : RegNo) (xp : BitVec 1) (ry : RegNo) (yp : BitVec 1) (rp : RegNo) (disp : BitVec 8)
  /-- Format sthh.w II E-4R-K2 (9.2.52). -/
  | formII (rx : RegNo) (xp : BitVec 1) (ry : RegNo) (yp : BitVec 1) (rb : RegNo) (ri : RegNo) (sa : BitVec 2)
deriving DecidableEq, Repr

/-- The formats of `ldc.d`, `ldc.w`. -/
inductive LdcForm where
  /-- Format ldc.d I E-cop-ldst (9.2.36); ldc.w I E-cop-ldst (9.2.36). -/
  | formI (cp : BitVec 3) (crd : RegNo) (rp : RegNo) (disp : BitVec 8)
  /-- Format ldc.d II E-cop-misc (9.2.38), --Rp; ldc.w II E-cop-misc (9.2.38), --Rp. -/
  | formII (cp : BitVec 3) (crd : RegNo) (rp : RegNo)
  /-- Format ldc.d III E-cop-idx (9.2.39); ldc.w III E-cop-idx (9.2.39). -/
  | formIII (cp : BitVec 3) (crd : RegNo) (rb : RegNo) (ri : RegNo) (sa : BitVec 2)
deriving DecidableEq, Repr

/-- The formats of `ldcm.w`, `stcm.w`. -/
inductive CopMultiForm where
  /-- Format ldcm.w high E-cop-multi (9.2.37), CR8-CR15; stcm.w high E-cop-multi (9.2.37), CR8-CR15. -/
  | formHigh (cp : BitVec 3) (rp : RegNo) (wb : BitVec 1) (list : BitVec 8)
  /-- Format ldcm.w low E-cop-multi (9.2.37), CR0-CR7; stcm.w low E-cop-multi (9.2.37), CR0-CR7. -/
  | formLow (cp : BitVec 3) (rp : RegNo) (wb : BitVec 1) (list : BitVec 8)
deriving DecidableEq, Repr

/-- The formats of `stc.d`, `stc.w`. -/
inductive StcForm where
  /-- Format stc.d I E-cop-ldst (9.2.36); stc.w I E-cop-ldst (9.2.36). -/
  | formI (cp : BitVec 3) (rp : RegNo) (crs : RegNo) (disp : BitVec 8)
  /-- Format stc.d II E-cop-misc (9.2.38), Rp++; stc.w II E-cop-misc (9.2.38), Rp++. -/
  | formII (cp : BitVec 3) (rp : RegNo) (crs : RegNo)
  /-- Format stc.d III E-cop-idx (9.2.39); stc.w III E-cop-idx (9.2.39). -/
  | formIII (cp : BitVec 3) (rb : RegNo) (ri : RegNo) (crs : RegNo) (sa : BitVec 2)
deriving DecidableEq, Repr

end Sys2Proof
end

