-- ==== Sys2Proof/Syntax.lean ====
section
/-! DEFINITION. The instructions of the AVR32 (31_opcode_map.md R420, spec/opcode_table.json): one constructor for each of the 237
mnemonics of the opcode table, in the table's order, with the operands of its row; where a mnemonic has several rows, its operand is the
form (Forms.lean), which has one constructor for each row. A register operand is its 4-bit number (for a register pair the number of its
even register, R356), a condition its 4-bit code (R370; the 3-bit code for `brCond3`), and an immediate or displacement the raw bit string
of its field (R365), joined where the encoding splits it (R366). What value it stands for is said in Machine/Operands.lean. -/

namespace Sys2Proof

/-- One instruction of the opcode table: the mnemonic, the format and the rule stand in each constructor's docstring. -/
inductive Instr where
  /-- `abs`, format C-1R (9.2.2), rule R451. -/
  | abs (rd : RegNo)
  /-- `acr`, format C-1R (9.2.2), rule R452. -/
  | acr (rd : RegNo)
  /-- `adc`, format E-3R (9.2.20), rule R453. -/
  | adc (rd : RegNo) (rx : RegNo) (ry : RegNo)
  /-- `add`, 2 formats, rule R454. -/
  | add (f : AddForm)
  /-- `add_cond4`, format E-3R-cond (9.4), rule R455. -/
  | addCond (c : Cond) (rd : RegNo) (rx : RegNo) (ry : RegNo)
  /-- `addabs`, format E-3R (9.2.20), rule R456. -/
  | addabs (rd : RegNo) (rx : RegNo) (ry : RegNo)
  /-- `cp.b`, format E-2R (9.2.27), rule R457. -/
  | cpB (rd : RegNo) (rs : RegNo)
  /-- `cp.h`, format E-2R (9.2.27), rule R458. -/
  | cpH (rd : RegNo) (rs : RegNo)
  /-- `cp.w`, 3 formats, rule R459. -/
  | cpW (f : CpwForm)
  /-- `cpc`, 2 formats, rule R460. -/
  | cpc (f : CpcForm)
  /-- `max`, format E-3R (9.2.20), rule R461. -/
  | max (rd : RegNo) (rx : RegNo) (ry : RegNo)
  /-- `min`, format E-3R (9.2.20), rule R462. -/
  | min (rd : RegNo) (rx : RegNo) (ry : RegNo)
  /-- `neg`, format C-1R (9.2.2), rule R463. -/
  | neg (rd : RegNo)
  /-- `rsub`, 2 formats, rule R464. -/
  | rsub (f : RsubForm)
  /-- `rsub_cond4`, format E-1R-K8-cond (9.2.10), rule R465. -/
  | rsubCond (c : Cond) (rd : RegNo) (imm : BitVec 8)
  /-- `sbc`, format E-3R (9.2.20), rule R466. -/
  | sbc (rd : RegNo) (rx : RegNo) (ry : RegNo)
  /-- `scr`, format C-1R (9.2.2), rule R467. -/
  | scr (rd : RegNo)
  /-- `sub`, 5 formats, rule R470. -/
  | sub (f : SubForm)
  /-- `sub_cond4`, 2 formats, rule R471. -/
  | subCond (f : SubCondForm)
  /-- `tnbz`, format C-1R (9.2.2), rule R472. -/
  | tnbz (rd : RegNo)
  /-- `divs`, format E-3R (9.2.20), rule R501. -/
  | divs (rd : RegNo) (rx : RegNo) (ry : RegNo)
  /-- `divu`, format E-3R (9.2.20), rule R502. -/
  | divu (rd : RegNo) (rx : RegNo) (ry : RegNo)
  /-- `mac`, format E-3R (9.2.20), rule R503. -/
  | mac (rd : RegNo) (rx : RegNo) (ry : RegNo)
  /-- `macs.d`, format E-3R (9.2.20), rule R504. -/
  | macsD (rd : RegNo) (rx : RegNo) (ry : RegNo)
  /-- `macu.d`, format E-3R (9.2.20), rule R505. -/
  | macuD (rd : RegNo) (rx : RegNo) (ry : RegNo)
  /-- `mul`, 3 formats, rule R506. -/
  | mul (f : MulForm)
  /-- `muls.d`, format E-3R (9.2.20), rule R507. -/
  | mulsD (rd : RegNo) (rx : RegNo) (ry : RegNo)
  /-- `mulu.d`, format E-3R (9.2.20), rule R508. -/
  | muluD (rd : RegNo) (rx : RegNo) (ry : RegNo)
  /-- `addhh.w`, format E-DSP-HH (9.2.21), rule R541. -/
  | addhhW (rd : RegNo) (rx : RegNo) (xp : BitVec 1) (ry : RegNo) (yp : BitVec 1)
  /-- `machh.d`, format E-DSP-HH (9.2.21), rule R542. -/
  | machhD (rd : RegNo) (rx : RegNo) (xp : BitVec 1) (ry : RegNo) (yp : BitVec 1)
  /-- `machh.w`, format E-DSP-HH (9.2.21), rule R543. -/
  | machhW (rd : RegNo) (rx : RegNo) (xp : BitVec 1) (ry : RegNo) (yp : BitVec 1)
  /-- `macwh.d`, format E-DSP-WH (9.2.22), rule R544. -/
  | macwhD (rd : RegNo) (rx : RegNo) (ry : RegNo) (yp : BitVec 1)
  /-- `mulhh.w`, format E-DSP-HH (9.2.21), rule R545. -/
  | mulhhW (rd : RegNo) (rx : RegNo) (xp : BitVec 1) (ry : RegNo) (yp : BitVec 1)
  /-- `mulwh.d`, format E-DSP-WH (9.2.22), rule R546. -/
  | mulwhD (rd : RegNo) (rx : RegNo) (ry : RegNo) (yp : BitVec 1)
  /-- `mulnhh.w`, format E-DSP-HH (9.2.21), rule R547. -/
  | mulnhhW (rd : RegNo) (rx : RegNo) (xp : BitVec 1) (ry : RegNo) (yp : BitVec 1)
  /-- `mulnwh.d`, format E-DSP-WH (9.2.22), rule R548. -/
  | mulnwhD (rd : RegNo) (rx : RegNo) (ry : RegNo) (yp : BitVec 1)
  /-- `satadd.h`, format E-3R (9.2.20), rule R549. -/
  | sataddH (rd : RegNo) (rx : RegNo) (ry : RegNo)
  /-- `satadd.w`, format E-3R (9.2.20), rule R550. -/
  | sataddW (rd : RegNo) (rx : RegNo) (ry : RegNo)
  /-- `satsub.h`, format E-3R (9.2.20), rule R551. -/
  | satsubH (rd : RegNo) (rx : RegNo) (ry : RegNo)
  /-- `satsub.w`, 2 formats, rule R552. -/
  | satsubW (f : SatsubForm)
  /-- `satrnds`, format E-SAT (9.2.48), rule R553. -/
  | satrnds (rd : RegNo) (sa : BitVec 5) (bp : BitVec 5)
  /-- `satrndu`, format E-SAT (9.2.48), rule R554. -/
  | satrndu (rd : RegNo) (sa : BitVec 5) (bp : BitVec 5)
  /-- `sats`, format E-SAT (9.2.48), rule R555. -/
  | sats (rd : RegNo) (sa : BitVec 5) (bp : BitVec 5)
  /-- `satu`, format E-SAT (9.2.48), rule R556. -/
  | satu (rd : RegNo) (sa : BitVec 5) (bp : BitVec 5)
  /-- `subhh.w`, format E-DSP-HH (9.2.21), rule R557. -/
  | subhhW (rd : RegNo) (rx : RegNo) (xp : BitVec 1) (ry : RegNo) (yp : BitVec 1)
  /-- `mulsathh.h`, format E-DSP-HH (9.2.21), rule R558. -/
  | mulsathhH (rd : RegNo) (rx : RegNo) (xp : BitVec 1) (ry : RegNo) (yp : BitVec 1)
  /-- `mulsathh.w`, format E-DSP-HH (9.2.21), rule R559. -/
  | mulsathhW (rd : RegNo) (rx : RegNo) (xp : BitVec 1) (ry : RegNo) (yp : BitVec 1)
  /-- `mulsatrndhh.h`, format E-DSP-HH (9.2.21), rule R560. -/
  | mulsatrndhhH (rd : RegNo) (rx : RegNo) (xp : BitVec 1) (ry : RegNo) (yp : BitVec 1)
  /-- `mulsatrndwh.w`, format E-DSP-WH (9.2.22), rule R561. -/
  | mulsatrndwhW (rd : RegNo) (rx : RegNo) (ry : RegNo) (yp : BitVec 1)
  /-- `mulsatwh.w`, format E-DSP-WH (9.2.22), rule R562. -/
  | mulsatwhW (rd : RegNo) (rx : RegNo) (ry : RegNo) (yp : BitVec 1)
  /-- `macsathh.w`, format E-DSP-HH (9.2.21), rule R563. -/
  | macsathhW (rd : RegNo) (rx : RegNo) (xp : BitVec 1) (ry : RegNo) (yp : BitVec 1)
  /-- `and`, 3 formats, rule R601. -/
  | and (f : LogicForm)
  /-- `and_cond4`, format E-3R-cond (9.4), rule R602. -/
  | andCond (c : Cond) (rd : RegNo) (rx : RegNo) (ry : RegNo)
  /-- `eor`, 3 formats, rule R607. -/
  | eor (f : LogicForm)
  /-- `eor_cond4`, format E-3R-cond (9.4), rule R608. -/
  | eorCond (c : Cond) (rd : RegNo) (rx : RegNo) (ry : RegNo)
  /-- `or`, 3 formats, rule R611. -/
  | or (f : LogicForm)
  /-- `or_cond4`, format E-3R-cond (9.4), rule R612. -/
  | orCond (c : Cond) (rd : RegNo) (rx : RegNo) (ry : RegNo)
  /-- `andn`, format C-2R (9.2.1), rule R603. -/
  | andn (rd : RegNo) (rs : RegNo)
  /-- `andh`, format E-ANDx (9.2.47), rule R604. -/
  | andh (rd : RegNo) (coh : BitVec 1) (imm : BitVec 16)
  /-- `andl`, format E-ANDx (9.2.47), rule R605. -/
  | andl (rd : RegNo) (coh : BitVec 1) (imm : BitVec 16)
  /-- `com`, format C-1R (9.2.2), rule R606. -/
  | com (rd : RegNo)
  /-- `eorh`, format E-1R-K16 (9.2.28), rule R609. -/
  | eorh (rd : RegNo) (imm : BitVec 16)
  /-- `eorl`, format E-1R-K16 (9.2.28), rule R610. -/
  | eorl (rd : RegNo) (imm : BitVec 16)
  /-- `orh`, format E-1R-K16 (9.2.28), rule R613. -/
  | orh (rd : RegNo) (imm : BitVec 16)
  /-- `orl`, format E-1R-K16 (9.2.28), rule R614. -/
  | orl (rd : RegNo) (imm : BitVec 16)
  /-- `tst`, format C-2R (9.2.1), rule R615. -/
  | tst (rd : RegNo) (rs : RegNo)
  /-- `bfexts`, format E-2R-o5-w5 (9.2.25), rule R630. -/
  | bfexts (rd : RegNo) (rs : RegNo) (bp : BitVec 5) (wd : BitVec 5)
  /-- `bfextu`, format E-2R-o5-w5 (9.2.25), rule R631. -/
  | bfextu (rd : RegNo) (rs : RegNo) (bp : BitVec 5) (wd : BitVec 5)
  /-- `bfins`, format E-2R-o5-w5 (9.2.25), rule R632. -/
  | bfins (rd : RegNo) (rs : RegNo) (bp : BitVec 5) (wd : BitVec 5)
  /-- `bld`, format E-1R-bit (9.2.42), rule R633. -/
  | bld (rd : RegNo) (bp : BitVec 5)
  /-- `brev`, format C-1R (9.2.2), rule R634. -/
  | brev (rd : RegNo)
  /-- `bst`, format E-1R-bit (9.2.42), rule R635. -/
  | bst (rd : RegNo) (bp : BitVec 5)
  /-- `casts.b`, format C-1R (9.2.2), rule R636. -/
  | castsB (rd : RegNo)
  /-- `casts.h`, format C-1R (9.2.2), rule R637. -/
  | castsH (rd : RegNo)
  /-- `castu.b`, format C-1R (9.2.2), rule R638. -/
  | castuB (rd : RegNo)
  /-- `castu.h`, format C-1R (9.2.2), rule R639. -/
  | castuH (rd : RegNo)
  /-- `cbr`, format C-bit (9.2.11), rule R640. -/
  | cbr (rd : RegNo) (bp : BitVec 5)
  /-- `clz`, format E-2R (9.2.27), rule R641. -/
  | clz (rd : RegNo) (rs : RegNo)
  /-- `sbr`, format C-bit (9.2.11), rule R642. -/
  | sbr (rd : RegNo) (bp : BitVec 5)
  /-- `swap.b`, format C-1R (9.2.2), rule R643. -/
  | swapB (rd : RegNo)
  /-- `swap.bh`, format C-1R (9.2.2), rule R644. -/
  | swapBh (rd : RegNo)
  /-- `swap.h`, format C-1R (9.2.2), rule R645. -/
  | swapH (rd : RegNo)
  /-- `asr`, 3 formats, rule R671. -/
  | asr (f : ShiftForm)
  /-- `lsl`, 3 formats, rule R672. -/
  | lsl (f : ShiftForm)
  /-- `lsr`, 3 formats, rule R673. -/
  | lsr (f : ShiftForm)
  /-- `rol`, format C-1R (9.2.2), rule R674. -/
  | rol (rd : RegNo)
  /-- `ror`, format C-1R (9.2.2), rule R675. -/
  | ror (rd : RegNo)
  /-- `acall`, format C-K8 (9.2.14), rule R700. -/
  | acall (disp : BitVec 8)
  /-- `br_cond3`, format I C-branch (9.2.12), rule R701. -/
  | brCond3 (c : BitVec 3) (disp : BitVec 8)
  /-- `br_cond4`, format II E-K21 (9.2.30), rule R701. -/
  | brCond4 (c : Cond) (disp : BitVec 21)
  /-- `icall`, format C-1R (9.2.2), rule R702. -/
  | icall (rd : RegNo)
  /-- `mcall`, format E-1R-K16 (9.2.28), rule R703. -/
  | mcall (rp : RegNo) (disp : BitVec 16)
  /-- `rcall`, 2 formats, rule R704. -/
  | rcall (f : RcallForm)
  /-- `rjmp`, format C-K10 (9.2.13), rule R705. -/
  | rjmp (disp : BitVec 10)
  /-- `ret_cond4`, format C-ret (9.2.3), rule R716. -/
  | retCond (c : Cond) (rs : RegNo)
  /-- `mov`, 3 formats, rule R741. -/
  | mov (f : MovForm)
  /-- `mov_cond4`, 2 formats, rule R742. -/
  | movCond (f : MovCondForm)
  /-- `movh`, format E-1R-K16 (9.2.28), rule R743. -/
  | movh (rd : RegNo) (imm : BitVec 16)
  /-- `ld.ub`, 5 formats, rule R750. -/
  | ldUb (f : LoadForm)
  /-- `ld.ub_cond4`, format E-cond-ldst (9.4), rule R751. -/
  | ldUbCond (c : Cond) (rd : RegNo) (rp : RegNo) (disp : BitVec 9)
  /-- `ld.sb`, 2 formats, rule R752. -/
  | ldSb (f : LdsbForm)
  /-- `ld.sb_cond4`, format E-cond-ldst (9.4), rule R753. -/
  | ldSbCond (c : Cond) (rd : RegNo) (rp : RegNo) (disp : BitVec 9)
  /-- `ld.uh`, 5 formats, rule R754. -/
  | ldUh (f : LoadForm)
  /-- `ld.uh_cond4`, format E-cond-ldst (9.4), rule R755. -/
  | ldUhCond (c : Cond) (rd : RegNo) (rp : RegNo) (disp : BitVec 9)
  /-- `ld.sh`, 5 formats, rule R756. -/
  | ldSh (f : LoadForm)
  /-- `ld.sh_cond4`, format E-cond-ldst (9.4), rule R757. -/
  | ldShCond (c : Cond) (rd : RegNo) (rp : RegNo) (disp : BitVec 9)
  /-- `ld.w`, 6 formats, rule R758. -/
  | ldW (f : LdwForm)
  /-- `ld.w_cond4`, format E-cond-ldst (9.4), rule R759. -/
  | ldWCond (c : Cond) (rd : RegNo) (rp : RegNo) (disp : BitVec 9)
  /-- `ld.d`, 5 formats, rule R760. -/
  | ldD (f : LddForm)
  /-- `ldins.b`, format E-2R-K12-byte (9.2.45), rule R761. -/
  | ldinsB (rd : RegNo) (rp : RegNo) (part : BitVec 2) (disp : BitVec 12)
  /-- `ldins.h`, format E-2R-K12-half (9.2.44), rule R762. -/
  | ldinsH (rd : RegNo) (rp : RegNo) (part : BitVec 1) (disp : BitVec 12)
  /-- `ldswp.sh`, format E-2R-K12 (9.2.46), rule R763. -/
  | ldswpSh (rd : RegNo) (rp : RegNo) (disp : BitVec 12)
  /-- `ldswp.uh`, format E-2R-K12 (9.2.46), rule R764. -/
  | ldswpUh (rd : RegNo) (rp : RegNo) (disp : BitVec 12)
  /-- `ldswp.w`, format E-2R-K12 (9.2.46), rule R765. -/
  | ldswpW (rd : RegNo) (rp : RegNo) (disp : BitVec 12)
  /-- `lddpc`, format C-K7 (9.2.5), rule R766. -/
  | lddpc (rd : RegNo) (disp : BitVec 7)
  /-- `lddsp`, format C-K7 (9.2.5), rule R767. -/
  | lddsp (rd : RegNo) (disp : BitVec 7)
  /-- `st.b`, 5 formats, rule R811. -/
  | stB (f : StoreForm)
  /-- `st.b_cond4`, format E-cond-ldst (9.4), rule R812. -/
  | stBCond (c : Cond) (rp : RegNo) (rs : RegNo) (disp : BitVec 9)
  /-- `st.h`, 5 formats, rule R814. -/
  | stH (f : StoreForm)
  /-- `st.h_cond4`, format E-cond-ldst (9.4), rule R815. -/
  | stHCond (c : Cond) (rp : RegNo) (rs : RegNo) (disp : BitVec 9)
  /-- `st.w`, 5 formats, rule R816. -/
  | stW (f : StwForm)
  /-- `st.w_cond4`, format E-cond-ldst (9.4), rule R817. -/
  | stWCond (c : Cond) (rp : RegNo) (rs : RegNo) (disp : BitVec 9)
  /-- `st.d`, 5 formats, rule R813. -/
  | stD (f : StdForm)
  /-- `stcond`, format E-2R-K16 (9.2.32), rule R846. -/
  | stcond (rp : RegNo) (rs : RegNo) (disp : BitVec 16)
  /-- `stdsp`, format C-K7 (9.2.5), rule R818. -/
  | stdsp (rs : RegNo) (disp : BitVec 7)
  /-- `sthh.w`, 2 formats, rule R819. -/
  | sthhW (f : SthhForm)
  /-- `stswp.h`, format E-2R-K12 (9.2.46), rule R820. -/
  | stswpH (rp : RegNo) (rs : RegNo) (disp : BitVec 12)
  /-- `stswp.w`, format E-2R-K12 (9.2.46), rule R821. -/
  | stswpW (rp : RegNo) (rs : RegNo) (disp : BitVec 12)
  /-- `pushm`, format C-PUSHM (9.2.16), rule R860. -/
  | pushm (list : BitVec 8)
  /-- `popm`, format C-POPM (9.2.15), rule R862. -/
  | popm (k : BitVec 1) (list : BitVec 8)
  /-- `ldm`, format E-multi (9.2.43), rule R866. -/
  | ldm (rp : RegNo) (wb : BitVec 1) (list : BitVec 16)
  /-- `stm`, format E-multi (9.2.43), rule R868. -/
  | stm (rp : RegNo) (wb : BitVec 1) (list : BitVec 16)
  /-- `ldmts`, format E-multi (9.2.43), rule R870. -/
  | ldmts (rp : RegNo) (wb : BitVec 1) (list : BitVec 16)
  /-- `stmts`, format E-multi (9.2.43), rule R872. -/
  | stmts (rp : RegNo) (wb : BitVec 1) (list : BitVec 16)
  /-- `csrf`, format C-SRbit (9.2.17), rule R900. -/
  | csrf (bp : BitVec 5)
  /-- `csrfcz`, format C-SRbit (9.2.17), rule R901. -/
  | csrfcz (bp : BitVec 5)
  /-- `ssrf`, format C-SRbit (9.2.17), rule R932. -/
  | ssrf (bp : BitVec 5)
  /-- `breakpoint`, format C-op (9.2.18), rule R902. -/
  | breakpoint
  /-- `frs`, format C-op (9.2.18), rule R903. -/
  | frs
  /-- `cache`, format E-cache (9.2.29), rule R905. -/
  | cache (op : BitVec 5) (rp : RegNo) (disp : BitVec 11)
  /-- `pref`, format E-1R-K16 (9.2.28), rule R907. -/
  | pref (rp : RegNo) (disp : BitVec 16)
  /-- `mfsr`, format E-sysreg (9.2.40), rule R910. -/
  | mfsr (rd : RegNo) (n : BitVec 8)
  /-- `mfdr`, format E-sysreg (9.2.40), rule R912. -/
  | mfdr (rd : RegNo) (n : BitVec 8)
  /-- `mtsr`, format E-sysreg (9.2.40), rule R914. -/
  | mtsr (rs : RegNo) (n : BitVec 8)
  /-- `mtdr`, format E-sysreg (9.2.40), rule R916. -/
  | mtdr (rs : RegNo) (n : BitVec 8)
  /-- `musfr`, format C-1R (9.2.2), rule R917. -/
  | musfr (rs : RegNo)
  /-- `mustr`, format C-1R (9.2.2), rule R918. -/
  | mustr (rd : RegNo)
  /-- `nop`, format C-op (9.2.18), rule R919. -/
  | nop
  /-- `scall`, format C-op (9.2.18), rule R920. -/
  | scall
  /-- `sscall`, format C-op (9.2.18), rule R921. -/
  | sscall
  /-- `rete`, format C-op (9.2.18), rule R922. -/
  | rete
  /-- `rets`, format C-op (9.2.18), rule R923. -/
  | rets
  /-- `retd`, format C-op (9.2.18), rule R924. -/
  | retd
  /-- `sleep`, format E-op8 (9.2.41), rule R925. -/
  | sleep (op : BitVec 8)
  /-- `retss`, format C-op (9.2.18), rule R926. -/
  | retss
  /-- `sr_cond4`, format C-ret (9.2.3), rule R927. -/
  | srCond (c : Cond) (rd : RegNo)
  /-- `sync`, format E-op8 (9.2.41), rule R928. -/
  | sync (op : BitVec 8)
  /-- `tlbr`, format C-op (9.2.18), rule R940. -/
  | tlbr
  /-- `tlbs`, format C-op (9.2.18), rule R941. -/
  | tlbs
  /-- `tlbw`, format C-op (9.2.18), rule R942. -/
  | tlbw
  /-- `cop`, format E-cop (9.2.35), rule R961. -/
  | cop (cp : BitVec 3) (op : BitVec 7) (crd : RegNo) (crx : RegNo) (cry : RegNo)
  /-- `ldc.d`, 3 formats, rule R962. -/
  | ldcD (f : LdcForm)
  /-- `ldc.w`, 3 formats, rule R963. -/
  | ldcW (f : LdcForm)
  /-- `ldc0.d`, format E-cop0 (9.2.26), rule R964. -/
  | ldc0D (crd : RegNo) (rp : RegNo) (disp : BitVec 12)
  /-- `ldc0.w`, format E-cop0 (9.2.26), rule R965. -/
  | ldc0W (crd : RegNo) (rp : RegNo) (disp : BitVec 12)
  /-- `ldcm.d`, format E-cop-multi (9.2.37), rule R966. -/
  | ldcmD (cp : BitVec 3) (rp : RegNo) (wb : BitVec 1) (list : BitVec 8)
  /-- `ldcm.w`, 2 formats, rule R967. -/
  | ldcmW (f : CopMultiForm)
  /-- `mvcr.d`, format E-cop-misc (9.2.38), rule R968. -/
  | mvcrD (cp : BitVec 3) (rd : RegNo) (crs : RegNo)
  /-- `mvcr.w`, format E-cop-misc (9.2.38), rule R969. -/
  | mvcrW (cp : BitVec 3) (rd : RegNo) (crs : RegNo)
  /-- `mvrc.d`, format E-cop-misc (9.2.38), rule R970. -/
  | mvrcD (cp : BitVec 3) (crd : RegNo) (rs : RegNo)
  /-- `mvrc.w`, format E-cop-misc (9.2.38), rule R971. -/
  | mvrcW (cp : BitVec 3) (crd : RegNo) (rs : RegNo)
  /-- `stc.d`, 3 formats, rule R972. -/
  | stcD (f : StcForm)
  /-- `stc.w`, 3 formats, rule R973. -/
  | stcW (f : StcForm)
  /-- `stc0.d`, format E-cop0 (9.2.26), rule R974. -/
  | stc0D (rp : RegNo) (crs : RegNo) (disp : BitVec 12)
  /-- `stc0.w`, format E-cop0 (9.2.26), rule R975. -/
  | stc0W (rp : RegNo) (crs : RegNo) (disp : BitVec 12)
  /-- `stcm.d`, format E-cop-multi (9.2.37), rule R976. -/
  | stcmD (cp : BitVec 3) (rp : RegNo) (wb : BitVec 1) (list : BitVec 8)
  /-- `stcm.w`, 2 formats, rule R977. -/
  | stcmW (f : CopMultiForm)
  /-- `incjosp`, format C-K3 (9.2.54), rule R990. -/
  | incjosp (imm : BitVec 3)
  /-- `popjc`, format C-op (9.2.18), rule R991. -/
  | popjc
  /-- `pushjc`, format C-op (9.2.18), rule R992. -/
  | pushjc
  /-- `retj`, format C-op (9.2.18), rule R993. -/
  | retj
  /-- `pabs.sb`, format E-2R-simd (9.2.56), rule R1002. -/
  | pabsSb (rd : RegNo) (rs : RegNo)
  /-- `pabs.sh`, format E-2R-simd (9.2.56), rule R1002. -/
  | pabsSh (rd : RegNo) (rs : RegNo)
  /-- `packsh.ub`, format E-3R (9.2.20), rule R1003. -/
  | packshUb (rd : RegNo) (rx : RegNo) (ry : RegNo)
  /-- `packsh.sb`, format E-3R (9.2.20), rule R1003. -/
  | packshSb (rd : RegNo) (rx : RegNo) (ry : RegNo)
  /-- `packw.sh`, format E-3R (9.2.20), rule R1004. -/
  | packwSh (rd : RegNo) (rx : RegNo) (ry : RegNo)
  /-- `padd.b`, format E-3R (9.2.20), rule R1005. -/
  | paddB (rd : RegNo) (rx : RegNo) (ry : RegNo)
  /-- `padd.h`, format E-3R (9.2.20), rule R1005. -/
  | paddH (rd : RegNo) (rx : RegNo) (ry : RegNo)
  /-- `paddh.ub`, format E-3R (9.2.20), rule R1006. -/
  | paddhUb (rd : RegNo) (rx : RegNo) (ry : RegNo)
  /-- `paddh.sh`, format E-3R (9.2.20), rule R1006. -/
  | paddhSh (rd : RegNo) (rx : RegNo) (ry : RegNo)
  /-- `padds.ub`, format E-3R (9.2.20), rule R1007. -/
  | paddsUb (rd : RegNo) (rx : RegNo) (ry : RegNo)
  /-- `padds.sb`, format E-3R (9.2.20), rule R1007. -/
  | paddsSb (rd : RegNo) (rx : RegNo) (ry : RegNo)
  /-- `padds.uh`, format E-3R (9.2.20), rule R1007. -/
  | paddsUh (rd : RegNo) (rx : RegNo) (ry : RegNo)
  /-- `padds.sh`, format E-3R (9.2.20), rule R1007. -/
  | paddsSh (rd : RegNo) (rx : RegNo) (ry : RegNo)
  /-- `paddsub.h`, format E-DSP-HH (9.2.21), rule R1008. -/
  | paddsubH (rd : RegNo) (rx : RegNo) (xp : BitVec 1) (ry : RegNo) (yp : BitVec 1)
  /-- `paddsubh.sh`, format E-DSP-HH (9.2.21), rule R1009. -/
  | paddsubhSh (rd : RegNo) (rx : RegNo) (xp : BitVec 1) (ry : RegNo) (yp : BitVec 1)
  /-- `paddsubs.uh`, format E-DSP-HH (9.2.21), rule R1010. -/
  | paddsubsUh (rd : RegNo) (rx : RegNo) (xp : BitVec 1) (ry : RegNo) (yp : BitVec 1)
  /-- `paddsubs.sh`, format E-DSP-HH (9.2.21), rule R1010. -/
  | paddsubsSh (rd : RegNo) (rx : RegNo) (xp : BitVec 1) (ry : RegNo) (yp : BitVec 1)
  /-- `paddx.h`, format E-3R (9.2.20), rule R1011. -/
  | paddxH (rd : RegNo) (rx : RegNo) (ry : RegNo)
  /-- `paddxh.sh`, format E-3R (9.2.20), rule R1012. -/
  | paddxhSh (rd : RegNo) (rx : RegNo) (ry : RegNo)
  /-- `paddxs.uh`, format E-3R (9.2.20), rule R1013. -/
  | paddxsUh (rd : RegNo) (rx : RegNo) (ry : RegNo)
  /-- `paddxs.sh`, format E-3R (9.2.20), rule R1013. -/
  | paddxsSh (rd : RegNo) (rx : RegNo) (ry : RegNo)
  /-- `pasr.b`, format E-2R-K3 (9.2.57), rule R1014. -/
  | pasrB (rd : RegNo) (rs : RegNo) (sa : BitVec 3)
  /-- `pasr.h`, format E-2R-K4 (9.2.58), rule R1014. -/
  | pasrH (rd : RegNo) (rs : RegNo) (sa : BitVec 4)
  /-- `pavg.ub`, format E-3R (9.2.20), rule R1015. -/
  | pavgUb (rd : RegNo) (rx : RegNo) (ry : RegNo)
  /-- `pavg.sh`, format E-3R (9.2.20), rule R1015. -/
  | pavgSh (rd : RegNo) (rx : RegNo) (ry : RegNo)
  /-- `plsl.b`, format E-2R-K3 (9.2.57), rule R1016. -/
  | plslB (rd : RegNo) (rs : RegNo) (sa : BitVec 3)
  /-- `plsl.h`, format E-2R-K4 (9.2.58), rule R1016. -/
  | plslH (rd : RegNo) (rs : RegNo) (sa : BitVec 4)
  /-- `plsr.b`, format E-2R-K3 (9.2.57), rule R1017. -/
  | plsrB (rd : RegNo) (rs : RegNo) (sa : BitVec 3)
  /-- `plsr.h`, format E-2R-K4 (9.2.58), rule R1017. -/
  | plsrH (rd : RegNo) (rs : RegNo) (sa : BitVec 4)
  /-- `pmax.ub`, format E-3R (9.2.20), rule R1018. -/
  | pmaxUb (rd : RegNo) (rx : RegNo) (ry : RegNo)
  /-- `pmax.sh`, format E-3R (9.2.20), rule R1018. -/
  | pmaxSh (rd : RegNo) (rx : RegNo) (ry : RegNo)
  /-- `pmin.ub`, format E-3R (9.2.20), rule R1019. -/
  | pminUb (rd : RegNo) (rx : RegNo) (ry : RegNo)
  /-- `pmin.sh`, format E-3R (9.2.20), rule R1019. -/
  | pminSh (rd : RegNo) (rx : RegNo) (ry : RegNo)
  /-- `psad`, format E-3R (9.2.20), rule R1020. -/
  | psad (rd : RegNo) (rx : RegNo) (ry : RegNo)
  /-- `psub.b`, format E-3R (9.2.20), rule R1021. -/
  | psubB (rd : RegNo) (rx : RegNo) (ry : RegNo)
  /-- `psub.h`, format E-3R (9.2.20), rule R1021. -/
  | psubH (rd : RegNo) (rx : RegNo) (ry : RegNo)
  /-- `psubadd.h`, format E-DSP-HH (9.2.21), rule R1022. -/
  | psubaddH (rd : RegNo) (rx : RegNo) (xp : BitVec 1) (ry : RegNo) (yp : BitVec 1)
  /-- `psubaddh.sh`, format E-DSP-HH (9.2.21), rule R1023. -/
  | psubaddhSh (rd : RegNo) (rx : RegNo) (xp : BitVec 1) (ry : RegNo) (yp : BitVec 1)
  /-- `psubadds.uh`, format E-DSP-HH (9.2.21), rule R1024. -/
  | psubaddsUh (rd : RegNo) (rx : RegNo) (xp : BitVec 1) (ry : RegNo) (yp : BitVec 1)
  /-- `psubadds.sh`, format E-DSP-HH (9.2.21), rule R1024. -/
  | psubaddsSh (rd : RegNo) (rx : RegNo) (xp : BitVec 1) (ry : RegNo) (yp : BitVec 1)
  /-- `psubh.ub`, format E-3R (9.2.20), rule R1025. -/
  | psubhUb (rd : RegNo) (rx : RegNo) (ry : RegNo)
  /-- `psubh.sh`, format E-3R (9.2.20), rule R1025. -/
  | psubhSh (rd : RegNo) (rx : RegNo) (ry : RegNo)
  /-- `psubs.ub`, format E-3R (9.2.20), rule R1026. -/
  | psubsUb (rd : RegNo) (rx : RegNo) (ry : RegNo)
  /-- `psubs.sb`, format E-3R (9.2.20), rule R1026. -/
  | psubsSb (rd : RegNo) (rx : RegNo) (ry : RegNo)
  /-- `psubs.uh`, format E-3R (9.2.20), rule R1026. -/
  | psubsUh (rd : RegNo) (rx : RegNo) (ry : RegNo)
  /-- `psubs.sh`, format E-3R (9.2.20), rule R1026. -/
  | psubsSh (rd : RegNo) (rx : RegNo) (ry : RegNo)
  /-- `psubx.h`, format E-3R (9.2.20), rule R1027. -/
  | psubxH (rd : RegNo) (rx : RegNo) (ry : RegNo)
  /-- `psubxh.sh`, format E-3R (9.2.20), rule R1028. -/
  | psubxhSh (rd : RegNo) (rx : RegNo) (ry : RegNo)
  /-- `psubxs.uh`, format E-3R (9.2.20), rule R1029. -/
  | psubxsUh (rd : RegNo) (rx : RegNo) (ry : RegNo)
  /-- `psubxs.sh`, format E-3R (9.2.20), rule R1029. -/
  | psubxsSh (rd : RegNo) (rx : RegNo) (ry : RegNo)
  /-- `punpckub.h`, format E-2R-simd (9.2.56), rule R1030. -/
  | punpckubH (rd : RegNo) (rs : RegNo) (k : BitVec 1)
  /-- `punpcksb.h`, format E-2R-simd (9.2.56), rule R1030. -/
  | punpcksbH (rd : RegNo) (rs : RegNo) (k : BitVec 1)
  /-- `memc`, format E-addr-b5 (9.2.55), rule R1035. -/
  | memc (bp : BitVec 5) (imm : BitVec 15)
  /-- `mems`, format E-addr-b5 (9.2.55), rule R1036. -/
  | mems (bp : BitVec 5) (imm : BitVec 15)
  /-- `memt`, format E-addr-b5 (9.2.55), rule R1037. -/
  | memt (bp : BitVec 5) (imm : BitVec 15)
  /-- `xchg`, format E-3R (9.2.20), rule R1040. -/
  | xchg (rd : RegNo) (rx : RegNo) (ry : RegNo)
deriving DecidableEq, Repr

end Sys2Proof
end

