-- ==== Sys2Proof/WellFormed.lean ====
section
/-! DEFINITION. Which terms of `Instr` are instructions: every operand fits its field by its type, so the one check is that a register
pair named by a 3-bit field is named by its even register (30_encoding.md R356, R358, R381, R392). The forms whose pair sits in a
4-bit field admit an odd number: that is the U2 case of 93_implementation_defined.md, which runs. -/

namespace Sys2Proof

/-- The register number is even, so that it names a register pair (00_scope.md R29, 30_encoding.md R356). -/
def evenReg (r : RegNo) : Bool := !r.getLsbD 0

/-- The operands are ones the encoding of the instruction can carry (R356, R358, R366). -/
def WellFormed : Instr → Bool
  | .abs _ => true
  | .acr _ => true
  | .adc _ _ _ => true
  | .add _ => true
  | .addCond _ _ _ _ => true
  | .addabs _ _ _ => true
  | .cpB _ _ => true
  | .cpH _ _ => true
  | .cpW _ => true
  | .cpc _ => true
  | .max _ _ _ => true
  | .min _ _ _ => true
  | .neg _ => true
  | .rsub _ => true
  | .rsubCond _ _ _ => true
  | .sbc _ _ _ => true
  | .scr _ => true
  | .sub _ => true
  | .subCond _ => true
  | .tnbz _ => true
  | .divs _ _ _ => true
  | .divu _ _ _ => true
  | .mac _ _ _ => true
  | .macsD _ _ _ => true
  | .macuD _ _ _ => true
  | .mul _ => true
  | .mulsD _ _ _ => true
  | .muluD _ _ _ => true
  | .addhhW _ _ _ _ _ => true
  | .machhD _ _ _ _ _ => true
  | .machhW _ _ _ _ _ => true
  | .macwhD _ _ _ _ => true
  | .mulhhW _ _ _ _ _ => true
  | .mulwhD _ _ _ _ => true
  | .mulnhhW _ _ _ _ _ => true
  | .mulnwhD _ _ _ _ => true
  | .sataddH _ _ _ => true
  | .sataddW _ _ _ => true
  | .satsubH _ _ _ => true
  | .satsubW _ => true
  | .satrnds _ _ _ => true
  | .satrndu _ _ _ => true
  | .sats _ _ _ => true
  | .satu _ _ _ => true
  | .subhhW _ _ _ _ _ => true
  | .mulsathhH _ _ _ _ _ => true
  | .mulsathhW _ _ _ _ _ => true
  | .mulsatrndhhH _ _ _ _ _ => true
  | .mulsatrndwhW _ _ _ _ => true
  | .mulsatwhW _ _ _ _ => true
  | .macsathhW _ _ _ _ _ => true
  | .and _ => true
  | .andCond _ _ _ _ => true
  | .eor _ => true
  | .eorCond _ _ _ _ => true
  | .or _ => true
  | .orCond _ _ _ _ => true
  | .andn _ _ => true
  | .andh _ _ _ => true
  | .andl _ _ _ => true
  | .com _ => true
  | .eorh _ _ => true
  | .eorl _ _ => true
  | .orh _ _ => true
  | .orl _ _ => true
  | .tst _ _ => true
  | .bfexts _ _ _ _ => true
  | .bfextu _ _ _ _ => true
  | .bfins _ _ _ _ => true
  | .bld _ _ => true
  | .brev _ => true
  | .bst _ _ => true
  | .castsB _ => true
  | .castsH _ => true
  | .castuB _ => true
  | .castuH _ => true
  | .cbr _ _ => true
  | .clz _ _ => true
  | .sbr _ _ => true
  | .swapB _ => true
  | .swapBh _ => true
  | .swapH _ => true
  | .asr _ => true
  | .lsl _ => true
  | .lsr _ => true
  | .rol _ => true
  | .ror _ => true
  | .acall _ => true
  | .brCond3 _ _ => true
  | .brCond4 _ _ => true
  | .icall _ => true
  | .mcall _ _ => true
  | .rcall _ => true
  | .rjmp _ => true
  | .retCond _ _ => true
  | .mov _ => true
  | .movCond _ => true
  | .movh _ _ => true
  | .ldUb _ => true
  | .ldUbCond _ _ _ _ => true
  | .ldSb _ => true
  | .ldSbCond _ _ _ _ => true
  | .ldUh _ => true
  | .ldUhCond _ _ _ _ => true
  | .ldSh _ => true
  | .ldShCond _ _ _ _ => true
  | .ldW _ => true
  | .ldWCond _ _ _ _ => true
  | .ldD (.formI rd _) => evenReg rd
  | .ldD (.formII rd _) => evenReg rd
  | .ldD (.formIII rd _) => evenReg rd
  | .ldD (.formIV rd _ _) => evenReg rd
  | .ldD (.formV _ _ _ _) => true
  | .ldinsB _ _ _ _ => true
  | .ldinsH _ _ _ _ => true
  | .ldswpSh _ _ _ => true
  | .ldswpUh _ _ _ => true
  | .ldswpW _ _ _ => true
  | .lddpc _ _ => true
  | .lddsp _ _ => true
  | .stB _ => true
  | .stBCond _ _ _ _ => true
  | .stH _ => true
  | .stHCond _ _ _ _ => true
  | .stW _ => true
  | .stWCond _ _ _ _ => true
  | .stD (.formI _ rs) => evenReg rs
  | .stD (.formII _ rs) => evenReg rs
  | .stD (.formIII _ rs) => evenReg rs
  | .stD (.formIV _ rs _) => evenReg rs
  | .stD (.formV _ _ _ _) => true
  | .stcond _ _ _ => true
  | .stdsp _ _ => true
  | .sthhW _ => true
  | .stswpH _ _ _ => true
  | .stswpW _ _ _ => true
  | .pushm _ => true
  | .popm _ _ => true
  | .ldm _ _ _ => true
  | .stm _ _ _ => true
  | .ldmts _ _ _ => true
  | .stmts _ _ _ => true
  | .csrf _ => true
  | .csrfcz _ => true
  | .ssrf _ => true
  | .breakpoint => true
  | .frs => true
  | .cache _ _ _ => true
  | .pref _ _ => true
  | .mfsr _ _ => true
  | .mfdr _ _ => true
  | .mtsr _ _ => true
  | .mtdr _ _ => true
  | .musfr _ => true
  | .mustr _ => true
  | .nop => true
  | .scall => true
  | .sscall => true
  | .rete => true
  | .rets => true
  | .retd => true
  | .sleep _ => true
  | .retss => true
  | .srCond _ _ => true
  | .sync _ => true
  | .tlbr => true
  | .tlbs => true
  | .tlbw => true
  | .cop _ _ _ _ _ => true
  | .ldcD (.formI _ crd _ _) => evenReg crd
  | .ldcD (.formII _ crd _) => evenReg crd
  | .ldcD (.formIII _ crd _ _ _) => evenReg crd
  | .ldcW _ => true
  | .ldc0D crd _ _ => evenReg crd
  | .ldc0W _ _ _ => true
  | .ldcmD _ _ _ _ => true
  | .ldcmW _ => true
  | .mvcrD _ rd crs => evenReg rd && evenReg crs
  | .mvcrW _ _ _ => true
  | .mvrcD _ crd rs => evenReg crd && evenReg rs
  | .mvrcW _ _ _ => true
  | .stcD (.formI _ _ crs _) => evenReg crs
  | .stcD (.formII _ _ crs) => evenReg crs
  | .stcD (.formIII _ _ _ crs _) => evenReg crs
  | .stcW _ => true
  | .stc0D _ crs _ => evenReg crs
  | .stc0W _ _ _ => true
  | .stcmD _ _ _ _ => true
  | .stcmW _ => true
  | .incjosp _ => true
  | .popjc => true
  | .pushjc => true
  | .retj => true
  | .pabsSb _ _ => true
  | .pabsSh _ _ => true
  | .packshUb _ _ _ => true
  | .packshSb _ _ _ => true
  | .packwSh _ _ _ => true
  | .paddB _ _ _ => true
  | .paddH _ _ _ => true
  | .paddhUb _ _ _ => true
  | .paddhSh _ _ _ => true
  | .paddsUb _ _ _ => true
  | .paddsSb _ _ _ => true
  | .paddsUh _ _ _ => true
  | .paddsSh _ _ _ => true
  | .paddsubH _ _ _ _ _ => true
  | .paddsubhSh _ _ _ _ _ => true
  | .paddsubsUh _ _ _ _ _ => true
  | .paddsubsSh _ _ _ _ _ => true
  | .paddxH _ _ _ => true
  | .paddxhSh _ _ _ => true
  | .paddxsUh _ _ _ => true
  | .paddxsSh _ _ _ => true
  | .pasrB _ _ _ => true
  | .pasrH _ _ _ => true
  | .pavgUb _ _ _ => true
  | .pavgSh _ _ _ => true
  | .plslB _ _ _ => true
  | .plslH _ _ _ => true
  | .plsrB _ _ _ => true
  | .plsrH _ _ _ => true
  | .pmaxUb _ _ _ => true
  | .pmaxSh _ _ _ => true
  | .pminUb _ _ _ => true
  | .pminSh _ _ _ => true
  | .psad _ _ _ => true
  | .psubB _ _ _ => true
  | .psubH _ _ _ => true
  | .psubaddH _ _ _ _ _ => true
  | .psubaddhSh _ _ _ _ _ => true
  | .psubaddsUh _ _ _ _ _ => true
  | .psubaddsSh _ _ _ _ _ => true
  | .psubhUb _ _ _ => true
  | .psubhSh _ _ _ => true
  | .psubsUb _ _ _ => true
  | .psubsSb _ _ _ => true
  | .psubsUh _ _ _ => true
  | .psubsSh _ _ _ => true
  | .psubxH _ _ _ => true
  | .psubxhSh _ _ _ => true
  | .psubxsUh _ _ _ => true
  | .psubxsSh _ _ _ => true
  | .punpckubH _ _ _ => true
  | .punpcksbH _ _ _ => true
  | .memc _ _ => true
  | .mems _ _ => true
  | .memt _ _ => true
  | .xchg _ _ _ => true

end Sys2Proof
end

