-- ==== Sys2Proof/Decode.lean ====
section
/-! DEFINITION. The decoder and, after it, the encoder, both written from the encoding table (31_opcode_map.md R420, the map of
30_encoding.md R405). Decoding is total on any bytes: it gives an instruction with the bytes left over, or a rejection by name. A word
that matches no row, a wrong fixed bit included, is unknown (R410, 92_eei_decisions.md D40). -/

namespace Sys2Proof

/-- `x` above `y`, as `k` bits: the concatenation `(x, y)` of R20. -/
def cat {n m : Nat} (k : Nat) (x : BitVec n) (y : BitVec m) : BitVec k := (x ++ y).setWidth k

/-- A field that lies in the lower part of a concatenation. -/
theorem extract_cat_lo {n m k s l : Nat} (x : BitVec n) (y : BitVec m) (h : n + m = k) (hl : s + l ≤ m) :
    (cat k x y).extractLsb' s l = y.extractLsb' s l := by
  subst h; simp only [cat, BitVec.setWidth_eq]; exact BitVec.extractLsb'_append_eq_of_add_le hl

/-- A field that lies in the upper part of a concatenation. -/
theorem extract_cat_hi {n m k s l : Nat} (x : BitVec n) (y : BitVec m) (h : n + m = k) (hl : m ≤ s) :
    (cat k x y).extractLsb' s l = x.extractLsb' (s - m) l := by
  subst h; simp only [cat, BitVec.setWidth_eq]; exact BitVec.extractLsb'_append_eq_of_le hl

/-- The compact instructions with bits 15:13 = 000 (R405). -/
def decodeHalf000 (h : Half) : Option Instr :=
  if h.extractLsb' 7 2 = 0b00#2 then
    if h.extractLsb' 4 3 = 0b000#3 then some (.add (.formI (h.extractLsb' 0 4) (h.extractLsb' 9 4)))
    else if h.extractLsb' 4 3 = 0b001#3 then some (.sub (.formI (h.extractLsb' 0 4) (h.extractLsb' 9 4)))
    else if h.extractLsb' 4 3 = 0b010#3 then some (.rsub (.formI (h.extractLsb' 0 4) (h.extractLsb' 9 4)))
    else if h.extractLsb' 4 3 = 0b011#3 then some (.cpW (.formI (h.extractLsb' 0 4) (h.extractLsb' 9 4)))
    else if h.extractLsb' 4 3 = 0b100#3 then some (.or (.formI (h.extractLsb' 0 4) (h.extractLsb' 9 4)))
    else if h.extractLsb' 4 3 = 0b101#3 then some (.eor (.formI (h.extractLsb' 0 4) (h.extractLsb' 9 4)))
    else if h.extractLsb' 4 3 = 0b110#3 then some (.and (.formI (h.extractLsb' 0 4) (h.extractLsb' 9 4)))
    else if h.extractLsb' 4 3 = 0b111#3 then some (.tst (h.extractLsb' 0 4) (h.extractLsb' 9 4))
    else none
  else if h.extractLsb' 7 2 = 0b01#2 then
    if h.extractLsb' 4 3 = 0b000#3 then some (.andn (h.extractLsb' 0 4) (h.extractLsb' 9 4))
    else if h.extractLsb' 4 3 = 0b001#3 then some (.mov (.formIII (h.extractLsb' 0 4) (h.extractLsb' 9 4)))
    else if h.extractLsb' 4 3 = 0b010#3 then some (.stW (.formI (h.extractLsb' 9 4) (h.extractLsb' 0 4)))
    else if h.extractLsb' 4 3 = 0b011#3 then some (.stH (.formI (h.extractLsb' 9 4) (h.extractLsb' 0 4)))
    else if h.extractLsb' 4 3 = 0b100#3 then some (.stB (.formI (h.extractLsb' 9 4) (h.extractLsb' 0 4)))
    else if h.extractLsb' 4 3 = 0b101#3 then some (.stW (.formII (h.extractLsb' 9 4) (h.extractLsb' 0 4)))
    else if h.extractLsb' 4 3 = 0b110#3 then some (.stH (.formII (h.extractLsb' 9 4) (h.extractLsb' 0 4)))
    else if h.extractLsb' 4 3 = 0b111#3 then some (.stB (.formII (h.extractLsb' 9 4) (h.extractLsb' 0 4)))
    else none
  else if h.extractLsb' 7 2 = 0b10#2 then
    if h.extractLsb' 4 3 = 0b000#3 then some (.ldW (.formI (h.extractLsb' 0 4) (h.extractLsb' 9 4)))
    else if h.extractLsb' 4 3 = 0b001#3 then some (.ldSh (.formI (h.extractLsb' 0 4) (h.extractLsb' 9 4)))
    else if h.extractLsb' 4 3 = 0b010#3 then some (.ldUh (.formI (h.extractLsb' 0 4) (h.extractLsb' 9 4)))
    else if h.extractLsb' 4 3 = 0b011#3 then some (.ldUb (.formI (h.extractLsb' 0 4) (h.extractLsb' 9 4)))
    else if h.extractLsb' 4 3 = 0b100#3 then some (.ldW (.formII (h.extractLsb' 0 4) (h.extractLsb' 9 4)))
    else if h.extractLsb' 4 3 = 0b101#3 then some (.ldSh (.formII (h.extractLsb' 0 4) (h.extractLsb' 9 4)))
    else if h.extractLsb' 4 3 = 0b110#3 then some (.ldUh (.formII (h.extractLsb' 0 4) (h.extractLsb' 9 4)))
    else if h.extractLsb' 4 3 = 0b111#3 then some (.ldUb (.formII (h.extractLsb' 0 4) (h.extractLsb' 9 4)))
    else none
  else if h.extractLsb' 7 2 = 0b11#2 then some (.ldUb (.formIII (h.extractLsb' 0 4) (h.extractLsb' 9 4) (h.extractLsb' 4 3)))
  else none

/-- The compact instructions with bits 15:13 = 001 (R405). -/
def decodeHalf001 (h : Half) : Option Instr :=
  if h.extractLsb' 12 1 = 0b0#1 then some (.sub (.formIII (h.extractLsb' 0 4) (h.extractLsb' 4 8)))
  else if h.extractLsb' 12 1 = 0b1#1 then some (.mov (.formI (h.extractLsb' 0 4) (h.extractLsb' 4 8)))
  else none

/-- The compact instructions with bits 15:13 = 010 (R405). -/
def decodeHalf010 (h : Half) : Option Instr :=
  if h.extractLsb' 11 2 = 0b00#2 then some (.lddsp (h.extractLsb' 0 4) (h.extractLsb' 4 7))
  else if h.extractLsb' 11 2 = 0b01#2 then some (.lddpc (h.extractLsb' 0 4) (h.extractLsb' 4 7))
  else if h.extractLsb' 11 2 = 0b10#2 then some (.stdsp (h.extractLsb' 0 4) (h.extractLsb' 4 7))
  else if h.extractLsb' 11 2 = 0b11#2 then
    if h.extractLsb' 10 1 = 0b0#1 then some (.cpW (.formII (h.extractLsb' 0 4) (h.extractLsb' 4 6)))
    else if h.extractLsb' 10 1 = 0b1#1 then
      if h.extractLsb' 8 2 = 0b00#2 then
        if h.extractLsb' 4 4 = 0b0000#4 then some (.acr (h.extractLsb' 0 4))
        else if h.extractLsb' 4 4 = 0b0001#4 then some (.scr (h.extractLsb' 0 4))
        else if h.extractLsb' 4 4 = 0b0010#4 then some (.cpc (.formII (h.extractLsb' 0 4)))
        else if h.extractLsb' 4 4 = 0b0011#4 then some (.neg (h.extractLsb' 0 4))
        else if h.extractLsb' 4 4 = 0b0100#4 then some (.abs (h.extractLsb' 0 4))
        else if h.extractLsb' 4 4 = 0b0101#4 then some (.castuB (h.extractLsb' 0 4))
        else if h.extractLsb' 4 4 = 0b0110#4 then some (.castsB (h.extractLsb' 0 4))
        else if h.extractLsb' 4 4 = 0b0111#4 then some (.castuH (h.extractLsb' 0 4))
        else if h.extractLsb' 4 4 = 0b1000#4 then some (.castsH (h.extractLsb' 0 4))
        else if h.extractLsb' 4 4 = 0b1001#4 then some (.brev (h.extractLsb' 0 4))
        else if h.extractLsb' 4 4 = 0b1010#4 then some (.swapH (h.extractLsb' 0 4))
        else if h.extractLsb' 4 4 = 0b1011#4 then some (.swapB (h.extractLsb' 0 4))
        else if h.extractLsb' 4 4 = 0b1100#4 then some (.swapBh (h.extractLsb' 0 4))
        else if h.extractLsb' 4 4 = 0b1101#4 then some (.com (h.extractLsb' 0 4))
        else if h.extractLsb' 4 4 = 0b1110#4 then some (.tnbz (h.extractLsb' 0 4))
        else if h.extractLsb' 4 4 = 0b1111#4 then some (.rol (h.extractLsb' 0 4))
        else none
      else if h.extractLsb' 8 2 = 0b01#2 then
        if h.extractLsb' 4 4 = 0b0000#4 then some (.ror (h.extractLsb' 0 4))
        else if h.extractLsb' 4 4 = 0b0001#4 then some (.icall (h.extractLsb' 0 4))
        else if h.extractLsb' 4 4 = 0b0010#4 then some (.mustr (h.extractLsb' 0 4))
        else if h.extractLsb' 4 4 = 0b0011#4 then some (.musfr (h.extractLsb' 0 4))
        else none
      else if h.extractLsb' 8 2 = 0b10#2 then some (.retCond (h.extractLsb' 4 4) (h.extractLsb' 0 4))
      else if h.extractLsb' 8 2 = 0b11#2 then some (.srCond (h.extractLsb' 4 4) (h.extractLsb' 0 4))
      else none
    else none
  else none

/-- The compact instructions with bits 15:13 = 011 (R405). -/
def decodeHalf011 (h : Half) : Option Instr :=
  some (.ldW (.formIII (h.extractLsb' 0 4) (h.extractLsb' 9 4) (h.extractLsb' 4 5)))

/-- The compact instructions with bits 15:13 = 100 (R405). -/
def decodeHalf100 (h : Half) : Option Instr :=
  if h.extractLsb' 8 1 = 0b0#1 then
    if h.extractLsb' 7 1 = 0b0#1 then some (.ldSh (.formIII (h.extractLsb' 0 4) (h.extractLsb' 9 4) (h.extractLsb' 4 3)))
    else if h.extractLsb' 7 1 = 0b1#1 then some (.ldUh (.formIII (h.extractLsb' 0 4) (h.extractLsb' 9 4) (h.extractLsb' 4 3)))
    else none
  else if h.extractLsb' 8 1 = 0b1#1 then some (.stW (.formIII (h.extractLsb' 9 4) (h.extractLsb' 0 4) (h.extractLsb' 4 4)))
  else none

/-- The compact instructions with bits 15:13 = 101 (R405). -/
def decodeHalf101 (h : Half) : Option Instr :=
  if h.extractLsb' 7 2 = 0b00#2 then some (.stH (.formIII (h.extractLsb' 9 4) (h.extractLsb' 0 4) (h.extractLsb' 4 3)))
  else if h.extractLsb' 7 2 = 0b01#2 then some (.stB (.formIII (h.extractLsb' 9 4) (h.extractLsb' 0 4) (h.extractLsb' 4 3)))
  else if h.extractLsb' 7 2 = 0b10#2 then
    if h.extractLsb' 5 2 = 0b00#2 then
      if h.extractLsb' 0 1 = 0b0#1 then
        if h.extractLsb' 4 1 = 0b0#1 then some (.ldD (.formIII (cat 4 (h.extractLsb' 1 3) 0b0#1) (h.extractLsb' 9 4)))
        else if h.extractLsb' 4 1 = 0b1#1 then some (.ldD (.formII (cat 4 (h.extractLsb' 1 3) 0b0#1) (h.extractLsb' 9 4)))
        else none
      else if h.extractLsb' 0 1 = 0b1#1 then
        if h.extractLsb' 4 1 = 0b0#1 then some (.ldD (.formI (cat 4 (h.extractLsb' 1 3) 0b0#1) (h.extractLsb' 9 4)))
        else if h.extractLsb' 4 1 = 0b1#1 then some (.stD (.formIII (h.extractLsb' 9 4) (cat 4 (h.extractLsb' 1 3) 0b0#1)))
        else none
      else none
    else if h.extractLsb' 5 2 = 0b01#2 then
      if h.extractLsb' 4 1 = 0b0#1 then
        if h.extractLsb' 0 1 = 0b0#1 then some (.stD (.formI (h.extractLsb' 9 4) (cat 4 (h.extractLsb' 1 3) 0b0#1)))
        else if h.extractLsb' 0 1 = 0b1#1 then some (.stD (.formII (h.extractLsb' 9 4) (cat 4 (h.extractLsb' 1 3) 0b0#1)))
        else none
      else if h.extractLsb' 4 1 = 0b1#1 then some (.mul (.formI (h.extractLsb' 0 4) (h.extractLsb' 9 4)))
      else none
    else if h.extractLsb' 5 2 = 0b10#2 then some (.asr (.formII (h.extractLsb' 0 4) (cat 5 (h.extractLsb' 9 4) (h.extractLsb' 4 1))))
    else if h.extractLsb' 5 2 = 0b11#2 then some (.lsl (.formII (h.extractLsb' 0 4) (cat 5 (h.extractLsb' 9 4) (h.extractLsb' 4 1))))
    else none
  else if h.extractLsb' 7 2 = 0b11#2 then
    if h.extractLsb' 5 2 = 0b00#2 then some (.lsr (.formII (h.extractLsb' 0 4) (cat 5 (h.extractLsb' 9 4) (h.extractLsb' 4 1))))
    else if h.extractLsb' 5 2 = 0b01#2 then some (.sbr (h.extractLsb' 0 4) (cat 5 (h.extractLsb' 9 4) (h.extractLsb' 4 1)))
    else if h.extractLsb' 5 2 = 0b10#2 then some (.cbr (h.extractLsb' 0 4) (cat 5 (h.extractLsb' 9 4) (h.extractLsb' 4 1)))
    else none
  else none

/-- The compact instructions with bits 15:13 = 110 (R405). -/
def decodeHalf110 (h : Half) : Option Instr :=
  if h.extractLsb' 12 1 = 0b0#1 then
    if h.extractLsb' 3 1 = 0b0#1 then some (.brCond3 (h.extractLsb' 0 3) (h.extractLsb' 4 8))
    else if h.extractLsb' 3 1 = 0b1#1 then
      if h.extractLsb' 2 1 = 0b0#1 then some (.rjmp (cat 10 (h.extractLsb' 0 2) (h.extractLsb' 4 8)))
      else if h.extractLsb' 2 1 = 0b1#1 then some (.rcall (.formI (cat 10 (h.extractLsb' 0 2) (h.extractLsb' 4 8))))
      else none
    else none
  else if h.extractLsb' 12 1 = 0b1#1 then
    if h.extractLsb' 0 3 = 0b000#3 then
      if h.extractLsb' 3 1 = 0b0#1 then some (.acall (h.extractLsb' 4 8))
      else none
    else if h.extractLsb' 0 3 = 0b001#3 then
      if h.extractLsb' 3 1 = 0b0#1 then some (.pushm (h.extractLsb' 4 8))
      else none
    else if h.extractLsb' 0 3 = 0b010#3 then some (.popm (h.extractLsb' 3 1) (h.extractLsb' 4 8))
    else if h.extractLsb' 0 3 = 0b011#3 then
      if h.extractLsb' 9 3 = 0b000#3 then
        if h.extractLsb' 3 1 = 0b0#1 then some (.csrfcz (h.extractLsb' 4 5))
        else none
      else if h.extractLsb' 9 3 = 0b001#3 then
        if h.extractLsb' 3 1 = 0b0#1 then some (.ssrf (h.extractLsb' 4 5))
        else none
      else if h.extractLsb' 9 3 = 0b010#3 then
        if h.extractLsb' 3 1 = 0b0#1 then some (.csrf (h.extractLsb' 4 5))
        else none
      else if h.extractLsb' 9 3 = 0b011#3 then
        if h.extractLsb' 7 2 = 0b00#2 then
          if h.extractLsb' 3 4 = 0b0000#4 then some .rete
          else if h.extractLsb' 3 4 = 0b0010#4 then some .rets
          else if h.extractLsb' 3 4 = 0b0100#4 then some .retd
          else if h.extractLsb' 3 4 = 0b0110#4 then some .retj
          else if h.extractLsb' 3 4 = 0b1000#4 then some .tlbr
          else if h.extractLsb' 3 4 = 0b1010#4 then some .tlbs
          else if h.extractLsb' 3 4 = 0b1100#4 then some .tlbw
          else if h.extractLsb' 3 4 = 0b1110#4 then some .breakpoint
          else none
        else if h.extractLsb' 7 2 = 0b01#2 then
          if h.extractLsb' 3 1 = 0b0#1 then some (.incjosp (h.extractLsb' 4 3))
          else none
        else if h.extractLsb' 7 2 = 0b10#2 then
          if h.extractLsb' 3 4 = 0b0000#4 then some .nop
          else if h.extractLsb' 3 4 = 0b0010#4 then some .popjc
          else if h.extractLsb' 3 4 = 0b0100#4 then some .pushjc
          else if h.extractLsb' 3 4 = 0b0110#4 then some .scall
          else if h.extractLsb' 3 4 = 0b1000#4 then some .frs
          else if h.extractLsb' 3 4 = 0b1010#4 then some .sscall
          else if h.extractLsb' 3 4 = 0b1100#4 then some .retss
          else none
        else none
      else none
    else none
  else none

/-- The compact instruction of a halfword, none where no row of R420 matches (R353, R405). -/
def decodeHalf (h : Half) : Option Instr :=
  if h.extractLsb' 13 3 = 0b000#3 then decodeHalf000 h
  else if h.extractLsb' 13 3 = 0b001#3 then decodeHalf001 h
  else if h.extractLsb' 13 3 = 0b010#3 then decodeHalf010 h
  else if h.extractLsb' 13 3 = 0b011#3 then decodeHalf011 h
  else if h.extractLsb' 13 3 = 0b100#3 then decodeHalf100 h
  else if h.extractLsb' 13 3 = 0b101#3 then decodeHalf101 h
  else if h.extractLsb' 13 3 = 0b110#3 then decodeHalf110 h
  else none

/-- The three-register group (bits 24:20 = 00000) with bits 15:12 = 0000 (R390, R405). -/
def decodeWord00000x0000 (w : Word) : Option Instr :=
  if w.extractLsb' 6 6 = 0b000000#6 then some (.add (.formII (w.extractLsb' 0 4) (w.extractLsb' 25 4) (w.extractLsb' 16 4) (w.extractLsb' 4 2)))
  else if w.extractLsb' 6 6 = 0b000001#6 then
    if w.extractLsb' 4 2 = 0b00#2 then some (.adc (w.extractLsb' 0 4) (w.extractLsb' 25 4) (w.extractLsb' 16 4))
    else none
  else if w.extractLsb' 6 6 = 0b000011#6 then
    if w.extractLsb' 4 2 = 0b00#2 then some (.sataddW (w.extractLsb' 0 4) (w.extractLsb' 25 4) (w.extractLsb' 16 4))
    else none
  else if w.extractLsb' 6 6 = 0b000100#6 then some (.sub (.formII (w.extractLsb' 0 4) (w.extractLsb' 25 4) (w.extractLsb' 16 4) (w.extractLsb' 4 2)))
  else if w.extractLsb' 6 6 = 0b000101#6 then
    if w.extractLsb' 4 2 = 0b00#2 then some (.sbc (w.extractLsb' 0 4) (w.extractLsb' 25 4) (w.extractLsb' 16 4))
    else none
  else if w.extractLsb' 6 6 = 0b000110#6 then
    some (.mulnhhW (w.extractLsb' 0 4) (w.extractLsb' 25 4) (w.extractLsb' 5 1) (w.extractLsb' 16 4) (w.extractLsb' 4 1))
  else if w.extractLsb' 6 6 = 0b000111#6 then
    if w.extractLsb' 4 2 = 0b00#2 then some (.satsubW (.formI (w.extractLsb' 0 4) (w.extractLsb' 25 4) (w.extractLsb' 16 4)))
    else none
  else if w.extractLsb' 6 6 = 0b001000#6 then some (.ldD (.formV (w.extractLsb' 0 4) (w.extractLsb' 25 4) (w.extractLsb' 16 4) (w.extractLsb' 4 2)))
  else if w.extractLsb' 6 6 = 0b001001#6 then
    if w.extractLsb' 4 2 = 0b00#2 then some (.mul (.formII (w.extractLsb' 0 4) (w.extractLsb' 25 4) (w.extractLsb' 16 4)))
    else none
  else if w.extractLsb' 6 6 = 0b001010#6 then
    if w.extractLsb' 5 1 = 0b0#1 then some (.mulnwhD (w.extractLsb' 0 4) (w.extractLsb' 25 4) (w.extractLsb' 16 4) (w.extractLsb' 4 1))
    else none
  else if w.extractLsb' 6 6 = 0b001011#6 then
    if w.extractLsb' 4 2 = 0b00#2 then some (.sataddH (w.extractLsb' 0 4) (w.extractLsb' 25 4) (w.extractLsb' 16 4))
    else none
  else if w.extractLsb' 6 6 = 0b001100#6 then some (.ldW (.formV (w.extractLsb' 0 4) (w.extractLsb' 25 4) (w.extractLsb' 16 4) (w.extractLsb' 4 2)))
  else if w.extractLsb' 6 6 = 0b001101#6 then
    if w.extractLsb' 4 2 = 0b00#2 then some (.mac (w.extractLsb' 0 4) (w.extractLsb' 25 4) (w.extractLsb' 16 4))
    else none
  else if w.extractLsb' 6 6 = 0b001111#6 then
    if w.extractLsb' 4 2 = 0b00#2 then some (.satsubH (w.extractLsb' 0 4) (w.extractLsb' 25 4) (w.extractLsb' 16 4))
    else none
  else if w.extractLsb' 6 6 = 0b010000#6 then some (.ldSh (.formV (w.extractLsb' 0 4) (w.extractLsb' 25 4) (w.extractLsb' 16 4) (w.extractLsb' 4 2)))
  else if w.extractLsb' 6 6 = 0b010001#6 then
    if w.extractLsb' 4 2 = 0b00#2 then some (.mulsD (w.extractLsb' 0 4) (w.extractLsb' 25 4) (w.extractLsb' 16 4))
    else none
  else if w.extractLsb' 6 6 = 0b010010#6 then
    some (.machhW (w.extractLsb' 0 4) (w.extractLsb' 25 4) (w.extractLsb' 5 1) (w.extractLsb' 16 4) (w.extractLsb' 4 1))
  else if w.extractLsb' 6 6 = 0b010100#6 then some (.ldUh (.formV (w.extractLsb' 0 4) (w.extractLsb' 25 4) (w.extractLsb' 16 4) (w.extractLsb' 4 2)))
  else if w.extractLsb' 6 6 = 0b010101#6 then
    if w.extractLsb' 4 2 = 0b00#2 then some (.macsD (w.extractLsb' 0 4) (w.extractLsb' 25 4) (w.extractLsb' 16 4))
    else none
  else if w.extractLsb' 6 6 = 0b010110#6 then
    some (.machhD (w.extractLsb' 0 4) (w.extractLsb' 25 4) (w.extractLsb' 5 1) (w.extractLsb' 16 4) (w.extractLsb' 4 1))
  else if w.extractLsb' 6 6 = 0b011000#6 then some (.ldSb (.formII (w.extractLsb' 0 4) (w.extractLsb' 25 4) (w.extractLsb' 16 4) (w.extractLsb' 4 2)))
  else if w.extractLsb' 6 6 = 0b011001#6 then
    if w.extractLsb' 4 2 = 0b00#2 then some (.muluD (w.extractLsb' 0 4) (w.extractLsb' 25 4) (w.extractLsb' 16 4))
    else none
  else if w.extractLsb' 6 6 = 0b011010#6 then
    some (.macsathhW (w.extractLsb' 0 4) (w.extractLsb' 25 4) (w.extractLsb' 5 1) (w.extractLsb' 16 4) (w.extractLsb' 4 1))
  else if w.extractLsb' 6 6 = 0b011100#6 then some (.ldUb (.formV (w.extractLsb' 0 4) (w.extractLsb' 25 4) (w.extractLsb' 16 4) (w.extractLsb' 4 2)))
  else if w.extractLsb' 6 6 = 0b011101#6 then
    if w.extractLsb' 4 2 = 0b00#2 then some (.macuD (w.extractLsb' 0 4) (w.extractLsb' 25 4) (w.extractLsb' 16 4))
    else none
  else if w.extractLsb' 6 6 = 0b011110#6 then
    some (.mulhhW (w.extractLsb' 0 4) (w.extractLsb' 25 4) (w.extractLsb' 5 1) (w.extractLsb' 16 4) (w.extractLsb' 4 1))
  else if w.extractLsb' 6 6 = 0b100000#6 then some (.stD (.formV (w.extractLsb' 25 4) (w.extractLsb' 16 4) (w.extractLsb' 0 4) (w.extractLsb' 4 2)))
  else if w.extractLsb' 6 6 = 0b100001#6 then
    if w.extractLsb' 4 2 = 0b00#2 then some (.asr (.formI (w.extractLsb' 0 4) (w.extractLsb' 25 4) (w.extractLsb' 16 4)))
    else none
  else if w.extractLsb' 6 6 = 0b100010#6 then
    some (.mulsathhH (w.extractLsb' 0 4) (w.extractLsb' 25 4) (w.extractLsb' 5 1) (w.extractLsb' 16 4) (w.extractLsb' 4 1))
  else if w.extractLsb' 6 6 = 0b100100#6 then some (.stW (.formV (w.extractLsb' 25 4) (w.extractLsb' 16 4) (w.extractLsb' 0 4) (w.extractLsb' 4 2)))
  else if w.extractLsb' 6 6 = 0b100101#6 then
    if w.extractLsb' 4 2 = 0b00#2 then some (.lsl (.formI (w.extractLsb' 0 4) (w.extractLsb' 25 4) (w.extractLsb' 16 4)))
    else none
  else if w.extractLsb' 6 6 = 0b100110#6 then
    some (.mulsathhW (w.extractLsb' 0 4) (w.extractLsb' 25 4) (w.extractLsb' 5 1) (w.extractLsb' 16 4) (w.extractLsb' 4 1))
  else if w.extractLsb' 6 6 = 0b101000#6 then some (.stH (.formV (w.extractLsb' 25 4) (w.extractLsb' 16 4) (w.extractLsb' 0 4) (w.extractLsb' 4 2)))
  else if w.extractLsb' 6 6 = 0b101001#6 then
    if w.extractLsb' 4 2 = 0b00#2 then some (.lsr (.formI (w.extractLsb' 0 4) (w.extractLsb' 25 4) (w.extractLsb' 16 4)))
    else none
  else if w.extractLsb' 6 6 = 0b101010#6 then
    some (.mulsatrndhhH (w.extractLsb' 0 4) (w.extractLsb' 25 4) (w.extractLsb' 5 1) (w.extractLsb' 16 4) (w.extractLsb' 4 1))
  else if w.extractLsb' 6 6 = 0b101100#6 then some (.stB (.formV (w.extractLsb' 25 4) (w.extractLsb' 16 4) (w.extractLsb' 0 4) (w.extractLsb' 4 2)))
  else if w.extractLsb' 6 6 = 0b101101#6 then
    if w.extractLsb' 4 2 = 0b00#2 then some (.xchg (w.extractLsb' 0 4) (w.extractLsb' 25 4) (w.extractLsb' 16 4))
    else none
  else if w.extractLsb' 6 6 = 0b101110#6 then
    if w.extractLsb' 5 1 = 0b0#1 then some (.mulsatrndwhW (w.extractLsb' 0 4) (w.extractLsb' 25 4) (w.extractLsb' 16 4) (w.extractLsb' 4 1))
    else none
  else if w.extractLsb' 6 6 = 0b110000#6 then
    if w.extractLsb' 4 2 = 0b00#2 then some (.divs (w.extractLsb' 0 4) (w.extractLsb' 25 4) (w.extractLsb' 16 4))
    else none
  else if w.extractLsb' 6 6 = 0b110001#6 then
    if w.extractLsb' 4 2 = 0b00#2 then some (.max (w.extractLsb' 0 4) (w.extractLsb' 25 4) (w.extractLsb' 16 4))
    else none
  else if w.extractLsb' 6 6 = 0b110010#6 then
    if w.extractLsb' 5 1 = 0b0#1 then some (.macwhD (w.extractLsb' 0 4) (w.extractLsb' 25 4) (w.extractLsb' 16 4) (w.extractLsb' 4 1))
    else none
  else if w.extractLsb' 6 6 = 0b110100#6 then
    if w.extractLsb' 4 2 = 0b00#2 then some (.divu (w.extractLsb' 0 4) (w.extractLsb' 25 4) (w.extractLsb' 16 4))
    else none
  else if w.extractLsb' 6 6 = 0b110101#6 then
    if w.extractLsb' 4 2 = 0b00#2 then some (.min (w.extractLsb' 0 4) (w.extractLsb' 25 4) (w.extractLsb' 16 4))
    else none
  else if w.extractLsb' 6 6 = 0b110110#6 then
    if w.extractLsb' 5 1 = 0b0#1 then some (.mulwhD (w.extractLsb' 0 4) (w.extractLsb' 25 4) (w.extractLsb' 16 4) (w.extractLsb' 4 1))
    else none
  else if w.extractLsb' 6 6 = 0b111000#6 then
    some (.addhhW (w.extractLsb' 0 4) (w.extractLsb' 25 4) (w.extractLsb' 5 1) (w.extractLsb' 16 4) (w.extractLsb' 4 1))
  else if w.extractLsb' 6 6 = 0b111001#6 then
    if w.extractLsb' 4 2 = 0b00#2 then some (.addabs (w.extractLsb' 0 4) (w.extractLsb' 25 4) (w.extractLsb' 16 4))
    else none
  else if w.extractLsb' 6 6 = 0b111010#6 then
    if w.extractLsb' 5 1 = 0b0#1 then some (.mulsatwhW (w.extractLsb' 0 4) (w.extractLsb' 25 4) (w.extractLsb' 16 4) (w.extractLsb' 4 1))
    else none
  else if w.extractLsb' 6 6 = 0b111100#6 then
    some (.subhhW (w.extractLsb' 0 4) (w.extractLsb' 25 4) (w.extractLsb' 5 1) (w.extractLsb' 16 4) (w.extractLsb' 4 1))
  else if w.extractLsb' 6 6 = 0b111110#6 then
    some (.ldW (.formVI (w.extractLsb' 0 4) (w.extractLsb' 5 1) (w.extractLsb' 4 1) (w.extractLsb' 25 4) (w.extractLsb' 16 4)))
  else none

/-- The three-register group (bits 24:20 = 00000) with bits 15:12 = 0001 (R390, R405). -/
def decodeWord00000x0001 (w : Word) : Option Instr :=
  if w.extractLsb' 8 4 = 0b0000#4 then some (.mul (.formIII (w.extractLsb' 16 4) (w.extractLsb' 25 4) (w.extractLsb' 0 8)))
  else if w.extractLsb' 8 4 = 0b0001#4 then some (.rsub (.formII (w.extractLsb' 16 4) (w.extractLsb' 25 4) (w.extractLsb' 0 8)))
  else if w.extractLsb' 8 4 = 0b0010#4 then
    if w.extractLsb' 0 8 = 0b00000000#8 then some (.clz (w.extractLsb' 16 4) (w.extractLsb' 25 4))
    else none
  else if w.extractLsb' 8 4 = 0b0011#4 then
    if w.extractLsb' 0 8 = 0b00000000#8 then some (.cpc (.formI (w.extractLsb' 16 4) (w.extractLsb' 25 4)))
    else none
  else if w.extractLsb' 8 4 = 0b0100#4 then
    if w.extractLsb' 5 3 = 0b000#3 then some (.asr (.formIII (w.extractLsb' 16 4) (w.extractLsb' 25 4) (w.extractLsb' 0 5)))
    else none
  else if w.extractLsb' 8 4 = 0b0101#4 then
    if w.extractLsb' 5 3 = 0b000#3 then some (.lsl (.formIII (w.extractLsb' 16 4) (w.extractLsb' 25 4) (w.extractLsb' 0 5)))
    else none
  else if w.extractLsb' 8 4 = 0b0110#4 then
    if w.extractLsb' 5 3 = 0b000#3 then some (.lsr (.formIII (w.extractLsb' 16 4) (w.extractLsb' 25 4) (w.extractLsb' 0 5)))
    else none
  else if w.extractLsb' 8 4 = 0b0111#4 then
    if w.extractLsb' 0 4 = 0b0000#4 then some (.movCond (.formI (w.extractLsb' 4 4) (w.extractLsb' 16 4) (w.extractLsb' 25 4)))
    else none
  else if w.extractLsb' 8 4 = 0b1000#4 then
    if w.extractLsb' 0 8 = 0b00000000#8 then some (.cpB (w.extractLsb' 16 4) (w.extractLsb' 25 4))
    else none
  else if w.extractLsb' 8 4 = 0b1001#4 then
    if w.extractLsb' 0 8 = 0b00000000#8 then some (.cpH (w.extractLsb' 16 4) (w.extractLsb' 25 4))
    else none
  else none

/-- The three-register group (bits 24:20 = 00000) with bits 15:12 = 0010 (R390, R405). -/
def decodeWord00000x0010 (w : Word) : Option Instr :=
  if w.extractLsb' 6 6 = 0b000000#6 then
    if w.extractLsb' 4 2 = 0b00#2 then some (.paddH (w.extractLsb' 0 4) (w.extractLsb' 25 4) (w.extractLsb' 16 4))
    else if w.extractLsb' 4 2 = 0b01#2 then some (.psubH (w.extractLsb' 0 4) (w.extractLsb' 25 4) (w.extractLsb' 16 4))
    else if w.extractLsb' 4 2 = 0b10#2 then some (.paddxH (w.extractLsb' 0 4) (w.extractLsb' 25 4) (w.extractLsb' 16 4))
    else if w.extractLsb' 4 2 = 0b11#2 then some (.psubxH (w.extractLsb' 0 4) (w.extractLsb' 25 4) (w.extractLsb' 16 4))
    else none
  else if w.extractLsb' 6 6 = 0b000001#6 then
    if w.extractLsb' 4 2 = 0b00#2 then some (.paddsSh (w.extractLsb' 0 4) (w.extractLsb' 25 4) (w.extractLsb' 16 4))
    else if w.extractLsb' 4 2 = 0b01#2 then some (.psubsSh (w.extractLsb' 0 4) (w.extractLsb' 25 4) (w.extractLsb' 16 4))
    else if w.extractLsb' 4 2 = 0b10#2 then some (.paddxsSh (w.extractLsb' 0 4) (w.extractLsb' 25 4) (w.extractLsb' 16 4))
    else if w.extractLsb' 4 2 = 0b11#2 then some (.psubxsSh (w.extractLsb' 0 4) (w.extractLsb' 25 4) (w.extractLsb' 16 4))
    else none
  else if w.extractLsb' 6 6 = 0b000010#6 then
    if w.extractLsb' 4 2 = 0b00#2 then some (.paddsUh (w.extractLsb' 0 4) (w.extractLsb' 25 4) (w.extractLsb' 16 4))
    else if w.extractLsb' 4 2 = 0b01#2 then some (.psubsUh (w.extractLsb' 0 4) (w.extractLsb' 25 4) (w.extractLsb' 16 4))
    else if w.extractLsb' 4 2 = 0b10#2 then some (.paddxsUh (w.extractLsb' 0 4) (w.extractLsb' 25 4) (w.extractLsb' 16 4))
    else if w.extractLsb' 4 2 = 0b11#2 then some (.psubxsUh (w.extractLsb' 0 4) (w.extractLsb' 25 4) (w.extractLsb' 16 4))
    else none
  else if w.extractLsb' 6 6 = 0b000011#6 then
    if w.extractLsb' 4 2 = 0b00#2 then some (.paddhSh (w.extractLsb' 0 4) (w.extractLsb' 25 4) (w.extractLsb' 16 4))
    else if w.extractLsb' 4 2 = 0b01#2 then some (.psubhSh (w.extractLsb' 0 4) (w.extractLsb' 25 4) (w.extractLsb' 16 4))
    else if w.extractLsb' 4 2 = 0b10#2 then some (.paddxhSh (w.extractLsb' 0 4) (w.extractLsb' 25 4) (w.extractLsb' 16 4))
    else if w.extractLsb' 4 2 = 0b11#2 then some (.psubxhSh (w.extractLsb' 0 4) (w.extractLsb' 25 4) (w.extractLsb' 16 4))
    else none
  else if w.extractLsb' 6 6 = 0b000100#6 then
    some (.paddsubH (w.extractLsb' 0 4) (w.extractLsb' 25 4) (w.extractLsb' 5 1) (w.extractLsb' 16 4) (w.extractLsb' 4 1))
  else if w.extractLsb' 6 6 = 0b000101#6 then
    some (.psubaddH (w.extractLsb' 0 4) (w.extractLsb' 25 4) (w.extractLsb' 5 1) (w.extractLsb' 16 4) (w.extractLsb' 4 1))
  else if w.extractLsb' 6 6 = 0b000110#6 then
    some (.paddsubsSh (w.extractLsb' 0 4) (w.extractLsb' 25 4) (w.extractLsb' 5 1) (w.extractLsb' 16 4) (w.extractLsb' 4 1))
  else if w.extractLsb' 6 6 = 0b000111#6 then
    some (.psubaddsSh (w.extractLsb' 0 4) (w.extractLsb' 25 4) (w.extractLsb' 5 1) (w.extractLsb' 16 4) (w.extractLsb' 4 1))
  else if w.extractLsb' 6 6 = 0b001000#6 then
    some (.paddsubsUh (w.extractLsb' 0 4) (w.extractLsb' 25 4) (w.extractLsb' 5 1) (w.extractLsb' 16 4) (w.extractLsb' 4 1))
  else if w.extractLsb' 6 6 = 0b001001#6 then
    some (.psubaddsUh (w.extractLsb' 0 4) (w.extractLsb' 25 4) (w.extractLsb' 5 1) (w.extractLsb' 16 4) (w.extractLsb' 4 1))
  else if w.extractLsb' 6 6 = 0b001010#6 then
    some (.paddsubhSh (w.extractLsb' 0 4) (w.extractLsb' 25 4) (w.extractLsb' 5 1) (w.extractLsb' 16 4) (w.extractLsb' 4 1))
  else if w.extractLsb' 6 6 = 0b001011#6 then
    some (.psubaddhSh (w.extractLsb' 0 4) (w.extractLsb' 25 4) (w.extractLsb' 5 1) (w.extractLsb' 16 4) (w.extractLsb' 4 1))
  else if w.extractLsb' 6 6 = 0b001100#6 then
    if w.extractLsb' 4 2 = 0b00#2 then some (.paddB (w.extractLsb' 0 4) (w.extractLsb' 25 4) (w.extractLsb' 16 4))
    else if w.extractLsb' 4 2 = 0b01#2 then some (.psubB (w.extractLsb' 0 4) (w.extractLsb' 25 4) (w.extractLsb' 16 4))
    else if w.extractLsb' 4 2 = 0b10#2 then some (.paddsSb (w.extractLsb' 0 4) (w.extractLsb' 25 4) (w.extractLsb' 16 4))
    else if w.extractLsb' 4 2 = 0b11#2 then some (.psubsSb (w.extractLsb' 0 4) (w.extractLsb' 25 4) (w.extractLsb' 16 4))
    else none
  else if w.extractLsb' 6 6 = 0b001101#6 then
    if w.extractLsb' 4 2 = 0b00#2 then some (.paddsUb (w.extractLsb' 0 4) (w.extractLsb' 25 4) (w.extractLsb' 16 4))
    else if w.extractLsb' 4 2 = 0b01#2 then some (.psubsUb (w.extractLsb' 0 4) (w.extractLsb' 25 4) (w.extractLsb' 16 4))
    else if w.extractLsb' 4 2 = 0b10#2 then some (.paddhUb (w.extractLsb' 0 4) (w.extractLsb' 25 4) (w.extractLsb' 16 4))
    else if w.extractLsb' 4 2 = 0b11#2 then some (.psubhUb (w.extractLsb' 0 4) (w.extractLsb' 25 4) (w.extractLsb' 16 4))
    else none
  else if w.extractLsb' 6 6 = 0b001110#6 then
    if w.extractLsb' 4 2 = 0b00#2 then some (.pmaxUb (w.extractLsb' 0 4) (w.extractLsb' 25 4) (w.extractLsb' 16 4))
    else if w.extractLsb' 4 2 = 0b01#2 then some (.pmaxSh (w.extractLsb' 0 4) (w.extractLsb' 25 4) (w.extractLsb' 16 4))
    else if w.extractLsb' 4 2 = 0b10#2 then some (.pminUb (w.extractLsb' 0 4) (w.extractLsb' 25 4) (w.extractLsb' 16 4))
    else if w.extractLsb' 4 2 = 0b11#2 then some (.pminSh (w.extractLsb' 0 4) (w.extractLsb' 25 4) (w.extractLsb' 16 4))
    else none
  else if w.extractLsb' 6 6 = 0b001111#6 then
    if w.extractLsb' 4 2 = 0b00#2 then some (.pavgUb (w.extractLsb' 0 4) (w.extractLsb' 25 4) (w.extractLsb' 16 4))
    else if w.extractLsb' 4 2 = 0b01#2 then some (.pavgSh (w.extractLsb' 0 4) (w.extractLsb' 25 4) (w.extractLsb' 16 4))
    else if w.extractLsb' 4 2 = 0b10#2 then
      if w.extractLsb' 25 4 = 0b0000#4 then some (.pabsSb (w.extractLsb' 0 4) (w.extractLsb' 16 4))
      else none
    else if w.extractLsb' 4 2 = 0b11#2 then
      if w.extractLsb' 25 4 = 0b0000#4 then some (.pabsSh (w.extractLsb' 0 4) (w.extractLsb' 16 4))
      else none
    else none
  else if w.extractLsb' 6 6 = 0b010000#6 then
    if w.extractLsb' 4 2 = 0b00#2 then some (.psad (w.extractLsb' 0 4) (w.extractLsb' 25 4) (w.extractLsb' 16 4))
    else if w.extractLsb' 4 2 = 0b01#2 then
      if w.extractLsb' 19 1 = 0b0#1 then some (.pasrB (w.extractLsb' 0 4) (w.extractLsb' 25 4) (w.extractLsb' 16 3))
      else none
    else if w.extractLsb' 4 2 = 0b10#2 then
      if w.extractLsb' 19 1 = 0b0#1 then some (.plslB (w.extractLsb' 0 4) (w.extractLsb' 25 4) (w.extractLsb' 16 3))
      else none
    else if w.extractLsb' 4 2 = 0b11#2 then
      if w.extractLsb' 19 1 = 0b0#1 then some (.plsrB (w.extractLsb' 0 4) (w.extractLsb' 25 4) (w.extractLsb' 16 3))
      else none
    else none
  else if w.extractLsb' 6 6 = 0b010001#6 then
    if w.extractLsb' 4 2 = 0b00#2 then some (.pasrH (w.extractLsb' 0 4) (w.extractLsb' 25 4) (w.extractLsb' 16 4))
    else if w.extractLsb' 4 2 = 0b01#2 then some (.plslH (w.extractLsb' 0 4) (w.extractLsb' 25 4) (w.extractLsb' 16 4))
    else if w.extractLsb' 4 2 = 0b10#2 then some (.plsrH (w.extractLsb' 0 4) (w.extractLsb' 25 4) (w.extractLsb' 16 4))
    else if w.extractLsb' 4 2 = 0b11#2 then some (.packwSh (w.extractLsb' 0 4) (w.extractLsb' 25 4) (w.extractLsb' 16 4))
    else none
  else if w.extractLsb' 6 6 = 0b010010#6 then
    if w.extractLsb' 5 1 = 0b0#1 then
      if w.extractLsb' 16 4 = 0b0000#4 then some (.punpckubH (w.extractLsb' 0 4) (w.extractLsb' 25 4) (w.extractLsb' 4 1))
      else none
    else if w.extractLsb' 5 1 = 0b1#1 then
      if w.extractLsb' 16 4 = 0b0000#4 then some (.punpcksbH (w.extractLsb' 0 4) (w.extractLsb' 25 4) (w.extractLsb' 4 1))
      else none
    else none
  else if w.extractLsb' 6 6 = 0b010011#6 then
    if w.extractLsb' 4 2 = 0b00#2 then some (.packshUb (w.extractLsb' 0 4) (w.extractLsb' 25 4) (w.extractLsb' 16 4))
    else if w.extractLsb' 4 2 = 0b01#2 then some (.packshSb (w.extractLsb' 0 4) (w.extractLsb' 25 4) (w.extractLsb' 16 4))
    else none
  else none

/-- The three-register group: bits 24:20 = 00000 (R390, R405). -/
def decodeWord00000 (w : Word) : Option Instr :=
  if w.extractLsb' 12 4 = 0b0000#4 then decodeWord00000x0000 w
  else if w.extractLsb' 12 4 = 0b0001#4 then decodeWord00000x0001 w
  else if w.extractLsb' 12 4 = 0b0010#4 then decodeWord00000x0010 w
  else none

/-- The extended instructions with bits 24:20 = 00001 (R405). -/
def decodeWord00001 (w : Word) : Option Instr :=
  if w.extractLsb' 26 3 = 0b000#3 then some (.andl (w.extractLsb' 16 4) (w.extractLsb' 25 1) (w.extractLsb' 0 16))
  else if w.extractLsb' 26 3 = 0b001#3 then some (.andh (w.extractLsb' 16 4) (w.extractLsb' 25 1) (w.extractLsb' 0 16))
  else if w.extractLsb' 26 3 = 0b010#3 then
    if w.extractLsb' 25 1 = 0b0#1 then some (.orl (w.extractLsb' 16 4) (w.extractLsb' 0 16))
    else if w.extractLsb' 25 1 = 0b1#1 then some (.orh (w.extractLsb' 16 4) (w.extractLsb' 0 16))
    else none
  else if w.extractLsb' 26 3 = 0b011#3 then
    if w.extractLsb' 25 1 = 0b0#1 then some (.eorl (w.extractLsb' 16 4) (w.extractLsb' 0 16))
    else if w.extractLsb' 25 1 = 0b1#1 then some (.eorh (w.extractLsb' 16 4) (w.extractLsb' 0 16))
    else none
  else if w.extractLsb' 26 3 = 0b100#3 then
    if w.extractLsb' 25 1 = 0b0#1 then some (.mcall (w.extractLsb' 16 4) (w.extractLsb' 0 16))
    else if w.extractLsb' 25 1 = 0b1#1 then some (.pref (w.extractLsb' 16 4) (w.extractLsb' 0 16))
    else none
  else if w.extractLsb' 26 3 = 0b101#3 then
    if w.extractLsb' 25 1 = 0b0#1 then some (.cache (w.extractLsb' 11 5) (w.extractLsb' 16 4) (w.extractLsb' 0 11))
    else if w.extractLsb' 25 1 = 0b1#1 then some (.memc (cat 5 (w.extractLsb' 16 4) (w.extractLsb' 15 1)) (w.extractLsb' 0 15))
    else none
  else if w.extractLsb' 26 3 = 0b110#3 then
    if w.extractLsb' 25 1 = 0b0#1 then some (.mems (cat 5 (w.extractLsb' 16 4) (w.extractLsb' 15 1)) (w.extractLsb' 0 15))
    else if w.extractLsb' 25 1 = 0b1#1 then some (.memt (cat 5 (w.extractLsb' 16 4) (w.extractLsb' 15 1)) (w.extractLsb' 0 15))
    else none
  else if w.extractLsb' 26 3 = 0b111#3 then
    if w.extractLsb' 25 1 = 0b0#1 then some (.movh (w.extractLsb' 16 4) (w.extractLsb' 0 16))
    else none
  else none

/-- The extended instructions with bits 24:20 = 01100 (R405). -/
def decodeWord01100 (w : Word) : Option Instr :=
  some (.sub (.formV (w.extractLsb' 16 4) (w.extractLsb' 25 4) (w.extractLsb' 0 16)))

/-- The extended instructions with bits 24:20 = 01101 (R405). -/
def decodeWord01101 (w : Word) : Option Instr :=
  some (.satsubW (.formII (w.extractLsb' 16 4) (w.extractLsb' 25 4) (w.extractLsb' 0 16)))

/-- The extended instructions with bits 24:20 = 01110 (R405). -/
def decodeWord01110 (w : Word) : Option Instr :=
  if w.extractLsb' 16 1 = 0b0#1 then some (.ldD (.formIV (cat 4 (w.extractLsb' 17 3) 0b0#1) (w.extractLsb' 25 4) (w.extractLsb' 0 16)))
  else if w.extractLsb' 16 1 = 0b1#1 then some (.stD (.formIV (w.extractLsb' 25 4) (cat 4 (w.extractLsb' 17 3) 0b0#1) (w.extractLsb' 0 16)))
  else none

/-- The extended instructions with bits 24:20 = 01111 (R405). -/
def decodeWord01111 (w : Word) : Option Instr :=
  some (.ldW (.formIV (w.extractLsb' 16 4) (w.extractLsb' 25 4) (w.extractLsb' 0 16)))

/-- The extended instructions with bits 24:20 = 10000 (R405). -/
def decodeWord10000 (w : Word) : Option Instr :=
  some (.ldSh (.formIV (w.extractLsb' 16 4) (w.extractLsb' 25 4) (w.extractLsb' 0 16)))

/-- The extended instructions with bits 24:20 = 10001 (R405). -/
def decodeWord10001 (w : Word) : Option Instr :=
  some (.ldUh (.formIV (w.extractLsb' 16 4) (w.extractLsb' 25 4) (w.extractLsb' 0 16)))

/-- The extended instructions with bits 24:20 = 10010 (R405). -/
def decodeWord10010 (w : Word) : Option Instr :=
  some (.ldSb (.formI (w.extractLsb' 16 4) (w.extractLsb' 25 4) (w.extractLsb' 0 16)))

/-- The extended instructions with bits 24:20 = 10011 (R405). -/
def decodeWord10011 (w : Word) : Option Instr :=
  some (.ldUb (.formIV (w.extractLsb' 16 4) (w.extractLsb' 25 4) (w.extractLsb' 0 16)))

/-- The extended instructions with bits 24:20 = 10100 (R405). -/
def decodeWord10100 (w : Word) : Option Instr :=
  some (.stW (.formIV (w.extractLsb' 25 4) (w.extractLsb' 16 4) (w.extractLsb' 0 16)))

/-- The extended instructions with bits 24:20 = 10101 (R405). -/
def decodeWord10101 (w : Word) : Option Instr :=
  some (.stH (.formIV (w.extractLsb' 25 4) (w.extractLsb' 16 4) (w.extractLsb' 0 16)))

/-- The extended instructions with bits 24:20 = 10110 (R405). -/
def decodeWord10110 (w : Word) : Option Instr :=
  some (.stB (.formIV (w.extractLsb' 25 4) (w.extractLsb' 16 4) (w.extractLsb' 0 16)))

/-- The extended instructions with bits 24:20 = 10111 (R405). -/
def decodeWord10111 (w : Word) : Option Instr :=
  some (.stcond (w.extractLsb' 25 4) (w.extractLsb' 16 4) (w.extractLsb' 0 16))

/-- The extended instructions with bits 24:20 = 11010 (R405). -/
def decodeWord11010 (w : Word) : Option Instr :=
  if w.extractLsb' 27 2 = 0b00#2 then
    some (.cop (w.extractLsb' 13 3) (cat 7 (w.extractLsb' 25 2) (cat 5 (w.extractLsb' 16 4) (w.extractLsb' 12 1))) (w.extractLsb' 8 4) (w.extractLsb' 4 4) (w.extractLsb' 0 4))
  else if w.extractLsb' 27 2 = 0b01#2 then
    if w.extractLsb' 25 2 = 0b00#2 then
      if w.extractLsb' 12 1 = 0b0#1 then some (.ldcW (.formI (w.extractLsb' 13 3) (w.extractLsb' 8 4) (w.extractLsb' 16 4) (w.extractLsb' 0 8)))
      else if w.extractLsb' 12 1 = 0b1#1 then
        if w.extractLsb' 8 1 = 0b0#1 then
          some (.ldcD (.formI (w.extractLsb' 13 3) (cat 4 (w.extractLsb' 9 3) 0b0#1) (w.extractLsb' 16 4) (w.extractLsb' 0 8)))
        else none
      else none
    else if w.extractLsb' 25 2 = 0b01#2 then
      if w.extractLsb' 12 1 = 0b0#1 then some (.stcW (.formI (w.extractLsb' 13 3) (w.extractLsb' 16 4) (w.extractLsb' 8 4) (w.extractLsb' 0 8)))
      else if w.extractLsb' 12 1 = 0b1#1 then
        if w.extractLsb' 8 1 = 0b0#1 then
          some (.stcD (.formI (w.extractLsb' 13 3) (w.extractLsb' 16 4) (cat 4 (w.extractLsb' 9 3) 0b0#1) (w.extractLsb' 0 8)))
        else none
      else none
    else if w.extractLsb' 25 2 = 0b10#2 then
      if w.extractLsb' 8 4 = 0b0000#4 then some (.ldcmW (.formLow (w.extractLsb' 13 3) (w.extractLsb' 16 4) (w.extractLsb' 12 1) (w.extractLsb' 0 8)))
      else if w.extractLsb' 8 4 = 0b0001#4 then some (.ldcmW (.formHigh (w.extractLsb' 13 3) (w.extractLsb' 16 4) (w.extractLsb' 12 1) (w.extractLsb' 0 8)))
      else if w.extractLsb' 8 4 = 0b0010#4 then some (.stcmW (.formLow (w.extractLsb' 13 3) (w.extractLsb' 16 4) (w.extractLsb' 12 1) (w.extractLsb' 0 8)))
      else if w.extractLsb' 8 4 = 0b0011#4 then some (.stcmW (.formHigh (w.extractLsb' 13 3) (w.extractLsb' 16 4) (w.extractLsb' 12 1) (w.extractLsb' 0 8)))
      else if w.extractLsb' 8 4 = 0b0100#4 then some (.ldcmD (w.extractLsb' 13 3) (w.extractLsb' 16 4) (w.extractLsb' 12 1) (w.extractLsb' 0 8))
      else if w.extractLsb' 8 4 = 0b0101#4 then some (.stcmD (w.extractLsb' 13 3) (w.extractLsb' 16 4) (w.extractLsb' 12 1) (w.extractLsb' 0 8))
      else none
    else if w.extractLsb' 25 2 = 0b11#2 then
      if w.extractLsb' 6 2 = 0b00#2 then
        if w.extractLsb' 12 1 = 0b0#1 then
          if w.extractLsb' 0 6 = 0b000000#6 then some (.mvcrW (w.extractLsb' 13 3) (w.extractLsb' 16 4) (w.extractLsb' 8 4))
          else if w.extractLsb' 0 6 = 0b010000#6 then
            if w.extractLsb' 8 1 = 0b0#1 then
              if w.extractLsb' 16 1 = 0b0#1 then
                some (.mvcrD (w.extractLsb' 13 3) (cat 4 (w.extractLsb' 17 3) 0b0#1) (cat 4 (w.extractLsb' 9 3) 0b0#1))
              else none
            else none
          else if w.extractLsb' 0 6 = 0b100000#6 then some (.mvrcW (w.extractLsb' 13 3) (w.extractLsb' 8 4) (w.extractLsb' 16 4))
          else if w.extractLsb' 0 6 = 0b110000#6 then
            if w.extractLsb' 8 1 = 0b0#1 then
              if w.extractLsb' 16 1 = 0b0#1 then
                some (.mvrcD (w.extractLsb' 13 3) (cat 4 (w.extractLsb' 9 3) 0b0#1) (cat 4 (w.extractLsb' 17 3) 0b0#1))
              else none
            else none
          else none
        else if w.extractLsb' 12 1 = 0b1#1 then
          some (.ldcW (.formIII (w.extractLsb' 13 3) (w.extractLsb' 8 4) (w.extractLsb' 16 4) (w.extractLsb' 0 4) (w.extractLsb' 4 2)))
        else none
      else if w.extractLsb' 6 2 = 0b01#2 then
        if w.extractLsb' 12 1 = 0b0#1 then
          if w.extractLsb' 0 6 = 0b000000#6 then some (.ldcW (.formII (w.extractLsb' 13 3) (w.extractLsb' 8 4) (w.extractLsb' 16 4)))
          else if w.extractLsb' 0 6 = 0b010000#6 then
            if w.extractLsb' 8 1 = 0b0#1 then some (.ldcD (.formII (w.extractLsb' 13 3) (cat 4 (w.extractLsb' 9 3) 0b0#1) (w.extractLsb' 16 4)))
            else none
          else if w.extractLsb' 0 6 = 0b100000#6 then some (.stcW (.formII (w.extractLsb' 13 3) (w.extractLsb' 16 4) (w.extractLsb' 8 4)))
          else if w.extractLsb' 0 6 = 0b110000#6 then
            if w.extractLsb' 8 1 = 0b0#1 then some (.stcD (.formII (w.extractLsb' 13 3) (w.extractLsb' 16 4) (cat 4 (w.extractLsb' 9 3) 0b0#1)))
            else none
          else none
        else if w.extractLsb' 12 1 = 0b1#1 then
          if w.extractLsb' 8 1 = 0b0#1 then
            some (.ldcD (.formIII (w.extractLsb' 13 3) (cat 4 (w.extractLsb' 9 3) 0b0#1) (w.extractLsb' 16 4) (w.extractLsb' 0 4) (w.extractLsb' 4 2)))
          else none
        else none
      else if w.extractLsb' 6 2 = 0b10#2 then
        if w.extractLsb' 12 1 = 0b1#1 then
          some (.stcW (.formIII (w.extractLsb' 13 3) (w.extractLsb' 16 4) (w.extractLsb' 0 4) (w.extractLsb' 8 4) (w.extractLsb' 4 2)))
        else none
      else if w.extractLsb' 6 2 = 0b11#2 then
        if w.extractLsb' 8 1 = 0b0#1 then
          if w.extractLsb' 12 1 = 0b1#1 then
            some (.stcD (.formIII (w.extractLsb' 13 3) (w.extractLsb' 16 4) (w.extractLsb' 0 4) (cat 4 (w.extractLsb' 9 3) 0b0#1) (w.extractLsb' 4 2)))
          else none
        else none
      else none
    else none
  else if w.extractLsb' 27 2 = 0b10#2 then
    if w.extractLsb' 25 2 = 0b00#2 then some (.ldc0W (w.extractLsb' 8 4) (w.extractLsb' 16 4) (cat 12 (w.extractLsb' 12 4) (w.extractLsb' 0 8)))
    else if w.extractLsb' 25 2 = 0b01#2 then
      if w.extractLsb' 8 1 = 0b0#1 then
        some (.ldc0D (cat 4 (w.extractLsb' 9 3) 0b0#1) (w.extractLsb' 16 4) (cat 12 (w.extractLsb' 12 4) (w.extractLsb' 0 8)))
      else none
    else if w.extractLsb' 25 2 = 0b10#2 then some (.stc0W (w.extractLsb' 16 4) (w.extractLsb' 8 4) (cat 12 (w.extractLsb' 12 4) (w.extractLsb' 0 8)))
    else if w.extractLsb' 25 2 = 0b11#2 then
      if w.extractLsb' 8 1 = 0b0#1 then
        some (.stc0D (w.extractLsb' 16 4) (cat 4 (w.extractLsb' 9 3) 0b0#1) (cat 12 (w.extractLsb' 12 4) (w.extractLsb' 0 8)))
      else none
    else none
  else none

/-- The extended instructions with bits 24:20 = 11011 (R405). -/
def decodeWord11011 (w : Word) : Option Instr :=
  if w.extractLsb' 26 3 = 0b000#3 then
    if w.extractLsb' 25 1 = 0b0#1 then
      if w.extractLsb' 8 8 = 0b00000000#8 then some (.mfsr (w.extractLsb' 16 4) (w.extractLsb' 0 8))
      else none
    else if w.extractLsb' 25 1 = 0b1#1 then
      if w.extractLsb' 8 8 = 0b00000000#8 then some (.mtsr (w.extractLsb' 16 4) (w.extractLsb' 0 8))
      else none
    else none
  else if w.extractLsb' 26 3 = 0b001#3 then
    if w.extractLsb' 25 1 = 0b0#1 then
      if w.extractLsb' 8 8 = 0b00000000#8 then some (.mfdr (w.extractLsb' 16 4) (w.extractLsb' 0 8))
      else none
    else if w.extractLsb' 25 1 = 0b1#1 then
      if w.extractLsb' 8 8 = 0b00000000#8 then some (.mtdr (w.extractLsb' 16 4) (w.extractLsb' 0 8))
      else none
    else none
  else if w.extractLsb' 26 3 = 0b010#3 then
    if w.extractLsb' 25 1 = 0b0#1 then
      if w.extractLsb' 8 12 = 0b000000000000#12 then some (.sleep (w.extractLsb' 0 8))
      else none
    else if w.extractLsb' 25 1 = 0b1#1 then
      if w.extractLsb' 8 12 = 0b000000000000#12 then some (.sync (w.extractLsb' 0 8))
      else none
    else none
  else if w.extractLsb' 26 3 = 0b011#3 then
    if w.extractLsb' 25 1 = 0b0#1 then
      if w.extractLsb' 5 11 = 0b00000000000#11 then some (.bld (w.extractLsb' 16 4) (w.extractLsb' 0 5))
      else none
    else if w.extractLsb' 25 1 = 0b1#1 then
      if w.extractLsb' 5 11 = 0b00000000000#11 then some (.bst (w.extractLsb' 16 4) (w.extractLsb' 0 5))
      else none
    else none
  else if w.extractLsb' 26 3 = 0b100#3 then
    if w.extractLsb' 10 6 = 0b000000#6 then
      if w.extractLsb' 25 1 = 0b0#1 then some (.sats (w.extractLsb' 16 4) (w.extractLsb' 0 5) (w.extractLsb' 5 5))
      else if w.extractLsb' 25 1 = 0b1#1 then some (.satrnds (w.extractLsb' 16 4) (w.extractLsb' 0 5) (w.extractLsb' 5 5))
      else none
    else if w.extractLsb' 10 6 = 0b000001#6 then
      if w.extractLsb' 25 1 = 0b0#1 then some (.satu (w.extractLsb' 16 4) (w.extractLsb' 0 5) (w.extractLsb' 5 5))
      else if w.extractLsb' 25 1 = 0b1#1 then some (.satrndu (w.extractLsb' 16 4) (w.extractLsb' 0 5) (w.extractLsb' 5 5))
      else none
    else none
  else if w.extractLsb' 26 3 = 0b101#3 then
    if w.extractLsb' 12 4 = 0b0000#4 then some (.subCond (.formI (w.extractLsb' 8 4) (w.extractLsb' 16 4) (w.extractLsb' 25 1) (w.extractLsb' 0 8)))
    else none
  else if w.extractLsb' 26 3 = 0b110#3 then
    if w.extractLsb' 25 1 = 0b0#1 then
      if w.extractLsb' 12 4 = 0b0000#4 then some (.movCond (.formII (w.extractLsb' 8 4) (w.extractLsb' 16 4) (w.extractLsb' 0 8)))
      else none
    else if w.extractLsb' 25 1 = 0b1#1 then
      if w.extractLsb' 12 4 = 0b0000#4 then some (.rsubCond (w.extractLsb' 8 4) (w.extractLsb' 16 4) (w.extractLsb' 0 8))
      else none
    else none
  else none

/-- The extended instructions with bits 24:20 = 11100 (R405). -/
def decodeWord11100 (w : Word) : Option Instr :=
  if w.extractLsb' 26 3 = 0b000#3 then some (.ldm (w.extractLsb' 16 4) (w.extractLsb' 25 1) (w.extractLsb' 0 16))
  else if w.extractLsb' 26 3 = 0b001#3 then some (.ldmts (w.extractLsb' 16 4) (w.extractLsb' 25 1) (w.extractLsb' 0 16))
  else if w.extractLsb' 26 3 = 0b010#3 then some (.stm (w.extractLsb' 16 4) (w.extractLsb' 25 1) (w.extractLsb' 0 16))
  else if w.extractLsb' 26 3 = 0b011#3 then some (.stmts (w.extractLsb' 16 4) (w.extractLsb' 25 1) (w.extractLsb' 0 16))
  else none

/-- The extended instructions with bits 24:20 = 11101 (R405). -/
def decodeWord11101 (w : Word) : Option Instr :=
  if w.extractLsb' 14 2 = 0b00#2 then
    if w.extractLsb' 13 1 = 0b0#1 then some (.ldinsH (w.extractLsb' 16 4) (w.extractLsb' 25 4) (w.extractLsb' 12 1) (w.extractLsb' 0 12))
    else if w.extractLsb' 13 1 = 0b1#1 then
      if w.extractLsb' 12 1 = 0b0#1 then some (.ldswpSh (w.extractLsb' 16 4) (w.extractLsb' 25 4) (w.extractLsb' 0 12))
      else if w.extractLsb' 12 1 = 0b1#1 then some (.ldswpUh (w.extractLsb' 16 4) (w.extractLsb' 25 4) (w.extractLsb' 0 12))
      else none
    else none
  else if w.extractLsb' 14 2 = 0b01#2 then some (.ldinsB (w.extractLsb' 16 4) (w.extractLsb' 25 4) (w.extractLsb' 12 2) (w.extractLsb' 0 12))
  else if w.extractLsb' 14 2 = 0b10#2 then
    if w.extractLsb' 12 2 = 0b00#2 then some (.ldswpW (w.extractLsb' 16 4) (w.extractLsb' 25 4) (w.extractLsb' 0 12))
    else if w.extractLsb' 12 2 = 0b01#2 then some (.stswpH (w.extractLsb' 25 4) (w.extractLsb' 16 4) (w.extractLsb' 0 12))
    else if w.extractLsb' 12 2 = 0b10#2 then some (.stswpW (w.extractLsb' 25 4) (w.extractLsb' 16 4) (w.extractLsb' 0 12))
    else if w.extractLsb' 12 2 = 0b11#2 then
      if w.extractLsb' 10 2 = 0b00#2 then some (.bfexts (w.extractLsb' 25 4) (w.extractLsb' 16 4) (w.extractLsb' 5 5) (w.extractLsb' 0 5))
      else none
    else none
  else if w.extractLsb' 14 2 = 0b11#2 then
    if w.extractLsb' 12 2 = 0b00#2 then
      if w.extractLsb' 10 2 = 0b00#2 then some (.bfextu (w.extractLsb' 25 4) (w.extractLsb' 16 4) (w.extractLsb' 5 5) (w.extractLsb' 0 5))
      else none
    else if w.extractLsb' 12 2 = 0b01#2 then
      if w.extractLsb' 10 2 = 0b00#2 then some (.bfins (w.extractLsb' 25 4) (w.extractLsb' 16 4) (w.extractLsb' 5 5) (w.extractLsb' 0 5))
      else none
    else if w.extractLsb' 12 2 = 0b10#2 then
      if w.extractLsb' 4 4 = 0b0000#4 then some (.addCond (w.extractLsb' 8 4) (w.extractLsb' 0 4) (w.extractLsb' 25 4) (w.extractLsb' 16 4))
      else if w.extractLsb' 4 4 = 0b0001#4 then some (.subCond (.formII (w.extractLsb' 8 4) (w.extractLsb' 0 4) (w.extractLsb' 25 4) (w.extractLsb' 16 4)))
      else if w.extractLsb' 4 4 = 0b0010#4 then some (.andCond (w.extractLsb' 8 4) (w.extractLsb' 0 4) (w.extractLsb' 25 4) (w.extractLsb' 16 4))
      else if w.extractLsb' 4 4 = 0b0011#4 then some (.orCond (w.extractLsb' 8 4) (w.extractLsb' 0 4) (w.extractLsb' 25 4) (w.extractLsb' 16 4))
      else if w.extractLsb' 4 4 = 0b0100#4 then some (.eorCond (w.extractLsb' 8 4) (w.extractLsb' 0 4) (w.extractLsb' 25 4) (w.extractLsb' 16 4))
      else none
    else none
  else none

/-- The extended instructions with bits 24:20 = 11110 (R405). -/
def decodeWord11110 (w : Word) : Option Instr :=
  if w.extractLsb' 14 2 = 0b00#2 then
    if w.extractLsb' 9 5 = 0b00000#5 then some (.and (.formII (w.extractLsb' 0 4) (w.extractLsb' 25 4) (w.extractLsb' 16 4) (w.extractLsb' 4 5)))
    else if w.extractLsb' 9 5 = 0b00001#5 then some (.and (.formIII (w.extractLsb' 0 4) (w.extractLsb' 25 4) (w.extractLsb' 16 4) (w.extractLsb' 4 5)))
    else if w.extractLsb' 9 5 = 0b01000#5 then some (.or (.formII (w.extractLsb' 0 4) (w.extractLsb' 25 4) (w.extractLsb' 16 4) (w.extractLsb' 4 5)))
    else if w.extractLsb' 9 5 = 0b01001#5 then some (.or (.formIII (w.extractLsb' 0 4) (w.extractLsb' 25 4) (w.extractLsb' 16 4) (w.extractLsb' 4 5)))
    else if w.extractLsb' 9 5 = 0b10000#5 then some (.eor (.formII (w.extractLsb' 0 4) (w.extractLsb' 25 4) (w.extractLsb' 16 4) (w.extractLsb' 4 5)))
    else if w.extractLsb' 9 5 = 0b10001#5 then some (.eor (.formIII (w.extractLsb' 0 4) (w.extractLsb' 25 4) (w.extractLsb' 16 4) (w.extractLsb' 4 5)))
    else none
  else if w.extractLsb' 14 2 = 0b10#2 then
    if w.extractLsb' 6 2 = 0b00#2 then
      some (.sthhW (.formII (w.extractLsb' 25 4) (w.extractLsb' 13 1) (w.extractLsb' 16 4) (w.extractLsb' 12 1) (w.extractLsb' 0 4) (w.extractLsb' 8 4) (w.extractLsb' 4 2)))
    else none
  else if w.extractLsb' 14 2 = 0b11#2 then
    some (.sthhW (.formI (w.extractLsb' 25 4) (w.extractLsb' 13 1) (w.extractLsb' 16 4) (w.extractLsb' 12 1) (w.extractLsb' 0 4) (w.extractLsb' 4 8)))
  else none

/-- The extended instructions with bits 24:20 = 11111 (R405). -/
def decodeWord11111 (w : Word) : Option Instr :=
  if w.extractLsb' 9 3 = 0b000#3 then some (.ldWCond (w.extractLsb' 12 4) (w.extractLsb' 16 4) (w.extractLsb' 25 4) (w.extractLsb' 0 9))
  else if w.extractLsb' 9 3 = 0b001#3 then some (.ldShCond (w.extractLsb' 12 4) (w.extractLsb' 16 4) (w.extractLsb' 25 4) (w.extractLsb' 0 9))
  else if w.extractLsb' 9 3 = 0b010#3 then some (.ldUhCond (w.extractLsb' 12 4) (w.extractLsb' 16 4) (w.extractLsb' 25 4) (w.extractLsb' 0 9))
  else if w.extractLsb' 9 3 = 0b011#3 then some (.ldSbCond (w.extractLsb' 12 4) (w.extractLsb' 16 4) (w.extractLsb' 25 4) (w.extractLsb' 0 9))
  else if w.extractLsb' 9 3 = 0b100#3 then some (.ldUbCond (w.extractLsb' 12 4) (w.extractLsb' 16 4) (w.extractLsb' 25 4) (w.extractLsb' 0 9))
  else if w.extractLsb' 9 3 = 0b101#3 then some (.stWCond (w.extractLsb' 12 4) (w.extractLsb' 25 4) (w.extractLsb' 16 4) (w.extractLsb' 0 9))
  else if w.extractLsb' 9 3 = 0b110#3 then some (.stHCond (w.extractLsb' 12 4) (w.extractLsb' 25 4) (w.extractLsb' 16 4) (w.extractLsb' 0 9))
  else if w.extractLsb' 9 3 = 0b111#3 then some (.stBCond (w.extractLsb' 12 4) (w.extractLsb' 25 4) (w.extractLsb' 16 4) (w.extractLsb' 0 9))
  else none

/-- The E-K21 instructions, whose bit 20 belongs to the immediate (R391). -/
def decodeK21 (w : Word) : Option Instr :=
  if w.extractLsb' 21 4 = 0b0001#4 then
    some (.sub (.formIV (w.extractLsb' 16 4) (cat 21 (w.extractLsb' 25 4) (cat 17 (w.extractLsb' 20 1) (w.extractLsb' 0 16)))))
  else if w.extractLsb' 21 4 = 0b0010#4 then
    some (.cpW (.formIII (w.extractLsb' 16 4) (cat 21 (w.extractLsb' 25 4) (cat 17 (w.extractLsb' 20 1) (w.extractLsb' 0 16)))))
  else if w.extractLsb' 21 4 = 0b0011#4 then
    some (.mov (.formII (w.extractLsb' 16 4) (cat 21 (w.extractLsb' 25 4) (cat 17 (w.extractLsb' 20 1) (w.extractLsb' 0 16)))))
  else if w.extractLsb' 21 4 = 0b0100#4 then
    some (.brCond4 (w.extractLsb' 16 4) (cat 21 (w.extractLsb' 25 4) (cat 17 (w.extractLsb' 20 1) (w.extractLsb' 0 16))))
  else if w.extractLsb' 21 4 = 0b0101#4 then
    if w.extractLsb' 16 4 = 0b0000#4 then some (.rcall (.formII (cat 21 (w.extractLsb' 25 4) (cat 17 (w.extractLsb' 20 1) (w.extractLsb' 0 16)))))
    else none
  else none

/-- The extended instruction of a word, none where no row of R420 matches (R353, R405). -/
def decodeWord (w : Word) : Option Instr :=
  if w.extractLsb' 29 3 = 0b111#3 then
    if w.extractLsb' 21 4 = 0b0001#4 then decodeK21 w
    else if w.extractLsb' 21 4 = 0b0010#4 then decodeK21 w
    else if w.extractLsb' 21 4 = 0b0011#4 then decodeK21 w
    else if w.extractLsb' 21 4 = 0b0100#4 then decodeK21 w
    else if w.extractLsb' 21 4 = 0b0101#4 then decodeK21 w
    else if w.extractLsb' 20 5 = 0b00000#5 then decodeWord00000 w
    else if w.extractLsb' 20 5 = 0b00001#5 then decodeWord00001 w
    else if w.extractLsb' 20 5 = 0b01100#5 then decodeWord01100 w
    else if w.extractLsb' 20 5 = 0b01101#5 then decodeWord01101 w
    else if w.extractLsb' 20 5 = 0b01110#5 then decodeWord01110 w
    else if w.extractLsb' 20 5 = 0b01111#5 then decodeWord01111 w
    else if w.extractLsb' 20 5 = 0b10000#5 then decodeWord10000 w
    else if w.extractLsb' 20 5 = 0b10001#5 then decodeWord10001 w
    else if w.extractLsb' 20 5 = 0b10010#5 then decodeWord10010 w
    else if w.extractLsb' 20 5 = 0b10011#5 then decodeWord10011 w
    else if w.extractLsb' 20 5 = 0b10100#5 then decodeWord10100 w
    else if w.extractLsb' 20 5 = 0b10101#5 then decodeWord10101 w
    else if w.extractLsb' 20 5 = 0b10110#5 then decodeWord10110 w
    else if w.extractLsb' 20 5 = 0b10111#5 then decodeWord10111 w
    else if w.extractLsb' 20 5 = 0b11010#5 then decodeWord11010 w
    else if w.extractLsb' 20 5 = 0b11011#5 then decodeWord11011 w
    else if w.extractLsb' 20 5 = 0b11100#5 then decodeWord11100 w
    else if w.extractLsb' 20 5 = 0b11101#5 then decodeWord11101 w
    else if w.extractLsb' 20 5 = 0b11110#5 then decodeWord11110 w
    else if w.extractLsb' 20 5 = 0b11111#5 then decodeWord11111 w
    else none
  else none

/-- An instruction's code: one halfword (compact) or one word whose upper half lies at the lower address (extended) (R350, R351). -/
inductive Code where
  | half (h : Half)
  | word (w : Word)
deriving DecidableEq, Repr

/-- Bits 15:13 of the first halfword tell an extended instruction from a compact one (R352). -/
def isExtended (h : Half) : Bool := h.extractLsb' 13 3 == 0b111#3

/-- Why bytes are no instruction. -/
inductive DecodeReject where
  /-- A compact halfword that matches no row (R410). -/
  | unknownCompact
  /-- An extended word that matches no row (R410). -/
  | unknownExtended
  /-- The bytes end before the instruction does. -/
  | truncated
deriving DecidableEq, Repr

/-- The decoder's answer: the instruction and the bytes after it, or why there is none. -/
inductive Decoded where
  | ok (i : Instr) (rest : List Byte)
  | rejected (why : DecodeReject)
deriving DecidableEq, Repr

/-- Decoding bytes in the order of their addresses, big-endian (R211, R352, R353). -/
def decodeBytes : List Byte → Decoded
  | b0 :: b1 :: rest =>
    if isExtended (cat 16 b0 b1) then
      match rest with
      | b2 :: b3 :: rest' =>
        match decodeWord (cat 32 (cat 16 b0 b1) (cat 16 b2 b3)) with
        | some i => .ok i rest'
        | none => .rejected .unknownExtended
      | _ => .rejected .truncated
    else
      match decodeHalf (cat 16 b0 b1) with
      | some i => .ok i rest
      | none => .rejected .unknownCompact
  | _ => .rejected .truncated

/-- The bytes of a code in the order of their addresses (R351, R211). -/
def Code.bytes : Code → List Byte
  | .half h => [h.extractLsb' 8 8, h.extractLsb' 0 8]
  | .word w => [w.extractLsb' 24 8, w.extractLsb' 16 8, w.extractLsb' 8 8, w.extractLsb' 0 8]

/-- Decoding one code: what the machine does with the halfwords it has fetched (R352, R353). -/
def decodeCode : Code → Option Instr
  | .half h => if isExtended h then none else decodeHalf h
  | .word w => decodeWord w

/-- The code of an instruction, field by field from its row of R420. -/
def encodeCode : Instr → Code
  | .abs rd => .half (cat 16 0b010111000100#12 <| rd)
  | .acr rd => .half (cat 16 0b010111000000#12 <| rd)
  | .adc rd rx ry => .word (cat 32 0b111#3 <| cat 29 rx <| cat 25 0b00000#5 <| cat 20 ry <| cat 16 0b000000000100#12 <| rd)
  | .add (.formI rd rs) => .half (cat 16 0b000#3 <| cat 13 rs <| cat 9 0b00000#5 <| rd)
  | .add (.formII rd rx ry sa) => .word (cat 32 0b111#3 <| cat 29 rx <| cat 25 0b00000#5 <| cat 20 ry <| cat 16 0b0000000000#10 <| cat 6 sa <| rd)
  | .addCond c rd rx ry => .word (cat 32 0b111#3 <| cat 29 rx <| cat 25 0b11101#5 <| cat 20 ry <| cat 16 0b1110#4 <| cat 12 c <| cat 8 0b0000#4 <| rd)
  | .addabs rd rx ry => .word (cat 32 0b111#3 <| cat 29 rx <| cat 25 0b00000#5 <| cat 20 ry <| cat 16 0b000011100100#12 <| rd)
  | .cpB rd rs => .word (cat 32 0b111#3 <| cat 29 rs <| cat 25 0b00000#5 <| cat 20 rd <| 0b0001100000000000#16)
  | .cpH rd rs => .word (cat 32 0b111#3 <| cat 29 rs <| cat 25 0b00000#5 <| cat 20 rd <| 0b0001100100000000#16)
  | .cpW (.formI rd rs) => .half (cat 16 0b000#3 <| cat 13 rs <| cat 9 0b00011#5 <| rd)
  | .cpW (.formII rd imm) => .half (cat 16 0b010110#6 <| cat 10 imm <| rd)
  | .cpW (.formIII rd imm) => .word (cat 32 0b111#3 <| cat 29 (imm.extractLsb' 17 4) <| cat 25 0b0010#4 <| cat 21 (imm.extractLsb' 16 1) <| cat 20 rd <| (imm.extractLsb' 0 16))
  | .cpc (.formI rd rs) => .word (cat 32 0b111#3 <| cat 29 rs <| cat 25 0b00000#5 <| cat 20 rd <| 0b0001001100000000#16)
  | .cpc (.formII rd) => .half (cat 16 0b010111000010#12 <| rd)
  | .max rd rx ry => .word (cat 32 0b111#3 <| cat 29 rx <| cat 25 0b00000#5 <| cat 20 ry <| cat 16 0b000011000100#12 <| rd)
  | .min rd rx ry => .word (cat 32 0b111#3 <| cat 29 rx <| cat 25 0b00000#5 <| cat 20 ry <| cat 16 0b000011010100#12 <| rd)
  | .neg rd => .half (cat 16 0b010111000011#12 <| rd)
  | .rsub (.formI rd rs) => .half (cat 16 0b000#3 <| cat 13 rs <| cat 9 0b00010#5 <| rd)
  | .rsub (.formII rd rs imm) => .word (cat 32 0b111#3 <| cat 29 rs <| cat 25 0b00000#5 <| cat 20 rd <| cat 16 0b00010001#8 <| imm)
  | .rsubCond c rd imm => .word (cat 32 0b111110111011#12 <| cat 20 rd <| cat 16 0b0000#4 <| cat 12 c <| imm)
  | .sbc rd rx ry => .word (cat 32 0b111#3 <| cat 29 rx <| cat 25 0b00000#5 <| cat 20 ry <| cat 16 0b000000010100#12 <| rd)
  | .scr rd => .half (cat 16 0b010111000001#12 <| rd)
  | .sub (.formI rd rs) => .half (cat 16 0b000#3 <| cat 13 rs <| cat 9 0b00001#5 <| rd)
  | .sub (.formII rd rx ry sa) => .word (cat 32 0b111#3 <| cat 29 rx <| cat 25 0b00000#5 <| cat 20 ry <| cat 16 0b0000000100#10 <| cat 6 sa <| rd)
  | .sub (.formIII rd imm) => .half (cat 16 0b0010#4 <| cat 12 imm <| rd)
  | .sub (.formIV rd imm) => .word (cat 32 0b111#3 <| cat 29 (imm.extractLsb' 17 4) <| cat 25 0b0001#4 <| cat 21 (imm.extractLsb' 16 1) <| cat 20 rd <| (imm.extractLsb' 0 16))
  | .sub (.formV rd rs imm) => .word (cat 32 0b111#3 <| cat 29 rs <| cat 25 0b01100#5 <| cat 20 rd <| imm)
  | .subCond (.formI c rd f imm) => .word (cat 32 0b111101#6 <| cat 26 f <| cat 25 0b11011#5 <| cat 20 rd <| cat 16 0b0000#4 <| cat 12 c <| imm)
  | .subCond (.formII c rd rx ry) => .word (cat 32 0b111#3 <| cat 29 rx <| cat 25 0b11101#5 <| cat 20 ry <| cat 16 0b1110#4 <| cat 12 c <| cat 8 0b0001#4 <| rd)
  | .tnbz rd => .half (cat 16 0b010111001110#12 <| rd)
  | .divs rd rx ry => .word (cat 32 0b111#3 <| cat 29 rx <| cat 25 0b00000#5 <| cat 20 ry <| cat 16 0b000011000000#12 <| rd)
  | .divu rd rx ry => .word (cat 32 0b111#3 <| cat 29 rx <| cat 25 0b00000#5 <| cat 20 ry <| cat 16 0b000011010000#12 <| rd)
  | .mac rd rx ry => .word (cat 32 0b111#3 <| cat 29 rx <| cat 25 0b00000#5 <| cat 20 ry <| cat 16 0b000000110100#12 <| rd)
  | .macsD rd rx ry => .word (cat 32 0b111#3 <| cat 29 rx <| cat 25 0b00000#5 <| cat 20 ry <| cat 16 0b000001010100#12 <| rd)
  | .macuD rd rx ry => .word (cat 32 0b111#3 <| cat 29 rx <| cat 25 0b00000#5 <| cat 20 ry <| cat 16 0b000001110100#12 <| rd)
  | .mul (.formI rd rs) => .half (cat 16 0b101#3 <| cat 13 rs <| cat 9 0b10011#5 <| rd)
  | .mul (.formII rd rx ry) => .word (cat 32 0b111#3 <| cat 29 rx <| cat 25 0b00000#5 <| cat 20 ry <| cat 16 0b000000100100#12 <| rd)
  | .mul (.formIII rd rs imm) => .word (cat 32 0b111#3 <| cat 29 rs <| cat 25 0b00000#5 <| cat 20 rd <| cat 16 0b00010000#8 <| imm)
  | .mulsD rd rx ry => .word (cat 32 0b111#3 <| cat 29 rx <| cat 25 0b00000#5 <| cat 20 ry <| cat 16 0b000001000100#12 <| rd)
  | .muluD rd rx ry => .word (cat 32 0b111#3 <| cat 29 rx <| cat 25 0b00000#5 <| cat 20 ry <| cat 16 0b000001100100#12 <| rd)
  | .addhhW rd rx xp ry yp => .word (cat 32 0b111#3 <| cat 29 rx <| cat 25 0b00000#5 <| cat 20 ry <| cat 16 0b0000111000#10 <| cat 6 xp <| cat 5 yp <| rd)
  | .machhD rd rx xp ry yp => .word (cat 32 0b111#3 <| cat 29 rx <| cat 25 0b00000#5 <| cat 20 ry <| cat 16 0b0000010110#10 <| cat 6 xp <| cat 5 yp <| rd)
  | .machhW rd rx xp ry yp => .word (cat 32 0b111#3 <| cat 29 rx <| cat 25 0b00000#5 <| cat 20 ry <| cat 16 0b0000010010#10 <| cat 6 xp <| cat 5 yp <| rd)
  | .macwhD rd rx ry yp => .word (cat 32 0b111#3 <| cat 29 rx <| cat 25 0b00000#5 <| cat 20 ry <| cat 16 0b00001100100#11 <| cat 5 yp <| rd)
  | .mulhhW rd rx xp ry yp => .word (cat 32 0b111#3 <| cat 29 rx <| cat 25 0b00000#5 <| cat 20 ry <| cat 16 0b0000011110#10 <| cat 6 xp <| cat 5 yp <| rd)
  | .mulwhD rd rx ry yp => .word (cat 32 0b111#3 <| cat 29 rx <| cat 25 0b00000#5 <| cat 20 ry <| cat 16 0b00001101100#11 <| cat 5 yp <| rd)
  | .mulnhhW rd rx xp ry yp => .word (cat 32 0b111#3 <| cat 29 rx <| cat 25 0b00000#5 <| cat 20 ry <| cat 16 0b0000000110#10 <| cat 6 xp <| cat 5 yp <| rd)
  | .mulnwhD rd rx ry yp => .word (cat 32 0b111#3 <| cat 29 rx <| cat 25 0b00000#5 <| cat 20 ry <| cat 16 0b00000010100#11 <| cat 5 yp <| rd)
  | .sataddH rd rx ry => .word (cat 32 0b111#3 <| cat 29 rx <| cat 25 0b00000#5 <| cat 20 ry <| cat 16 0b000000101100#12 <| rd)
  | .sataddW rd rx ry => .word (cat 32 0b111#3 <| cat 29 rx <| cat 25 0b00000#5 <| cat 20 ry <| cat 16 0b000000001100#12 <| rd)
  | .satsubH rd rx ry => .word (cat 32 0b111#3 <| cat 29 rx <| cat 25 0b00000#5 <| cat 20 ry <| cat 16 0b000000111100#12 <| rd)
  | .satsubW (.formI rd rx ry) => .word (cat 32 0b111#3 <| cat 29 rx <| cat 25 0b00000#5 <| cat 20 ry <| cat 16 0b000000011100#12 <| rd)
  | .satsubW (.formII rd rs imm) => .word (cat 32 0b111#3 <| cat 29 rs <| cat 25 0b01101#5 <| cat 20 rd <| imm)
  | .satrnds rd sa bp => .word (cat 32 0b111100111011#12 <| cat 20 rd <| cat 16 0b000000#6 <| cat 10 bp <| sa)
  | .satrndu rd sa bp => .word (cat 32 0b111100111011#12 <| cat 20 rd <| cat 16 0b000001#6 <| cat 10 bp <| sa)
  | .sats rd sa bp => .word (cat 32 0b111100011011#12 <| cat 20 rd <| cat 16 0b000000#6 <| cat 10 bp <| sa)
  | .satu rd sa bp => .word (cat 32 0b111100011011#12 <| cat 20 rd <| cat 16 0b000001#6 <| cat 10 bp <| sa)
  | .subhhW rd rx xp ry yp => .word (cat 32 0b111#3 <| cat 29 rx <| cat 25 0b00000#5 <| cat 20 ry <| cat 16 0b0000111100#10 <| cat 6 xp <| cat 5 yp <| rd)
  | .mulsathhH rd rx xp ry yp => .word (cat 32 0b111#3 <| cat 29 rx <| cat 25 0b00000#5 <| cat 20 ry <| cat 16 0b0000100010#10 <| cat 6 xp <| cat 5 yp <| rd)
  | .mulsathhW rd rx xp ry yp => .word (cat 32 0b111#3 <| cat 29 rx <| cat 25 0b00000#5 <| cat 20 ry <| cat 16 0b0000100110#10 <| cat 6 xp <| cat 5 yp <| rd)
  | .mulsatrndhhH rd rx xp ry yp => .word (cat 32 0b111#3 <| cat 29 rx <| cat 25 0b00000#5 <| cat 20 ry <| cat 16 0b0000101010#10 <| cat 6 xp <| cat 5 yp <| rd)
  | .mulsatrndwhW rd rx ry yp => .word (cat 32 0b111#3 <| cat 29 rx <| cat 25 0b00000#5 <| cat 20 ry <| cat 16 0b00001011100#11 <| cat 5 yp <| rd)
  | .mulsatwhW rd rx ry yp => .word (cat 32 0b111#3 <| cat 29 rx <| cat 25 0b00000#5 <| cat 20 ry <| cat 16 0b00001110100#11 <| cat 5 yp <| rd)
  | .macsathhW rd rx xp ry yp => .word (cat 32 0b111#3 <| cat 29 rx <| cat 25 0b00000#5 <| cat 20 ry <| cat 16 0b0000011010#10 <| cat 6 xp <| cat 5 yp <| rd)
  | .and (.formI rd rs) => .half (cat 16 0b000#3 <| cat 13 rs <| cat 9 0b00110#5 <| rd)
  | .and (.formII rd rx ry sa) => .word (cat 32 0b111#3 <| cat 29 rx <| cat 25 0b11110#5 <| cat 20 ry <| cat 16 0b0000000#7 <| cat 9 sa <| rd)
  | .and (.formIII rd rx ry sa) => .word (cat 32 0b111#3 <| cat 29 rx <| cat 25 0b11110#5 <| cat 20 ry <| cat 16 0b0000001#7 <| cat 9 sa <| rd)
  | .andCond c rd rx ry => .word (cat 32 0b111#3 <| cat 29 rx <| cat 25 0b11101#5 <| cat 20 ry <| cat 16 0b1110#4 <| cat 12 c <| cat 8 0b0010#4 <| rd)
  | .eor (.formI rd rs) => .half (cat 16 0b000#3 <| cat 13 rs <| cat 9 0b00101#5 <| rd)
  | .eor (.formII rd rx ry sa) => .word (cat 32 0b111#3 <| cat 29 rx <| cat 25 0b11110#5 <| cat 20 ry <| cat 16 0b0010000#7 <| cat 9 sa <| rd)
  | .eor (.formIII rd rx ry sa) => .word (cat 32 0b111#3 <| cat 29 rx <| cat 25 0b11110#5 <| cat 20 ry <| cat 16 0b0010001#7 <| cat 9 sa <| rd)
  | .eorCond c rd rx ry => .word (cat 32 0b111#3 <| cat 29 rx <| cat 25 0b11101#5 <| cat 20 ry <| cat 16 0b1110#4 <| cat 12 c <| cat 8 0b0100#4 <| rd)
  | .or (.formI rd rs) => .half (cat 16 0b000#3 <| cat 13 rs <| cat 9 0b00100#5 <| rd)
  | .or (.formII rd rx ry sa) => .word (cat 32 0b111#3 <| cat 29 rx <| cat 25 0b11110#5 <| cat 20 ry <| cat 16 0b0001000#7 <| cat 9 sa <| rd)
  | .or (.formIII rd rx ry sa) => .word (cat 32 0b111#3 <| cat 29 rx <| cat 25 0b11110#5 <| cat 20 ry <| cat 16 0b0001001#7 <| cat 9 sa <| rd)
  | .orCond c rd rx ry => .word (cat 32 0b111#3 <| cat 29 rx <| cat 25 0b11101#5 <| cat 20 ry <| cat 16 0b1110#4 <| cat 12 c <| cat 8 0b0011#4 <| rd)
  | .andn rd rs => .half (cat 16 0b000#3 <| cat 13 rs <| cat 9 0b01000#5 <| rd)
  | .andh rd coh imm => .word (cat 32 0b111001#6 <| cat 26 coh <| cat 25 0b00001#5 <| cat 20 rd <| imm)
  | .andl rd coh imm => .word (cat 32 0b111000#6 <| cat 26 coh <| cat 25 0b00001#5 <| cat 20 rd <| imm)
  | .com rd => .half (cat 16 0b010111001101#12 <| rd)
  | .eorh rd imm => .word (cat 32 0b111011100001#12 <| cat 20 rd <| imm)
  | .eorl rd imm => .word (cat 32 0b111011000001#12 <| cat 20 rd <| imm)
  | .orh rd imm => .word (cat 32 0b111010100001#12 <| cat 20 rd <| imm)
  | .orl rd imm => .word (cat 32 0b111010000001#12 <| cat 20 rd <| imm)
  | .tst rd rs => .half (cat 16 0b000#3 <| cat 13 rs <| cat 9 0b00111#5 <| rd)
  | .bfexts rd rs bp wd => .word (cat 32 0b111#3 <| cat 29 rd <| cat 25 0b11101#5 <| cat 20 rs <| cat 16 0b101100#6 <| cat 10 bp <| wd)
  | .bfextu rd rs bp wd => .word (cat 32 0b111#3 <| cat 29 rd <| cat 25 0b11101#5 <| cat 20 rs <| cat 16 0b110000#6 <| cat 10 bp <| wd)
  | .bfins rd rs bp wd => .word (cat 32 0b111#3 <| cat 29 rd <| cat 25 0b11101#5 <| cat 20 rs <| cat 16 0b110100#6 <| cat 10 bp <| wd)
  | .bld rd bp => .word (cat 32 0b111011011011#12 <| cat 20 rd <| cat 16 0b00000000000#11 <| bp)
  | .brev rd => .half (cat 16 0b010111001001#12 <| rd)
  | .bst rd bp => .word (cat 32 0b111011111011#12 <| cat 20 rd <| cat 16 0b00000000000#11 <| bp)
  | .castsB rd => .half (cat 16 0b010111000110#12 <| rd)
  | .castsH rd => .half (cat 16 0b010111001000#12 <| rd)
  | .castuB rd => .half (cat 16 0b010111000101#12 <| rd)
  | .castuH rd => .half (cat 16 0b010111000111#12 <| rd)
  | .cbr rd bp => .half (cat 16 0b101#3 <| cat 13 (bp.extractLsb' 1 4) <| cat 9 0b1110#4 <| cat 5 (bp.extractLsb' 0 1) <| rd)
  | .clz rd rs => .word (cat 32 0b111#3 <| cat 29 rs <| cat 25 0b00000#5 <| cat 20 rd <| 0b0001001000000000#16)
  | .sbr rd bp => .half (cat 16 0b101#3 <| cat 13 (bp.extractLsb' 1 4) <| cat 9 0b1101#4 <| cat 5 (bp.extractLsb' 0 1) <| rd)
  | .swapB rd => .half (cat 16 0b010111001011#12 <| rd)
  | .swapBh rd => .half (cat 16 0b010111001100#12 <| rd)
  | .swapH rd => .half (cat 16 0b010111001010#12 <| rd)
  | .asr (.formI rd rx ry) => .word (cat 32 0b111#3 <| cat 29 rx <| cat 25 0b00000#5 <| cat 20 ry <| cat 16 0b000010000100#12 <| rd)
  | .asr (.formII rd sa) => .half (cat 16 0b101#3 <| cat 13 (sa.extractLsb' 1 4) <| cat 9 0b1010#4 <| cat 5 (sa.extractLsb' 0 1) <| rd)
  | .asr (.formIII rd rs sa) => .word (cat 32 0b111#3 <| cat 29 rs <| cat 25 0b00000#5 <| cat 20 rd <| cat 16 0b00010100000#11 <| sa)
  | .lsl (.formI rd rx ry) => .word (cat 32 0b111#3 <| cat 29 rx <| cat 25 0b00000#5 <| cat 20 ry <| cat 16 0b000010010100#12 <| rd)
  | .lsl (.formII rd sa) => .half (cat 16 0b101#3 <| cat 13 (sa.extractLsb' 1 4) <| cat 9 0b1011#4 <| cat 5 (sa.extractLsb' 0 1) <| rd)
  | .lsl (.formIII rd rs sa) => .word (cat 32 0b111#3 <| cat 29 rs <| cat 25 0b00000#5 <| cat 20 rd <| cat 16 0b00010101000#11 <| sa)
  | .lsr (.formI rd rx ry) => .word (cat 32 0b111#3 <| cat 29 rx <| cat 25 0b00000#5 <| cat 20 ry <| cat 16 0b000010100100#12 <| rd)
  | .lsr (.formII rd sa) => .half (cat 16 0b101#3 <| cat 13 (sa.extractLsb' 1 4) <| cat 9 0b1100#4 <| cat 5 (sa.extractLsb' 0 1) <| rd)
  | .lsr (.formIII rd rs sa) => .word (cat 32 0b111#3 <| cat 29 rs <| cat 25 0b00000#5 <| cat 20 rd <| cat 16 0b00010110000#11 <| sa)
  | .rol rd => .half (cat 16 0b010111001111#12 <| rd)
  | .ror rd => .half (cat 16 0b010111010000#12 <| rd)
  | .acall disp => .half (cat 16 0b1101#4 <| cat 12 disp <| 0b0000#4)
  | .brCond3 c disp => .half (cat 16 0b1100#4 <| cat 12 disp <| cat 4 0b0#1 <| c)
  | .brCond4 c disp => .word (cat 32 0b111#3 <| cat 29 (disp.extractLsb' 17 4) <| cat 25 0b0100#4 <| cat 21 (disp.extractLsb' 16 1) <| cat 20 c <| (disp.extractLsb' 0 16))
  | .icall rd => .half (cat 16 0b010111010001#12 <| rd)
  | .mcall rp disp => .word (cat 32 0b111100000001#12 <| cat 20 rp <| disp)
  | .rcall (.formI disp) => .half (cat 16 0b1100#4 <| cat 12 (disp.extractLsb' 0 8) <| cat 4 0b11#2 <| (disp.extractLsb' 8 2))
  | .rcall (.formII disp) => .word (cat 32 0b111#3 <| cat 29 (disp.extractLsb' 17 4) <| cat 25 0b0101#4 <| cat 21 (disp.extractLsb' 16 1) <| cat 20 0b0000#4 <| (disp.extractLsb' 0 16))
  | .rjmp disp => .half (cat 16 0b1100#4 <| cat 12 (disp.extractLsb' 0 8) <| cat 4 0b10#2 <| (disp.extractLsb' 8 2))
  | .retCond c rs => .half (cat 16 0b01011110#8 <| cat 8 c <| rs)
  | .mov (.formI rd imm) => .half (cat 16 0b0011#4 <| cat 12 imm <| rd)
  | .mov (.formII rd imm) => .word (cat 32 0b111#3 <| cat 29 (imm.extractLsb' 17 4) <| cat 25 0b0011#4 <| cat 21 (imm.extractLsb' 16 1) <| cat 20 rd <| (imm.extractLsb' 0 16))
  | .mov (.formIII rd rs) => .half (cat 16 0b000#3 <| cat 13 rs <| cat 9 0b01001#5 <| rd)
  | .movCond (.formI c rd rs) => .word (cat 32 0b111#3 <| cat 29 rs <| cat 25 0b00000#5 <| cat 20 rd <| cat 16 0b00010111#8 <| cat 8 c <| 0b0000#4)
  | .movCond (.formII c rd imm) => .word (cat 32 0b111110011011#12 <| cat 20 rd <| cat 16 0b0000#4 <| cat 12 c <| imm)
  | .movh rd imm => .word (cat 32 0b111111000001#12 <| cat 20 rd <| imm)
  | .ldUb (.formI rd rp) => .half (cat 16 0b000#3 <| cat 13 rp <| cat 9 0b10011#5 <| rd)
  | .ldUb (.formII rd rp) => .half (cat 16 0b000#3 <| cat 13 rp <| cat 9 0b10111#5 <| rd)
  | .ldUb (.formIII rd rp disp) => .half (cat 16 0b000#3 <| cat 13 rp <| cat 9 0b11#2 <| cat 7 disp <| rd)
  | .ldUb (.formIV rd rp disp) => .word (cat 32 0b111#3 <| cat 29 rp <| cat 25 0b10011#5 <| cat 20 rd <| disp)
  | .ldUb (.formV rd rb ri sa) => .word (cat 32 0b111#3 <| cat 29 rb <| cat 25 0b00000#5 <| cat 20 ri <| cat 16 0b0000011100#10 <| cat 6 sa <| rd)
  | .ldUbCond c rd rp disp => .word (cat 32 0b111#3 <| cat 29 rp <| cat 25 0b11111#5 <| cat 20 rd <| cat 16 c <| cat 12 0b100#3 <| disp)
  | .ldSb (.formI rd rp disp) => .word (cat 32 0b111#3 <| cat 29 rp <| cat 25 0b10010#5 <| cat 20 rd <| disp)
  | .ldSb (.formII rd rb ri sa) => .word (cat 32 0b111#3 <| cat 29 rb <| cat 25 0b00000#5 <| cat 20 ri <| cat 16 0b0000011000#10 <| cat 6 sa <| rd)
  | .ldSbCond c rd rp disp => .word (cat 32 0b111#3 <| cat 29 rp <| cat 25 0b11111#5 <| cat 20 rd <| cat 16 c <| cat 12 0b011#3 <| disp)
  | .ldUh (.formI rd rp) => .half (cat 16 0b000#3 <| cat 13 rp <| cat 9 0b10010#5 <| rd)
  | .ldUh (.formII rd rp) => .half (cat 16 0b000#3 <| cat 13 rp <| cat 9 0b10110#5 <| rd)
  | .ldUh (.formIII rd rp disp) => .half (cat 16 0b100#3 <| cat 13 rp <| cat 9 0b01#2 <| cat 7 disp <| rd)
  | .ldUh (.formIV rd rp disp) => .word (cat 32 0b111#3 <| cat 29 rp <| cat 25 0b10001#5 <| cat 20 rd <| disp)
  | .ldUh (.formV rd rb ri sa) => .word (cat 32 0b111#3 <| cat 29 rb <| cat 25 0b00000#5 <| cat 20 ri <| cat 16 0b0000010100#10 <| cat 6 sa <| rd)
  | .ldUhCond c rd rp disp => .word (cat 32 0b111#3 <| cat 29 rp <| cat 25 0b11111#5 <| cat 20 rd <| cat 16 c <| cat 12 0b010#3 <| disp)
  | .ldSh (.formI rd rp) => .half (cat 16 0b000#3 <| cat 13 rp <| cat 9 0b10001#5 <| rd)
  | .ldSh (.formII rd rp) => .half (cat 16 0b000#3 <| cat 13 rp <| cat 9 0b10101#5 <| rd)
  | .ldSh (.formIII rd rp disp) => .half (cat 16 0b100#3 <| cat 13 rp <| cat 9 0b00#2 <| cat 7 disp <| rd)
  | .ldSh (.formIV rd rp disp) => .word (cat 32 0b111#3 <| cat 29 rp <| cat 25 0b10000#5 <| cat 20 rd <| disp)
  | .ldSh (.formV rd rb ri sa) => .word (cat 32 0b111#3 <| cat 29 rb <| cat 25 0b00000#5 <| cat 20 ri <| cat 16 0b0000010000#10 <| cat 6 sa <| rd)
  | .ldShCond c rd rp disp => .word (cat 32 0b111#3 <| cat 29 rp <| cat 25 0b11111#5 <| cat 20 rd <| cat 16 c <| cat 12 0b001#3 <| disp)
  | .ldW (.formI rd rp) => .half (cat 16 0b000#3 <| cat 13 rp <| cat 9 0b10000#5 <| rd)
  | .ldW (.formII rd rp) => .half (cat 16 0b000#3 <| cat 13 rp <| cat 9 0b10100#5 <| rd)
  | .ldW (.formIII rd rp disp) => .half (cat 16 0b011#3 <| cat 13 rp <| cat 9 disp <| rd)
  | .ldW (.formIV rd rp disp) => .word (cat 32 0b111#3 <| cat 29 rp <| cat 25 0b01111#5 <| cat 20 rd <| disp)
  | .ldW (.formV rd rb ri sa) => .word (cat 32 0b111#3 <| cat 29 rb <| cat 25 0b00000#5 <| cat 20 ri <| cat 16 0b0000001100#10 <| cat 6 sa <| rd)
  | .ldW (.formVI rd xp yp rb ri) => .word (cat 32 0b111#3 <| cat 29 rb <| cat 25 0b00000#5 <| cat 20 ri <| cat 16 0b0000111110#10 <| cat 6 xp <| cat 5 yp <| rd)
  | .ldWCond c rd rp disp => .word (cat 32 0b111#3 <| cat 29 rp <| cat 25 0b11111#5 <| cat 20 rd <| cat 16 c <| cat 12 0b000#3 <| disp)
  | .ldD (.formI rd rp) => .half (cat 16 0b101#3 <| cat 13 rp <| cat 9 0b10000#5 <| cat 4 (rd.extractLsb' 1 3) <| 0b1#1)
  | .ldD (.formII rd rp) => .half (cat 16 0b101#3 <| cat 13 rp <| cat 9 0b10001#5 <| cat 4 (rd.extractLsb' 1 3) <| 0b0#1)
  | .ldD (.formIII rd rp) => .half (cat 16 0b101#3 <| cat 13 rp <| cat 9 0b10000#5 <| cat 4 (rd.extractLsb' 1 3) <| 0b0#1)
  | .ldD (.formIV rd rp disp) => .word (cat 32 0b111#3 <| cat 29 rp <| cat 25 0b01110#5 <| cat 20 (rd.extractLsb' 1 3) <| cat 17 0b0#1 <| disp)
  | .ldD (.formV rd rb ri sa) => .word (cat 32 0b111#3 <| cat 29 rb <| cat 25 0b00000#5 <| cat 20 ri <| cat 16 0b0000001000#10 <| cat 6 sa <| rd)
  | .ldinsB rd rp part disp => .word (cat 32 0b111#3 <| cat 29 rp <| cat 25 0b11101#5 <| cat 20 rd <| cat 16 0b01#2 <| cat 14 part <| disp)
  | .ldinsH rd rp part disp => .word (cat 32 0b111#3 <| cat 29 rp <| cat 25 0b11101#5 <| cat 20 rd <| cat 16 0b000#3 <| cat 13 part <| disp)
  | .ldswpSh rd rp disp => .word (cat 32 0b111#3 <| cat 29 rp <| cat 25 0b11101#5 <| cat 20 rd <| cat 16 0b0010#4 <| disp)
  | .ldswpUh rd rp disp => .word (cat 32 0b111#3 <| cat 29 rp <| cat 25 0b11101#5 <| cat 20 rd <| cat 16 0b0011#4 <| disp)
  | .ldswpW rd rp disp => .word (cat 32 0b111#3 <| cat 29 rp <| cat 25 0b11101#5 <| cat 20 rd <| cat 16 0b1000#4 <| disp)
  | .lddpc rd disp => .half (cat 16 0b01001#5 <| cat 11 disp <| rd)
  | .lddsp rd disp => .half (cat 16 0b01000#5 <| cat 11 disp <| rd)
  | .stB (.formI rp rs) => .half (cat 16 0b000#3 <| cat 13 rp <| cat 9 0b01100#5 <| rs)
  | .stB (.formII rp rs) => .half (cat 16 0b000#3 <| cat 13 rp <| cat 9 0b01111#5 <| rs)
  | .stB (.formIII rp rs disp) => .half (cat 16 0b101#3 <| cat 13 rp <| cat 9 0b01#2 <| cat 7 disp <| rs)
  | .stB (.formIV rp rs disp) => .word (cat 32 0b111#3 <| cat 29 rp <| cat 25 0b10110#5 <| cat 20 rs <| disp)
  | .stB (.formV rb ri rs sa) => .word (cat 32 0b111#3 <| cat 29 rb <| cat 25 0b00000#5 <| cat 20 ri <| cat 16 0b0000101100#10 <| cat 6 sa <| rs)
  | .stBCond c rp rs disp => .word (cat 32 0b111#3 <| cat 29 rp <| cat 25 0b11111#5 <| cat 20 rs <| cat 16 c <| cat 12 0b111#3 <| disp)
  | .stH (.formI rp rs) => .half (cat 16 0b000#3 <| cat 13 rp <| cat 9 0b01011#5 <| rs)
  | .stH (.formII rp rs) => .half (cat 16 0b000#3 <| cat 13 rp <| cat 9 0b01110#5 <| rs)
  | .stH (.formIII rp rs disp) => .half (cat 16 0b101#3 <| cat 13 rp <| cat 9 0b00#2 <| cat 7 disp <| rs)
  | .stH (.formIV rp rs disp) => .word (cat 32 0b111#3 <| cat 29 rp <| cat 25 0b10101#5 <| cat 20 rs <| disp)
  | .stH (.formV rb ri rs sa) => .word (cat 32 0b111#3 <| cat 29 rb <| cat 25 0b00000#5 <| cat 20 ri <| cat 16 0b0000101000#10 <| cat 6 sa <| rs)
  | .stHCond c rp rs disp => .word (cat 32 0b111#3 <| cat 29 rp <| cat 25 0b11111#5 <| cat 20 rs <| cat 16 c <| cat 12 0b110#3 <| disp)
  | .stW (.formI rp rs) => .half (cat 16 0b000#3 <| cat 13 rp <| cat 9 0b01010#5 <| rs)
  | .stW (.formII rp rs) => .half (cat 16 0b000#3 <| cat 13 rp <| cat 9 0b01101#5 <| rs)
  | .stW (.formIII rp rs disp) => .half (cat 16 0b100#3 <| cat 13 rp <| cat 9 0b1#1 <| cat 8 disp <| rs)
  | .stW (.formIV rp rs disp) => .word (cat 32 0b111#3 <| cat 29 rp <| cat 25 0b10100#5 <| cat 20 rs <| disp)
  | .stW (.formV rb ri rs sa) => .word (cat 32 0b111#3 <| cat 29 rb <| cat 25 0b00000#5 <| cat 20 ri <| cat 16 0b0000100100#10 <| cat 6 sa <| rs)
  | .stWCond c rp rs disp => .word (cat 32 0b111#3 <| cat 29 rp <| cat 25 0b11111#5 <| cat 20 rs <| cat 16 c <| cat 12 0b101#3 <| disp)
  | .stD (.formI rp rs) => .half (cat 16 0b101#3 <| cat 13 rp <| cat 9 0b10010#5 <| cat 4 (rs.extractLsb' 1 3) <| 0b0#1)
  | .stD (.formII rp rs) => .half (cat 16 0b101#3 <| cat 13 rp <| cat 9 0b10010#5 <| cat 4 (rs.extractLsb' 1 3) <| 0b1#1)
  | .stD (.formIII rp rs) => .half (cat 16 0b101#3 <| cat 13 rp <| cat 9 0b10001#5 <| cat 4 (rs.extractLsb' 1 3) <| 0b1#1)
  | .stD (.formIV rp rs disp) => .word (cat 32 0b111#3 <| cat 29 rp <| cat 25 0b01110#5 <| cat 20 (rs.extractLsb' 1 3) <| cat 17 0b1#1 <| disp)
  | .stD (.formV rb ri rs sa) => .word (cat 32 0b111#3 <| cat 29 rb <| cat 25 0b00000#5 <| cat 20 ri <| cat 16 0b0000100000#10 <| cat 6 sa <| rs)
  | .stcond rp rs disp => .word (cat 32 0b111#3 <| cat 29 rp <| cat 25 0b10111#5 <| cat 20 rs <| disp)
  | .stdsp rs disp => .half (cat 16 0b01010#5 <| cat 11 disp <| rs)
  | .sthhW (.formI rx xp ry yp rp disp) => .word (cat 32 0b111#3 <| cat 29 rx <| cat 25 0b11110#5 <| cat 20 ry <| cat 16 0b11#2 <| cat 14 xp <| cat 13 yp <| cat 12 disp <| rp)
  | .sthhW (.formII rx xp ry yp rb ri sa) => .word (cat 32 0b111#3 <| cat 29 rx <| cat 25 0b11110#5 <| cat 20 ry <| cat 16 0b10#2 <| cat 14 xp <| cat 13 yp <| cat 12 ri <| cat 8 0b00#2 <| cat 6 sa <| rb)
  | .stswpH rp rs disp => .word (cat 32 0b111#3 <| cat 29 rp <| cat 25 0b11101#5 <| cat 20 rs <| cat 16 0b1001#4 <| disp)
  | .stswpW rp rs disp => .word (cat 32 0b111#3 <| cat 29 rp <| cat 25 0b11101#5 <| cat 20 rs <| cat 16 0b1010#4 <| disp)
  | .pushm list => .half (cat 16 0b1101#4 <| cat 12 list <| 0b0001#4)
  | .popm k list => .half (cat 16 0b1101#4 <| cat 12 list <| cat 4 k <| 0b010#3)
  | .ldm rp wb list => .word (cat 32 0b111000#6 <| cat 26 wb <| cat 25 0b11100#5 <| cat 20 rp <| list)
  | .stm rp wb list => .word (cat 32 0b111010#6 <| cat 26 wb <| cat 25 0b11100#5 <| cat 20 rp <| list)
  | .ldmts rp wb list => .word (cat 32 0b111001#6 <| cat 26 wb <| cat 25 0b11100#5 <| cat 20 rp <| list)
  | .stmts rp wb list => .word (cat 32 0b111011#6 <| cat 26 wb <| cat 25 0b11100#5 <| cat 20 rp <| list)
  | .csrf bp => .half (cat 16 0b1101010#7 <| cat 9 bp <| 0b0011#4)
  | .csrfcz bp => .half (cat 16 0b1101000#7 <| cat 9 bp <| 0b0011#4)
  | .ssrf bp => .half (cat 16 0b1101001#7 <| cat 9 bp <| 0b0011#4)
  | .breakpoint => .half 0b1101011001110011#16
  | .frs => .half 0b1101011101000011#16
  | .cache op rp disp => .word (cat 32 0b111101000001#12 <| cat 20 rp <| cat 16 op <| disp)
  | .pref rp disp => .word (cat 32 0b111100100001#12 <| cat 20 rp <| disp)
  | .mfsr rd n => .word (cat 32 0b111000011011#12 <| cat 20 rd <| cat 16 0b00000000#8 <| n)
  | .mfdr rd n => .word (cat 32 0b111001011011#12 <| cat 20 rd <| cat 16 0b00000000#8 <| n)
  | .mtsr rs n => .word (cat 32 0b111000111011#12 <| cat 20 rs <| cat 16 0b00000000#8 <| n)
  | .mtdr rs n => .word (cat 32 0b111001111011#12 <| cat 20 rs <| cat 16 0b00000000#8 <| n)
  | .musfr rs => .half (cat 16 0b010111010011#12 <| rs)
  | .mustr rd => .half (cat 16 0b010111010010#12 <| rd)
  | .nop => .half 0b1101011100000011#16
  | .scall => .half 0b1101011100110011#16
  | .sscall => .half 0b1101011101010011#16
  | .rete => .half 0b1101011000000011#16
  | .rets => .half 0b1101011000010011#16
  | .retd => .half 0b1101011000100011#16
  | .sleep op => .word (cat 32 0b111010011011000000000000#24 <| op)
  | .retss => .half 0b1101011101100011#16
  | .srCond c rd => .half (cat 16 0b01011111#8 <| cat 8 c <| rd)
  | .sync op => .word (cat 32 0b111010111011000000000000#24 <| op)
  | .tlbr => .half 0b1101011001000011#16
  | .tlbs => .half 0b1101011001010011#16
  | .tlbw => .half 0b1101011001100011#16
  | .cop cp op crd crx cry => .word (cat 32 0b11100#5 <| cat 27 (op.extractLsb' 5 2) <| cat 25 0b11010#5 <| cat 20 (op.extractLsb' 1 4) <| cat 16 cp <| cat 13 (op.extractLsb' 0 1) <| cat 12 crd <| cat 8 crx <| cry)
  | .ldcD (.formI cp crd rp disp) => .word (cat 32 0b111010011010#12 <| cat 20 rp <| cat 16 cp <| cat 13 0b1#1 <| cat 12 (crd.extractLsb' 1 3) <| cat 9 0b0#1 <| disp)
  | .ldcD (.formII cp crd rp) => .word (cat 32 0b111011111010#12 <| cat 20 rp <| cat 16 cp <| cat 13 0b0#1 <| cat 12 (crd.extractLsb' 1 3) <| 0b001010000#9)
  | .ldcD (.formIII cp crd rb ri sa) => .word (cat 32 0b111011111010#12 <| cat 20 rb <| cat 16 cp <| cat 13 0b1#1 <| cat 12 (crd.extractLsb' 1 3) <| cat 9 0b001#3 <| cat 6 sa <| ri)
  | .ldcW (.formI cp crd rp disp) => .word (cat 32 0b111010011010#12 <| cat 20 rp <| cat 16 cp <| cat 13 0b0#1 <| cat 12 crd <| disp)
  | .ldcW (.formII cp crd rp) => .word (cat 32 0b111011111010#12 <| cat 20 rp <| cat 16 cp <| cat 13 0b0#1 <| cat 12 crd <| 0b01000000#8)
  | .ldcW (.formIII cp crd rb ri sa) => .word (cat 32 0b111011111010#12 <| cat 20 rb <| cat 16 cp <| cat 13 0b1#1 <| cat 12 crd <| cat 8 0b00#2 <| cat 6 sa <| ri)
  | .ldc0D crd rp disp => .word (cat 32 0b111100111010#12 <| cat 20 rp <| cat 16 (disp.extractLsb' 8 4) <| cat 12 (crd.extractLsb' 1 3) <| cat 9 0b0#1 <| (disp.extractLsb' 0 8))
  | .ldc0W crd rp disp => .word (cat 32 0b111100011010#12 <| cat 20 rp <| cat 16 (disp.extractLsb' 8 4) <| cat 12 crd <| (disp.extractLsb' 0 8))
  | .ldcmD cp rp wb list => .word (cat 32 0b111011011010#12 <| cat 20 rp <| cat 16 cp <| cat 13 wb <| cat 12 0b0100#4 <| list)
  | .ldcmW (.formHigh cp rp wb list) => .word (cat 32 0b111011011010#12 <| cat 20 rp <| cat 16 cp <| cat 13 wb <| cat 12 0b0001#4 <| list)
  | .ldcmW (.formLow cp rp wb list) => .word (cat 32 0b111011011010#12 <| cat 20 rp <| cat 16 cp <| cat 13 wb <| cat 12 0b0000#4 <| list)
  | .mvcrD cp rd crs => .word (cat 32 0b111011111010#12 <| cat 20 (rd.extractLsb' 1 3) <| cat 17 0b0#1 <| cat 16 cp <| cat 13 0b0#1 <| cat 12 (crs.extractLsb' 1 3) <| 0b000010000#9)
  | .mvcrW cp rd crs => .word (cat 32 0b111011111010#12 <| cat 20 rd <| cat 16 cp <| cat 13 0b0#1 <| cat 12 crs <| 0b00000000#8)
  | .mvrcD cp crd rs => .word (cat 32 0b111011111010#12 <| cat 20 (rs.extractLsb' 1 3) <| cat 17 0b0#1 <| cat 16 cp <| cat 13 0b0#1 <| cat 12 (crd.extractLsb' 1 3) <| 0b000110000#9)
  | .mvrcW cp crd rs => .word (cat 32 0b111011111010#12 <| cat 20 rs <| cat 16 cp <| cat 13 0b0#1 <| cat 12 crd <| 0b00100000#8)
  | .stcD (.formI cp rp crs disp) => .word (cat 32 0b111010111010#12 <| cat 20 rp <| cat 16 cp <| cat 13 0b1#1 <| cat 12 (crs.extractLsb' 1 3) <| cat 9 0b0#1 <| disp)
  | .stcD (.formII cp rp crs) => .word (cat 32 0b111011111010#12 <| cat 20 rp <| cat 16 cp <| cat 13 0b0#1 <| cat 12 (crs.extractLsb' 1 3) <| 0b001110000#9)
  | .stcD (.formIII cp rb ri crs sa) => .word (cat 32 0b111011111010#12 <| cat 20 rb <| cat 16 cp <| cat 13 0b1#1 <| cat 12 (crs.extractLsb' 1 3) <| cat 9 0b011#3 <| cat 6 sa <| ri)
  | .stcW (.formI cp rp crs disp) => .word (cat 32 0b111010111010#12 <| cat 20 rp <| cat 16 cp <| cat 13 0b0#1 <| cat 12 crs <| disp)
  | .stcW (.formII cp rp crs) => .word (cat 32 0b111011111010#12 <| cat 20 rp <| cat 16 cp <| cat 13 0b0#1 <| cat 12 crs <| 0b01100000#8)
  | .stcW (.formIII cp rb ri crs sa) => .word (cat 32 0b111011111010#12 <| cat 20 rb <| cat 16 cp <| cat 13 0b1#1 <| cat 12 crs <| cat 8 0b10#2 <| cat 6 sa <| ri)
  | .stc0D rp crs disp => .word (cat 32 0b111101111010#12 <| cat 20 rp <| cat 16 (disp.extractLsb' 8 4) <| cat 12 (crs.extractLsb' 1 3) <| cat 9 0b0#1 <| (disp.extractLsb' 0 8))
  | .stc0W rp crs disp => .word (cat 32 0b111101011010#12 <| cat 20 rp <| cat 16 (disp.extractLsb' 8 4) <| cat 12 crs <| (disp.extractLsb' 0 8))
  | .stcmD cp rp wb list => .word (cat 32 0b111011011010#12 <| cat 20 rp <| cat 16 cp <| cat 13 wb <| cat 12 0b0101#4 <| list)
  | .stcmW (.formHigh cp rp wb list) => .word (cat 32 0b111011011010#12 <| cat 20 rp <| cat 16 cp <| cat 13 wb <| cat 12 0b0011#4 <| list)
  | .stcmW (.formLow cp rp wb list) => .word (cat 32 0b111011011010#12 <| cat 20 rp <| cat 16 cp <| cat 13 wb <| cat 12 0b0010#4 <| list)
  | .incjosp imm => .half (cat 16 0b110101101#9 <| cat 7 imm <| 0b0011#4)
  | .popjc => .half 0b1101011100010011#16
  | .pushjc => .half 0b1101011100100011#16
  | .retj => .half 0b1101011000110011#16
  | .pabsSb rd rs => .word (cat 32 0b111000000000#12 <| cat 20 rs <| cat 16 0b001000111110#12 <| rd)
  | .pabsSh rd rs => .word (cat 32 0b111000000000#12 <| cat 20 rs <| cat 16 0b001000111111#12 <| rd)
  | .packshUb rd rx ry => .word (cat 32 0b111#3 <| cat 29 rx <| cat 25 0b00000#5 <| cat 20 ry <| cat 16 0b001001001100#12 <| rd)
  | .packshSb rd rx ry => .word (cat 32 0b111#3 <| cat 29 rx <| cat 25 0b00000#5 <| cat 20 ry <| cat 16 0b001001001101#12 <| rd)
  | .packwSh rd rx ry => .word (cat 32 0b111#3 <| cat 29 rx <| cat 25 0b00000#5 <| cat 20 ry <| cat 16 0b001001000111#12 <| rd)
  | .paddB rd rx ry => .word (cat 32 0b111#3 <| cat 29 rx <| cat 25 0b00000#5 <| cat 20 ry <| cat 16 0b001000110000#12 <| rd)
  | .paddH rd rx ry => .word (cat 32 0b111#3 <| cat 29 rx <| cat 25 0b00000#5 <| cat 20 ry <| cat 16 0b001000000000#12 <| rd)
  | .paddhUb rd rx ry => .word (cat 32 0b111#3 <| cat 29 rx <| cat 25 0b00000#5 <| cat 20 ry <| cat 16 0b001000110110#12 <| rd)
  | .paddhSh rd rx ry => .word (cat 32 0b111#3 <| cat 29 rx <| cat 25 0b00000#5 <| cat 20 ry <| cat 16 0b001000001100#12 <| rd)
  | .paddsUb rd rx ry => .word (cat 32 0b111#3 <| cat 29 rx <| cat 25 0b00000#5 <| cat 20 ry <| cat 16 0b001000110100#12 <| rd)
  | .paddsSb rd rx ry => .word (cat 32 0b111#3 <| cat 29 rx <| cat 25 0b00000#5 <| cat 20 ry <| cat 16 0b001000110010#12 <| rd)
  | .paddsUh rd rx ry => .word (cat 32 0b111#3 <| cat 29 rx <| cat 25 0b00000#5 <| cat 20 ry <| cat 16 0b001000001000#12 <| rd)
  | .paddsSh rd rx ry => .word (cat 32 0b111#3 <| cat 29 rx <| cat 25 0b00000#5 <| cat 20 ry <| cat 16 0b001000000100#12 <| rd)
  | .paddsubH rd rx xp ry yp => .word (cat 32 0b111#3 <| cat 29 rx <| cat 25 0b00000#5 <| cat 20 ry <| cat 16 0b0010000100#10 <| cat 6 xp <| cat 5 yp <| rd)
  | .paddsubhSh rd rx xp ry yp => .word (cat 32 0b111#3 <| cat 29 rx <| cat 25 0b00000#5 <| cat 20 ry <| cat 16 0b0010001010#10 <| cat 6 xp <| cat 5 yp <| rd)
  | .paddsubsUh rd rx xp ry yp => .word (cat 32 0b111#3 <| cat 29 rx <| cat 25 0b00000#5 <| cat 20 ry <| cat 16 0b0010001000#10 <| cat 6 xp <| cat 5 yp <| rd)
  | .paddsubsSh rd rx xp ry yp => .word (cat 32 0b111#3 <| cat 29 rx <| cat 25 0b00000#5 <| cat 20 ry <| cat 16 0b0010000110#10 <| cat 6 xp <| cat 5 yp <| rd)
  | .paddxH rd rx ry => .word (cat 32 0b111#3 <| cat 29 rx <| cat 25 0b00000#5 <| cat 20 ry <| cat 16 0b001000000010#12 <| rd)
  | .paddxhSh rd rx ry => .word (cat 32 0b111#3 <| cat 29 rx <| cat 25 0b00000#5 <| cat 20 ry <| cat 16 0b001000001110#12 <| rd)
  | .paddxsUh rd rx ry => .word (cat 32 0b111#3 <| cat 29 rx <| cat 25 0b00000#5 <| cat 20 ry <| cat 16 0b001000001010#12 <| rd)
  | .paddxsSh rd rx ry => .word (cat 32 0b111#3 <| cat 29 rx <| cat 25 0b00000#5 <| cat 20 ry <| cat 16 0b001000000110#12 <| rd)
  | .pasrB rd rs sa => .word (cat 32 0b111#3 <| cat 29 rs <| cat 25 0b000000#6 <| cat 19 sa <| cat 16 0b001001000001#12 <| rd)
  | .pasrH rd rs sa => .word (cat 32 0b111#3 <| cat 29 rs <| cat 25 0b00000#5 <| cat 20 sa <| cat 16 0b001001000100#12 <| rd)
  | .pavgUb rd rx ry => .word (cat 32 0b111#3 <| cat 29 rx <| cat 25 0b00000#5 <| cat 20 ry <| cat 16 0b001000111100#12 <| rd)
  | .pavgSh rd rx ry => .word (cat 32 0b111#3 <| cat 29 rx <| cat 25 0b00000#5 <| cat 20 ry <| cat 16 0b001000111101#12 <| rd)
  | .plslB rd rs sa => .word (cat 32 0b111#3 <| cat 29 rs <| cat 25 0b000000#6 <| cat 19 sa <| cat 16 0b001001000010#12 <| rd)
  | .plslH rd rs sa => .word (cat 32 0b111#3 <| cat 29 rs <| cat 25 0b00000#5 <| cat 20 sa <| cat 16 0b001001000101#12 <| rd)
  | .plsrB rd rs sa => .word (cat 32 0b111#3 <| cat 29 rs <| cat 25 0b000000#6 <| cat 19 sa <| cat 16 0b001001000011#12 <| rd)
  | .plsrH rd rs sa => .word (cat 32 0b111#3 <| cat 29 rs <| cat 25 0b00000#5 <| cat 20 sa <| cat 16 0b001001000110#12 <| rd)
  | .pmaxUb rd rx ry => .word (cat 32 0b111#3 <| cat 29 rx <| cat 25 0b00000#5 <| cat 20 ry <| cat 16 0b001000111000#12 <| rd)
  | .pmaxSh rd rx ry => .word (cat 32 0b111#3 <| cat 29 rx <| cat 25 0b00000#5 <| cat 20 ry <| cat 16 0b001000111001#12 <| rd)
  | .pminUb rd rx ry => .word (cat 32 0b111#3 <| cat 29 rx <| cat 25 0b00000#5 <| cat 20 ry <| cat 16 0b001000111010#12 <| rd)
  | .pminSh rd rx ry => .word (cat 32 0b111#3 <| cat 29 rx <| cat 25 0b00000#5 <| cat 20 ry <| cat 16 0b001000111011#12 <| rd)
  | .psad rd rx ry => .word (cat 32 0b111#3 <| cat 29 rx <| cat 25 0b00000#5 <| cat 20 ry <| cat 16 0b001001000000#12 <| rd)
  | .psubB rd rx ry => .word (cat 32 0b111#3 <| cat 29 rx <| cat 25 0b00000#5 <| cat 20 ry <| cat 16 0b001000110001#12 <| rd)
  | .psubH rd rx ry => .word (cat 32 0b111#3 <| cat 29 rx <| cat 25 0b00000#5 <| cat 20 ry <| cat 16 0b001000000001#12 <| rd)
  | .psubaddH rd rx xp ry yp => .word (cat 32 0b111#3 <| cat 29 rx <| cat 25 0b00000#5 <| cat 20 ry <| cat 16 0b0010000101#10 <| cat 6 xp <| cat 5 yp <| rd)
  | .psubaddhSh rd rx xp ry yp => .word (cat 32 0b111#3 <| cat 29 rx <| cat 25 0b00000#5 <| cat 20 ry <| cat 16 0b0010001011#10 <| cat 6 xp <| cat 5 yp <| rd)
  | .psubaddsUh rd rx xp ry yp => .word (cat 32 0b111#3 <| cat 29 rx <| cat 25 0b00000#5 <| cat 20 ry <| cat 16 0b0010001001#10 <| cat 6 xp <| cat 5 yp <| rd)
  | .psubaddsSh rd rx xp ry yp => .word (cat 32 0b111#3 <| cat 29 rx <| cat 25 0b00000#5 <| cat 20 ry <| cat 16 0b0010000111#10 <| cat 6 xp <| cat 5 yp <| rd)
  | .psubhUb rd rx ry => .word (cat 32 0b111#3 <| cat 29 rx <| cat 25 0b00000#5 <| cat 20 ry <| cat 16 0b001000110111#12 <| rd)
  | .psubhSh rd rx ry => .word (cat 32 0b111#3 <| cat 29 rx <| cat 25 0b00000#5 <| cat 20 ry <| cat 16 0b001000001101#12 <| rd)
  | .psubsUb rd rx ry => .word (cat 32 0b111#3 <| cat 29 rx <| cat 25 0b00000#5 <| cat 20 ry <| cat 16 0b001000110101#12 <| rd)
  | .psubsSb rd rx ry => .word (cat 32 0b111#3 <| cat 29 rx <| cat 25 0b00000#5 <| cat 20 ry <| cat 16 0b001000110011#12 <| rd)
  | .psubsUh rd rx ry => .word (cat 32 0b111#3 <| cat 29 rx <| cat 25 0b00000#5 <| cat 20 ry <| cat 16 0b001000001001#12 <| rd)
  | .psubsSh rd rx ry => .word (cat 32 0b111#3 <| cat 29 rx <| cat 25 0b00000#5 <| cat 20 ry <| cat 16 0b001000000101#12 <| rd)
  | .psubxH rd rx ry => .word (cat 32 0b111#3 <| cat 29 rx <| cat 25 0b00000#5 <| cat 20 ry <| cat 16 0b001000000011#12 <| rd)
  | .psubxhSh rd rx ry => .word (cat 32 0b111#3 <| cat 29 rx <| cat 25 0b00000#5 <| cat 20 ry <| cat 16 0b001000001111#12 <| rd)
  | .psubxsUh rd rx ry => .word (cat 32 0b111#3 <| cat 29 rx <| cat 25 0b00000#5 <| cat 20 ry <| cat 16 0b001000001011#12 <| rd)
  | .psubxsSh rd rx ry => .word (cat 32 0b111#3 <| cat 29 rx <| cat 25 0b00000#5 <| cat 20 ry <| cat 16 0b001000000111#12 <| rd)
  | .punpckubH rd rs k => .word (cat 32 0b111#3 <| cat 29 rs <| cat 25 0b00000000000100100100#20 <| cat 5 k <| rd)
  | .punpcksbH rd rs k => .word (cat 32 0b111#3 <| cat 29 rs <| cat 25 0b00000000000100100101#20 <| cat 5 k <| rd)
  | .memc bp imm => .word (cat 32 0b111101100001#12 <| cat 20 (bp.extractLsb' 1 4) <| cat 16 (bp.extractLsb' 0 1) <| imm)
  | .mems bp imm => .word (cat 32 0b111110000001#12 <| cat 20 (bp.extractLsb' 1 4) <| cat 16 (bp.extractLsb' 0 1) <| imm)
  | .memt bp imm => .word (cat 32 0b111110100001#12 <| cat 20 (bp.extractLsb' 1 4) <| cat 16 (bp.extractLsb' 0 1) <| imm)
  | .xchg rd rx ry => .word (cat 32 0b111#3 <| cat 29 rx <| cat 25 0b00000#5 <| cat 20 ry <| cat 16 0b000010110100#12 <| rd)

/-- The bytes of an instruction in the order of their addresses (R351). -/
def encode (i : Instr) : List Byte := (encodeCode i).bytes

/-- The length of an instruction in bytes (R350, R352). -/
def instrLength (i : Instr) : Nat := (encode i).length

/-- The code the opcode table's numbering of a row stands for: bit 0 is the least significant bit of the row, 16 bits for a compact row
and 32 for an extended one, whose upper half is the first halfword (R351). -/
def tableCode (nbits w : Nat) : Code :=
  if nbits ≤ 16 then .half (BitVec.ofNat 16 w) else .word (BitVec.ofNat 32 w)

/-- The instruction the decoder reads from an instruction whose bits are `w`, numbered as spec/opcode_table.json numbers them, laid out
in memory order with zero bytes after it. -/
def decodeTableWord (nbits w : Nat) : Option Instr :=
  match decodeBytes ((tableCode nbits w).bytes ++ [0#8, 0#8]) with
  | .ok i _ => some i
  | .rejected _ => none

end Sys2Proof
end

