-- ==== Sys2Proof/Config.lean ====
section
/-! DEFINITION. What an implementation fixes (the parameters of 93_implementation_defined.md section 3, as plain data that a state carries
and no step changes), and the free values: constants without a body, for what the spec leaves open. -/

namespace Sys2Proof

/-- The `n`-th free word: what a result or register holds where the spec says `any value` (93_implementation_defined.md section 1). Nothing is
known of it. DESIGN CHOICE of form, notes/assumptions/3.md. -/
opaque Config.freeWord : Nat → BitVec 32

/-- `COPROCESSOR(n)`: what coprocessor `cp` computes for operation `op` with destination number `crd`, from the values of CRx and CRy (R961). -/
opaque Config.copResult : (cp : BitVec 3) → (op : BitVec 7) → (crd : RegNo) → (x y : BitVec 32) → BitVec 32

/-- The flags Q, V, N, Z, C after that operation: "Coprocessor-specific" (R961), as bits 4 to 0, from the flags before it. -/
opaque Config.copFlags : (cp : BitVec 3) → (op : BitVec 7) → (crd : RegNo) → (x y : BitVec 32) → (flags : BitVec 5) → BitVec 5

/-- `SECURE_MEMORY(pa)`: the partition as SS_ADRF, SS_ADRR, SS_ADR0 and SS_ADR1 set it (R1170). -/
opaque Config.secureMemory : (adrf adrr adr0 adr1 pa : BitVec 32) → Bool

/-- `IMPL_SYSREG(n)`, 192 to 255: what a write of `new` leaves in a register that holds `old` (R131). -/
opaque Config.implStored : (n : BitVec 8) → (old new : BitVec 32) → BitVec 32

/-- `CPUCR_BEHAVIOUR`, where it is not plain storage: what a write of `new` leaves in CPUCR (R134). -/
opaque Config.cpucrStored : (old new : BitVec 32) → BitVec 32

/-- The same, in revision 3: whether CPUCR as it stands lets a COMPARE match clear COUNT (R134, R1150). -/
opaque Config.cpucrClears : (cpucr : BitVec 32) → Bool

/-- `MMUT`, CONFIG0[9:7] (R10, R230). -/
inductive Mmut where
  /-- 0: direct mapping, no segmentation. -/
  | none
  /-- 1: ITLB and DTLB. -/
  | split
  /-- 2: one shared TLB. -/
  | shared
  /-- 3: Memory Protection Unit. -/
  | mpu
deriving DecidableEq, Repr

/-- `SHADOW(m)`: which registers an interrupt context of an AVR32B shadows (R15, R104). -/
inductive Shadow where
  /-- None. -/
  | small
  /-- R8 to R12 and LR. -/
  | half
  /-- R0 to R12 and LR. -/
  | full
deriving DecidableEq, Repr

/-- `CPUCR_BEHAVIOUR` (R134, D12). -/
inductive CpucrBehaviour where
  /-- A read/write register with no effect. -/
  | storage
  /-- The core's own: `Config.cpucrStored` and `Config.cpucrClears`. -/
  | own
deriving DecidableEq, Repr

/-- The attributes of an access (R236). -/
structure Attributes where
  /-- C: cached. -/
  cacheable : Bool
  /-- B. -/
  bufferable : Bool
  /-- W: cached with write-through, not write-back. -/
  writeThrough : Bool
deriving DecidableEq, Repr

/-- The instructions that can stand in `UNALIGNED_OK`, each mnemonic by itself (R17, R205), and the accesses of event entry. R17 speaks of load/store
instructions; that every instruction that accesses memory can stand there, acall (whose misaligned ACBA U5 makes a fault) and the others that are
no loads or stores among them, is a DESIGN CHOICE, notes/assumptions/36.md. -/
inductive LsKind where
  | ldSh | ldUh | ldW | ldD | ldinsH | ldswpSh | ldswpUh | ldswpW | lddpc | lddsp
  | ldShCond | ldUhCond | ldWCond | stHCond | stWCond
  | stH | stW | stD | stcond | stdsp | sthhW | stswpH | stswpW
  | pushm | popm | ldm | stm | ldmts | stmts
  | acall | mcall | xchg | memc | mems | memt
  | ldcD | ldcW | ldc0D | ldc0W | ldcmD | ldcmW | stcD | stcW | stc0D | stc0W | stcmD | stcmW
  | popjc | pushjc | scall | rete | rets
  /-- The stack words of an event entry in AVR32A (R1052). -/
  | eventEntry
  /-- A byte access: never misaligned. -/
  | byte
deriving DecidableEq, Repr

/-- The parameters of the implementation. No step changes them. -/
structure Params where
  /-- `ARCH_TYPE` is AVR32B (R9). -/
  archB : Bool
  /-- `ARCH_REV`, 0 to 3 (R12). -/
  archRev : BitVec 2
  /-- `MMUT` (R10). -/
  mmut : Mmut
  /-- `HAS_FPU` (R11). -/
  hasFpu : Bool
  /-- `HAS_JAVA` (R11). -/
  hasJava : Bool
  /-- `HAS_PERF` (R11). -/
  hasPerf : Bool
  /-- `HAS_OCD` (R11). -/
  hasOcd : Bool
  /-- `HAS_SIMD` (R11). -/
  hasSimd : Bool
  /-- `HAS_DSP` (R11). -/
  hasDsp : Bool
  /-- `HAS_RMW` (R11). -/
  hasRmw : Bool
  /-- `OCD_ENABLED` (R902). -/
  ocdEnabled : Bool
  /-- Secure state is implemented and enabled (R1170, R1177). -/
  secure : Bool
  /-- `RESET_SS` (R118). -/
  resetSS : Bool
  /-- `PROCESSOR_ID` (R13). -/
  procId : BitVec 8
  /-- `PROCESSOR_REV` (R13). -/
  procRev : BitVec 4
  /-- `IMMU_SZ` (R14). -/
  immuSz : BitVec 6
  /-- `DMMU_SZ` (R14, R282). -/
  dmmuSz : BitVec 6
  /-- The low 20 bits of CONFIG1: ISET, ILSZ, IASS, DSET, DLSZ, DASS (R152). -/
  cacheGeometry : BitVec 20
  /-- `SHADOW(INT0)` to `SHADOW(INT3)` (R15). -/
  shadow0 : Shadow
  shadow1 : Shadow
  shadow2 : Shadow
  shadow3 : Shadow
  /-- `SYSREG_IMPLEMENTED` (R16): the numbers that physically exist among those that Table 2-7 calls optional, and among 192 to 255 (R130, R131). -/
  sysRegs : List (BitVec 8)
  /-- `CPUCR_BEHAVIOUR` (R134). -/
  cpucr : CpucrBehaviour
  /-- `DEBUG_REGS`: the debug registers that exist (R156, R912). -/
  debugRegs : List (BitVec 8)
  /-- `COPROCESSOR(n)` is present where bit `n` is set (R960). -/
  cops : BitVec 8
  /-- `UNALIGNED_OK` (R17, R205). -/
  unalignedOk : List LsKind
  /-- The backed physical addresses, as closed ranges. An access outside them gets a bus error (R219, D24). -/
  backed : List (BitVec 32 × BitVec 32)
  /-- The attributes that the platform gives an access without translation (R230, R231). -/
  directAttrs : Attributes
  /-- `COUNT_CLEAR_ON_MATCH` of a revision 3 whose CPUCR is plain storage; revisions 1 and 2 always clear COUNT (R1150). -/
  countClear : Bool
  /-- `TLB_REPLACE` updates IRP or DRP on a TLB miss, in a way left free (R260). -/
  tlbReplace : Bool
  /-- `MPU_MIN_REGION` (R286). -/
  mpuMinRegion : BitVec 5
  /-- `JOSP_HAZARD` (R1223). -/
  jospHazard : Nat
  /-- The Op8 values whose `SLEEP_MODE` is to do nothing (R1180). -/
  sleepNop : List (BitVec 8)
  /-- The Op8 values whose `SLEEP_MODE` stops the clock (R1180). -/
  sleepStopsClock : List (BitVec 8)
deriving DecidableEq, Repr

/-- The architected optional registers of Table 2-7 but RSR_DBG, RAR_DBG and the MPU's cacheability and bufferability registers. -/
def referenceSysRegs : List (BitVec 8) :=
  [4#8] ++ ((List.range 12).map fun k => BitVec.ofNat 8 (21 + k)) ++ ((List.range 28).map fun k => BitVec.ofNat 8 (68 + k)) ++
    ((List.range 12).map fun k => BitVec.ofNat 8 (100 + k))

/-- The reference configuration of 92_eei_decisions.md: AVR32A, revision 3, no MMU, DSP, SIMD and RMW, nothing else optional but ECR, flat RAM
over the whole address space. What that text does not fix is a DESIGN CHOICE, notes/assumptions/1.md. -/
def Params.reference : Params where
  archB := false
  archRev := 3#2
  mmut := .none
  hasFpu := false
  hasJava := false
  hasPerf := false
  hasOcd := false
  hasSimd := true
  hasDsp := true
  hasRmw := true
  ocdEnabled := false
  secure := false
  resetSS := false
  procId := 0#8
  procRev := 0#4
  immuSz := 0#6
  dmmuSz := 0#6
  cacheGeometry := 0#20
  shadow0 := .small
  shadow1 := .small
  shadow2 := .small
  shadow3 := .small
  sysRegs := referenceSysRegs
  cpucr := .storage
  debugRegs := []
  cops := 0#8
  unalignedOk := []
  backed := [(0x00000000#32, 0xFFFFFFFF#32)]
  directAttrs := { cacheable := false, bufferable := false, writeThrough := false }
  countClear := true
  tlbReplace := false
  mpuMinRegion := 0b01011#5
  jospHazard := 0
  sleepNop := []
  sleepStopsClock := []

end Sys2Proof
end

