-- ==== Sys2Proof/Machine/State.lean ====
section
/-! DEFINITION. The state of the machine as plain data: every piece of state 10_state.md, 20_memory.md, 60_exceptions.md and
61_timers_counters_secure_state.md give it, the reasons a step stops, and the machine right after reset. INVENTORY.md lists each field with
its rule. -/

namespace Sys2Proof.Machine

/-- The events of Table 8-1 that are entered through a handler (R1051), with what they record (R1070). Reset, OCD Stop CPU, Breakpoint and the
supervisor call have sequences of their own. -/
inductive Event where
  | unrecoverable
  /-- `instr` says which TLB matched twice (R1078). -/
  | tlbMultipleHit (va : Word) (instr : Bool)
  /-- `pa` is the physical address of the failing access (R1068). -/
  | busErrorData (pa : Word)
  | busErrorFetch
  | nmi
  /-- INT`level` with the autovector the interrupt controller presents (R1093, R1095). -/
  | interrupt (level : BitVec 2) (autovector : Word)
  | instructionAddress (va : Word)
  | itlbMiss (va : Word)
  | itlbProtection (va : Word)
  | illegalOpcode
  | unimplemented
  | privilegeViolation
  | floatingPoint
  | coprocessorAbsent
  | dataAddressRead (va : Word)
  | dataAddressWrite (va : Word)
  | dtlbMissRead (va : Word)
  | dtlbMissWrite (va : Word)
  | dtlbProtectionRead (va : Word)
  | dtlbProtectionWrite (va : Word)
  | dtlbModified (va : Word)
deriving DecidableEq, Repr

/-- What a step may stop with. -/
inductive Fault where
  /-- A second fault while entering the event that a faulting entry push raised (R1058, U49). Raised by `takeEvent`. Safe: the spec gives no
  effect. -/
  | stuck
deriving DecidableEq, Repr

/-- What a step may refuse. -/
inductive Refusal where
  /-- The instruction has no meaning yet. Raised by no meaning. Safe. -/
  | notModelled (mnemonic : String)
  /-- SR[J] = 1: the stream is Java bytecode, which 00_scope.md R7 leaves out. Raised by `step`. Safe. -/
  | javaState
  /-- SR[R] = 1: the register remap of the Java manual (R109, D14). Raised by `step`. Safe. -/
  | javaRemap
  /-- incjosp asks for TRAP 3 or TRAP 4 of the Java manual (R990, D14). Raised by `execIncjosp`. Safe. -/
  | javaTrap (number : Nat)
  /-- The OCD system has taken control of the CPU and feeds it (R1062, D49). Raised by `step`. Safe. -/
  | ocdControl
deriving DecidableEq, Repr

/-- One copy of R0 to R12 and LR (R104). -/
structure Bank where
  r : Vector Word 13
  lr : Word
deriving DecidableEq, Repr

/-- System registers 1 to 4 and 79. -/
structure ControlRegs where
  evba : Word
  acba : Word
  cpucr : Word
  ecr : Word
  bear : Word
deriving DecidableEq, Repr

/-- The return status and return address registers, system registers 5 to 20 (R136, R137). -/
structure ReturnRegs where
  rsrSup : Word
  rsrInt0 : Word
  rsrInt1 : Word
  rsrInt2 : Word
  rsrInt3 : Word
  rsrEx : Word
  rsrNmi : Word
  rsrDbg : Word
  rarSup : Word
  rarInt0 : Word
  rarInt1 : Word
  rarInt2 : Word
  rarInt3 : Word
  rarEx : Word
  rarNmi : Word
  rarDbg : Word
deriving DecidableEq, Repr

/-- The Java system registers 21 to 32 (R138). -/
structure JavaRegs where
  jecr : Word
  josp : Word
  /-- JAVA_LV0 to JAVA_LV7. -/
  lv : Vector Word 8
  jtba : Word
  jbcr : Word
deriving DecidableEq, Repr

/-- System registers 66 and 67 and the pending compare interrupt request (R1150). -/
structure TimerRegs where
  count : Word
  compare : Word
  compareIrq : Bool
deriving DecidableEq, Repr

/-- System registers 75 to 78 and the phase of PCCNT's divide by 64 (R1161 to R1163). -/
structure PerfRegs where
  pccnt : Word
  pcnt0 : Word
  pcnt1 : Word
  pccr : Word
  prescaler : BitVec 6
deriving DecidableEq, Repr

/-- A TLB entry (R240). -/
structure TlbEntry where
  vpn : BitVec 22
  asid : BitVec 8
  v : Bool
  pfn : BitVec 22
  c : Bool
  g : Bool
  b : Bool
  ap : BitVec 3
  sz : BitVec 2
  d : Bool
  w : Bool
  a : Bool
deriving DecidableEq, Repr

/-- System registers 68 to 72 and the two TLBs; `dtlb` is the shared one where MMUT = 2 (R241 to R247). -/
structure MmuRegs where
  tlbehi : Word
  tlbelo : Word
  ptbr : Word
  tlbear : Word
  mmucr : Word
  itlb : Vector TlbEntry 64
  dtlb : Vector TlbEntry 64
deriving DecidableEq, Repr

/-- System registers 80 to 102 (R284 to R294). -/
structure MpuRegs where
  ar : Vector Word 8
  psr : Vector Word 8
  cra : Word
  crb : Word
  bra : Word
  brb : Word
  apra : Word
  aprb : Word
  cr : Word
deriving DecidableEq, Repr

/-- System registers 103 to 107, 110 and 111 (R145). -/
structure SecureRegs where
  status : Word
  adrf : Word
  adrr : Word
  adr0 : Word
  adr1 : Word
  rar : Word
  rsr : Word
deriving DecidableEq, Repr

/-- What the surroundings present at one step (R1096). `extraCycles + 1` is `CYCLES(step)` (D52); a request that D48 lets the core leave for a
later boundary is one the sample does not show yet. Notes/assumptions/7.md. -/
structure Sample where
  reset : Bool
  ocdStop : Bool
  ocdBreak : Bool
  nmi : Bool
  /-- The line INT`n`, with its autovector while asserted. -/
  int0 : Option Word
  int1 : Option Word
  int2 : Option Word
  int3 : Option Word
  extraCycles : Nat
  /-- The floating-point hardware signals an error on this step's coprocessor instruction (R1083). -/
  fpSignal : Bool
  /-- Occurrences of the event PCCR selects for PCNT0 and PCNT1 (`PERF_EVENTS`, R1163). -/
  perf0 : Nat
  perf1 : Nat
  /-- The report of a pending data bus error waits for a later boundary (R1068). -/
  deferBusError : Bool
  /-- Bytes of physical memory as the devices and the other bus masters leave them before the step (R219, R31). -/
  busWrites : List (Word × Byte)
  /-- Batches of such bytes, one between each two transfers that the step's instruction makes one after the other, in order; the step does not
  come to the batches it has no place for (R208, D23; notes/assumptions/29.md). -/
  busBetween : List (List (Word × Byte))
deriving DecidableEq, Repr

/-- Nothing asserted, one cycle. -/
def Sample.quiet : Sample :=
  { reset := false, ocdStop := false, ocdBreak := false, nmi := false, int0 := none, int1 := none, int2 := none, int3 := none,
    extraCycles := 0, fpSignal := false, perf0 := 0, perf1 := 0, deferBusError := false,
    busWrites := [], busBetween := [] }

structure State where
  /-- The parameters; no step changes them. -/
  cfg : Params
  /-- The copy of R0 to R12 and LR that all contexts share, and the interrupt contexts' own (R104). -/
  shared : Bank
  int0 : Bank
  int1 : Bank
  int2 : Bank
  int3 : Bank
  spApp : Word
  spSys : Word
  spSec : Word
  pc : Word
  sr : Word
  ctl : ControlRegs
  ret : ReturnRegs
  java : JavaRegs
  timer : TimerRegs
  perf : PerfRegs
  mmu : MmuRegs
  mpu : MpuRegs
  sec : SecureRegs
  /-- System registers 192 to 255 (R131). -/
  impl : Vector Word 64
  /-- CR0 to CR15 of coprocessors 0 to 7 (R155, R960). -/
  cop : Vector (Vector Word 16) 8
  /-- The debug registers (R156). -/
  debug : Vector Word 256
  /-- The physical addresses of the data bus errors that have not been reported yet, the oldest first (R1068). -/
  busErr : List Word
  /-- How many of them, from the oldest on, a sync has made due: the next boundaries signal them (R312). -/
  busErrDue : Nat
  /-- The Op8 of the sleep the core is in (R1180). -/
  sleeping : Option (BitVec 8)
  ocdStopped : Bool
  /-- What is left of the window after mtsr JOSP, and whether a sequence inside it has been flagged (R1223, D56). -/
  hazardLeft : Nat
  hazardFlag : Bool
  /-- Physical memory, in the canonical form of `Memory.wf`. -/
  mem : List Host.Cell
  /-- The model's own: the inputs of this step and of the steps to come. -/
  now : Sample
  env : List Sample
  /-- The model's own: the number of free values drawn so far. -/
  freeIdx : Nat
  /-- The model's own: the event this step has taken. -/
  taken : Option Event
deriving DecidableEq, Repr

/-- What a byte that memory does not list reads as. DESIGN CHOICE, notes/assumptions/5.md. -/
def Memory.unlisted : Byte := 0#8

/-- Addresses from `lo` up, strictly rising and below 2^32, no entry equal to what an unlisted address reads as. -/
def Memory.wfFrom (lo : Nat) : List Host.Cell → Bool
  | [] => true
  | c :: rest => decide (lo ≤ c.1) && decide (c.1 < 2 ^ 32) && c.2 != Memory.unlisted && Memory.wfFrom (c.1 + 1) rest

/-- The canonical form of memory: equal memories are equal lists. -/
def Memory.wf (m : List Host.Cell) : Bool := Memory.wfFrom 0 m

def Bank.zero : Bank := { r := Vector.replicate 13 0#32, lr := 0#32 }

def TlbEntry.invalid : TlbEntry :=
  { vpn := 0#22, asid := 0#8, v := false, pfn := 0#22, c := false, g := false, b := false, ap := 0#3, sz := 0#2, d := false, w := false,
    a := false }

/-- The machine of configuration `cfg` right after reset (R160, R161, R1200). What those rules leave open is 0: DESIGN CHOICE,
notes/assumptions/4.md. -/
def State.resetOf (cfg : Params) : State where
  cfg := cfg
  shared := Bank.zero
  int0 := Bank.zero
  int1 := Bank.zero
  int2 := Bank.zero
  int3 := Bank.zero
  spApp := 0#32
  spSys := 0#32
  spSec := 0#32
  pc := if cfg.archB then 0xA0000000#32 else 0x80000000#32
  sr := if cfg.resetSS then 0x80610000#32 else 0x00610000#32
  ctl := { evba := 0#32, acba := 0#32, cpucr := 0#32, ecr := 0#32, bear := 0#32 }
  ret := { rsrSup := 0#32, rsrInt0 := 0#32, rsrInt1 := 0#32, rsrInt2 := 0#32, rsrInt3 := 0#32, rsrEx := 0#32, rsrNmi := 0#32,
           rsrDbg := 0#32, rarSup := 0#32, rarInt0 := 0#32, rarInt1 := 0#32, rarInt2 := 0#32, rarInt3 := 0#32, rarEx := 0#32,
           rarNmi := 0#32, rarDbg := 0#32 }
  java := { jecr := 0#32, josp := 0#32, lv := Vector.replicate 8 0#32, jtba := 0#32, jbcr := 0#32 }
  timer := { count := 0#32, compare := 0#32, compareIrq := false }
  perf := { pccnt := 0#32, pcnt0 := 0#32, pcnt1 := 0#32, pccr := 0#32, prescaler := 0#6 }
  mmu := { tlbehi := 0#32, tlbelo := 0#32, ptbr := 0#32, tlbear := 0#32, mmucr := 0x00000010#32,
           itlb := Vector.replicate 64 TlbEntry.invalid, dtlb := Vector.replicate 64 TlbEntry.invalid }
  mpu := { ar := Vector.replicate 8 0#32, psr := Vector.replicate 8 0#32, cra := 0#32, crb := 0#32, bra := 0#32, brb := 0#32,
           apra := 0#32, aprb := 0#32, cr := 0#32 }
  sec := { status := 0#32, adrf := 0#32, adrr := 0#32, adr0 := 0#32, adr1 := 0#32, rar := 0#32, rsr := 0#32 }
  impl := Vector.replicate 64 0#32
  cop := Vector.replicate 8 (Vector.replicate 16 0#32)
  debug := Vector.replicate 256 0#32
  busErr := []
  busErrDue := 0
  sleeping := none
  ocdStopped := false
  hazardLeft := 0
  hazardFlag := false
  mem := []
  now := Sample.quiet
  env := []
  freeIdx := 0
  taken := none

/-- The machine right after reset, in the reference configuration (92_eei_decisions.md). -/
def State.reset : State := State.resetOf Params.reference

end Sys2Proof.Machine
end

