-- ==== Sys2Proof/Machine/Flags.lean ====
section
/-! DEFINITION. The status register: its bits and fields (10_state.md R115 to R129), the flag formulas (40_arithmetic.md R450) and the condition
codes (30_encoding.md R370). -/

namespace Sys2Proof.Machine

/-- `w` with bit `n` made `b`. -/
def setBit (w : Word) (n : Nat) (b : Bool) : Word :=
  if b then w ||| (1#32 <<< n) else w &&& ~~~(1#32 <<< n)

/-! The bit numbers of SR (R115). -/

def bitC : Nat := 0
def bitZ : Nat := 1
def bitN : Nat := 2
def bitV : Nat := 3
def bitQ : Nat := 4
def bitL : Nat := 5
def bitT : Nat := 14
def bitR : Nat := 15
def bitGM : Nat := 16
def bitI0M : Nat := 17
def bitI1M : Nat := 18
def bitI2M : Nat := 19
def bitI3M : Nat := 20
def bitEM : Nat := 21
def bitD : Nat := 26
def bitDM : Nat := 27
def bitJ : Nat := 28
def bitH : Nat := 29
def bitSS : Nat := 31

/-- The SR bits that exist: all but 30, 25 and 13 to 6, which read 0 and ignore writes (D10). -/
def srImplemented : Word := 0xBDFFC03F#32

def State.srBit (s : State) (n : Nat) : Bool := s.sr.getLsbD n

def State.setSrBit (s : State) (n : Nat) (b : Bool) : State := { s with sr := setBit s.sr n b }

def State.flagC (s : State) : Bool := s.srBit bitC
def State.flagZ (s : State) : Bool := s.srBit bitZ
def State.flagN (s : State) : Bool := s.srBit bitN
def State.flagV (s : State) : Bool := s.srBit bitV
def State.flagQ (s : State) : Bool := s.srBit bitQ
def State.flagL (s : State) : Bool := s.srBit bitL

/-- SR[M2:M0] (R121). -/
def State.mode (s : State) : BitVec 3 := s.sr.extractLsb' 22 3

/-- SR[M2:M0] = 000 outside debug state: the one unprivileged state (R1120, R890 (b)). -/
def State.inApplication (s : State) : Bool := s.mode == 0#3 && !s.srBit bitD

def State.privileged (s : State) : Bool := !s.inApplication

/-- `w` with SR[M2:M0] made `m`. -/
def setMode (w : Word) (m : BitVec 3) : Word := (w &&& 0xFE3FFFFF#32) ||| (m.setWidth 32 <<< 22)

/-- A whole-word write of SR: reserved bits stay 0 and SS keeps its value (R118, R890 (d)). -/
def State.writeSr (s : State) (v : Word) : State := { s with sr := setBit (v &&& srImplemented) bitSS (s.srBit bitSS) }

/-! The flag formulas of R450, on vectors of any width. -/

def vAdd {n : Nat} (a b r : BitVec n) : Bool := (a.msb && b.msb && !r.msb) || (!a.msb && !b.msb && r.msb)

def cAdd {n : Nat} (a b r : BitVec n) : Bool := (a.msb && b.msb) || (a.msb && !r.msb) || (b.msb && !r.msb)

def vSub {n : Nat} (a b r : BitVec n) : Bool := (a.msb && !b.msb && !r.msb) || (!a.msb && b.msb && r.msb)

def cSub {n : Nat} (a b r : BitVec n) : Bool := (!a.msb && b.msb) || (b.msb && r.msb) || (!a.msb && r.msb)

/-- New values for the arithmetic flags; `none` leaves a flag as it is. -/
structure FlagUpdate where
  q : Option Bool := none
  v : Option Bool := none
  n : Option Bool := none
  z : Option Bool := none
  c : Option Bool := none
deriving DecidableEq, Repr

def setBitIf (w : Word) (n : Nat) : Option Bool → Word
  | none => w
  | some b => setBit w n b

/-- `sr` with the flags `u` names changed. -/
def applyFlags (sr : Word) (u : FlagUpdate) : Word :=
  setBitIf (setBitIf (setBitIf (setBitIf (setBitIf sr bitQ u.q) bitV u.v) bitN u.n) bitZ u.z) bitC u.c

def State.setFlags (s : State) (u : FlagUpdate) : State := { s with sr := applyFlags s.sr u }

/-- No flag changes. -/
def noFlags : FlagUpdate := {}

/-- V, N, Z and C of an addition (R450). -/
def addFlags {n : Nat} (a b r : BitVec n) : FlagUpdate :=
  { v := some (vAdd a b r), n := some r.msb, z := some (r == 0), c := some (cAdd a b r) }

/-- V, N, Z and C of a subtraction; C is a borrow (R450). -/
def subFlags {n : Nat} (a b r : BitVec n) : FlagUpdate :=
  { v := some (vSub a b r), n := some r.msb, z := some (r == 0), c := some (cSub a b r) }

/-- `u` with a sticky Z: the new Z is also 0 where the old one was (R450). -/
def stickyZ (old : Bool) (u : FlagUpdate) : FlagUpdate := { u with z := u.z.map (· && old) }

/-- N and Z of a logic result (R600 (b)). -/
def logicFlags (r : Word) : FlagUpdate := { n := some r.msb, z := some (r == 0) }

/-- Z alone. -/
def zeroFlag (r : Word) : FlagUpdate := { z := some (r == 0) }

/-- The flags of `cp R12, 0` on `r` (R851, R716). -/
def testFlags (r : Word) : FlagUpdate := { v := some false, n := some r.msb, z := some (r == 0), c := some false }

/-- N, Z and C of casts and bit fields: C is the sign (R630, R636). -/
def signFlags (r : Word) : FlagUpdate := { n := some r.msb, z := some (r == 0), c := some r.msb }

/-- The sticky Q of R540 (c): set by a saturation, never cleared. -/
def stickyQ (old saturated : Bool) : Option Bool := some (old || saturated)

/-- `cond(c)` of R370, on the present flags. -/
def State.cond (s : State) (c : Cond) : Bool :=
  match c.toNat with
  | 0 => s.flagZ
  | 1 => !s.flagZ
  | 2 => !s.flagC
  | 3 => s.flagC
  | 4 => s.flagN == s.flagV
  | 5 => s.flagN != s.flagV
  | 6 => s.flagN
  | 7 => !s.flagN
  | 8 => s.flagC || s.flagZ
  | 9 => !s.flagZ && s.flagN == s.flagV
  | 10 => s.flagZ || s.flagN != s.flagV
  | 11 => !s.flagC && !s.flagZ
  | 12 => s.flagV
  | 13 => !s.flagV
  | 14 => s.flagQ
  | _ => true

end Sys2Proof.Machine
end

