-- ==== Sys2Proof/Machine/Ops.lean ====
section
/-! DEFINITION. The named operations over registers and memory: register contexts (10_state.md R104), translation and protection (20_memory.md
R230 to R296), data accesses (R202, R205), taking an event (60_exceptions.md R1050 to R1063), and the returns' shared parts. -/

namespace Sys2Proof.Machine

/-! ## Registers -/

/-- Whose copy of R0 to R12 and LR (R104). -/
inductive Context where
  | shared | int0 | int1 | int2 | int3
deriving DecidableEq, Repr

/-- A physical register. -/
inductive PhysReg where
  | pc | spApp | spSys | spSec
  | bank (c : Context) (i : RegNo)
deriving DecidableEq, Repr

/-- The ones that exist: a context's own registers are R0 to R12 and LR (R104). -/
def PhysReg.Real : PhysReg → Prop
  | .bank _ i => i ≠ 13#4 ∧ i ≠ 15#4
  | _ => True

def State.bank (s : State) : Context → Bank
  | .shared => s.shared
  | .int0 => s.int0
  | .int1 => s.int1
  | .int2 => s.int2
  | .int3 => s.int3

def State.setBank (s : State) (b : Bank) : Context → State
  | .shared => { s with shared := b }
  | .int0 => { s with int0 := b }
  | .int1 => { s with int1 := b }
  | .int2 => { s with int2 := b }
  | .int3 => { s with int3 := b }

/-- R0 to R12, or LR. -/
def Bank.get (b : Bank) (i : RegNo) : Word := if h : i.toNat < 13 then b.r[i.toNat] else b.lr

def Bank.set (b : Bank) (i : RegNo) (v : Word) : Bank :=
  if h : i.toNat < 13 then { b with r := b.r.set i.toNat v } else { b with lr := v }

/-- Does a context of this shadowing have its own R`i` (R15, R104)? -/
def shadows (k : Shadow) (i : RegNo) : Bool :=
  match k with
  | .small => false
  | .half => 8 ≤ i.toNat
  | .full => true

/-- The context that holds R`i` in mode `m` (R104). -/
def contextOf (cfg : Params) (m : BitVec 3) (i : RegNo) : Context :=
  if cfg.archB then
    match m.toNat with
    | 2 => if shadows cfg.shadow0 i then .int0 else .shared
    | 3 => if shadows cfg.shadow1 i then .int1 else .shared
    | 4 => if shadows cfg.shadow2 i then .int2 else .shared
    | 5 => if shadows cfg.shadow3 i then .int3 else .shared
    | _ => .shared
  else .shared

/-- `phys(i)` of R104. -/
def State.phys (s : State) (i : RegNo) : PhysReg :=
  if i = 15#4 then .pc
  else if i = 13#4 then
    if s.srBit bitSS then .spSec else if s.mode = 0#3 then .spApp else .spSys
  else .bank (contextOf s.cfg s.mode i) i

def State.readPhys (s : State) : PhysReg → Word
  | .pc => s.pc
  | .spApp => s.spApp
  | .spSys => s.spSys
  | .spSec => s.spSec
  | .bank c i => (s.bank c).get i

/-- A jump: bit 0 of the target is discarded (R111). -/
def State.jump (s : State) (target : Word) : State := { s with pc := target &&& 0xFFFFFFFE#32 }

def State.writePhys (s : State) (p : PhysReg) (v : Word) : State :=
  match p with
  | .pc => s.jump v
  | .spApp => { s with spApp := v }
  | .spSys => { s with spSys := v }
  | .spSec => { s with spSec := v }
  | .bank c i => s.setBank ((s.bank c).set i v) c

/-- `R[i]` (R22, R110): R15 is the address of the instruction. -/
def State.getReg (s : State) (i : RegNo) : Word := s.readPhys (s.phys i)

/-- `R[i] <- v` (R22, R111): a write to R15 is a jump. -/
def State.setReg (s : State) (i : RegNo) (v : Word) : State := s.writePhys (s.phys i) v

/-- The PC after an instruction of `n` bytes that does not jump (R112). -/
def State.advance (s : State) (n : Word) : State := { s with pc := s.pc + n }

/-- The next free value (93_implementation_defined.md, `any value`). -/
def State.free (s : State) : Word := Config.freeWord s.freeIdx

/-- The `k`-th free value after it. -/
def State.freeAt (s : State) (k : Nat) : Word := Config.freeWord (s.freeIdx + k)

/-- `n` free values have been drawn. -/
def State.drawFree (s : State) (n : Nat) : State := { s with freeIdx := s.freeIdx + n }

/-- Each of the registers `is` receives a free value of its own. -/
def State.freeRegs (s : State) : List RegNo → State
  | [] => s
  | i :: is => ((s.setReg i s.free).drawFree 1).freeRegs is

/-- Bit 0 of a register number is 0: it can name a pair (R29). -/
def evenNo (d : RegNo) : Bool := !d.getLsbD 0

/-- `R[d+1]:R[d] <- hi:lo`; with an odd `d`, U2, both registers receive free values. The register after R15 is R0: DEDUCED,
notes/assumptions/10.md. -/
def State.setPair (s : State) (d : RegNo) (hi lo : Word) : State :=
  if evenNo d then (s.setReg (d + 1#4) hi).setReg d lo else s.freeRegs [d + 1#4, d]

/-- The stack pointer of the system stack: SP_SYS, and SP_SEC in the secure world (R1052, R1175). -/
def State.systemSp (s : State) : Word := if s.srBit bitSS then s.spSec else s.spSys

def State.setSystemSp (s : State) (v : Word) : State :=
  if s.srBit bitSS then { s with spSec := v } else { s with spSys := v }

/-! ## Results of operations that may raise an event -/

/-- An operation's value and the state after it, or the event it raises with the state it leaves (00_scope.md R22, `raise`). -/
inductive Res (α : Type) where
  | ok (a : α) (s : State)
  | raise (e : Event) (s : State)

def Res.bind {α β : Type} (r : Res α) (f : α → State → Res β) : Res β :=
  match r with
  | .ok a s => f a s
  | .raise e s => .raise e s

/-! ## Bytes of physical memory -/

def Memory.read (m : List Host.Cell) (x : Nat) : Byte :=
  match m with
  | [] => Memory.unlisted
  | c :: rest => if c.1 = x then c.2 else Memory.read rest x

def Memory.write (m : List Host.Cell) (x : Nat) (v : Byte) : List Host.Cell :=
  match m with
  | [] => if v = Memory.unlisted then [] else [(x, v)]
  | c :: rest =>
    if x < c.1 then (if v = Memory.unlisted then c :: rest else (x, v) :: c :: rest)
    else if x = c.1 then (if v = Memory.unlisted then rest else (x, v) :: rest)
    else c :: Memory.write rest x v

/-- The bytes that other agents write, in order (R219). -/
def Memory.writeAll (m : List Host.Cell) (ws : List (Word × Byte)) : List Host.Cell :=
  ws.foldl (fun m w => Memory.write m w.1.toNat w.2) m

/-- The byte at physical address `pa`. -/
def State.byteAt (s : State) (pa : Word) : Byte := Memory.read s.mem pa.toNat

/-- The `n` bytes from `pa` on; addresses wrap (D20). -/
def readBytes (m : List Host.Cell) (pa : Word) : Nat → List Byte
  | 0 => []
  | n + 1 => Memory.read m pa.toNat :: readBytes m (pa + 1#32) n

def writeBytes (m : List Host.Cell) (pa : Word) : List Byte → List Host.Cell
  | [] => m
  | b :: bs => writeBytes (Memory.write m pa.toNat b) (pa + 1#32) bs

/-- The big-endian word of up to four bytes (R210). -/
def wordOfBytes (bs : List Byte) : Word := bs.foldl (fun acc b => (acc <<< 8) ||| b.setWidth 32) 0#32

/-- The low `n` bytes of `v`, most significant first (R210). -/
def bytesOfWord (v : Word) : Nat → List Byte
  | 0 => []
  | n + 1 => (v >>> (8 * n)).setWidth 8 :: bytesOfWord v n

/-! ## What the implementation has -/

/-- The architecture revision reaches `n` (R12, R415). At `ARCH_REV` 0 no instruction exists: notes/assumptions/32.md. -/
def hasRev (cfg : Params) (n : Nat) : Bool := n ≤ cfg.archRev.toNat

/-- Secure state, its registers and its instructions: revision 3 has them (R4, R145), where the core implements them (R1170). -/
def hasSecure (cfg : Params) : Bool := cfg.secure && hasRev cfg 3

def hasMmu (cfg : Params) : Bool := cfg.mmut == .split || cfg.mmut == .shared

/-- System register `n` physically exists, as far as `SYSREG_IMPLEMENTED` says so (R16). The units that are there act on their registers whether
or not it does (DESIGN CHOICE, notes/assumptions/38.md). -/
def listed (cfg : Params) (n : Nat) : Bool := cfg.sysRegs.contains (BitVec.ofNat 8 n)

/-- ECR exists (R135). -/
def hasEcr (cfg : Params) : Bool := listed cfg 4

/-- BEAR exists (R143). -/
def hasBear (cfg : Params) : Bool := listed cfg 79

/-- RSR_DBG exists (R137). -/
def hasRsrDbg (cfg : Params) : Bool := listed cfg 12

/-- RAR_DBG exists (R137). -/
def hasRarDbg (cfg : Params) : Bool := listed cfg 20

/-! ## Translation and protection -/

inductive Access where
  | read | write | fetch
deriving DecidableEq, Repr

def missEvent (k : Access) (va : Word) : Event :=
  match k with
  | .read => .dtlbMissRead va
  | .write => .dtlbMissWrite va
  | .fetch => .itlbMiss va

def protectionEvent (k : Access) (va : Word) : Event :=
  match k with
  | .read => .dtlbProtectionRead va
  | .write => .dtlbProtectionWrite va
  | .fetch => .itlbProtection va

def misalignedEvent (k : Access) (va : Word) : Event :=
  match k with
  | .read => .dataAddressRead va
  | .write => .dataAddressWrite va
  | .fetch => .instructionAddress va

/-- The address bits inside a page of size code `sz` (R253). -/
def pageMask (sz : BitVec 2) : Word :=
  match sz.toNat with
  | 0 => 0x000003FF#32
  | 1 => 0x00000FFF#32
  | 2 => 0x0000FFFF#32
  | _ => 0x000FFFFF#32

/-- `Compare` and `Hit` of R248. -/
def TlbEntry.hit (e : TlbEntry) (shared : Bool) (asid : BitVec 8) (va : Word) : Bool :=
  e.v && ((e.vpn ++ 0#10) &&& ~~~pageMask e.sz) == (va &&& ~~~pageMask e.sz) && (shared || e.g || e.asid == asid)

/-- The physical address (R251). -/
def TlbEntry.physical (e : TlbEntry) (va : Word) : Word :=
  ((e.pfn ++ 0#10) &&& ~~~pageMask e.sz) ||| (va &&& pageMask e.sz)

/-- Fetches use the ITLB where there are two TLBs (R230, R247). -/
def usesItlb (cfg : Params) (instr : Bool) : Bool := instr && cfg.mmut == .split

/-- The TLB that an access, or TLBEHI[I], names. Both worlds share it, as they share the MPU: whether their contents are partitioned is not in
the source (R1179; DESIGN CHOICE, notes/assumptions/21.md). -/
def State.tlb (s : State) (instr : Bool) : Vector TlbEntry 64 := if usesItlb s.cfg instr then s.mmu.itlb else s.mmu.dtlb

/-- How many entries that TLB has (R14, R247). -/
def State.tlbSize (s : State) (instr : Bool) : Nat :=
  (if usesItlb s.cfg instr then s.cfg.immuSz.toNat else s.cfg.dmmuSz.toNat) + 1

def State.setTlbEntry (s : State) (instr : Bool) (i : Nat) (e : TlbEntry) : State :=
  if h : i < 64 then
    if usesItlb s.cfg instr then { s with mmu := { s.mmu with itlb := s.mmu.itlb.set i e } }
    else { s with mmu := { s.mmu with dtlb := s.mmu.dtlb.set i e } }
  else s

/-- The entries that hit, with their indexes. -/
def State.tlbHits (s : State) (instr : Bool) (va : Word) : List (TlbEntry × Nat) :=
  (((s.tlb instr).toList.take (s.tlbSize instr)).zipIdx).filter
    (fun p => p.1.hit (s.mmu.mmucr.getLsbD 1) (s.mmu.tlbehi.setWidth 8) va)

/-- The outputs of translation (R230, R236). -/
structure Translated where
  pa : Word
  attrs : Attributes
deriving DecidableEq, Repr

/-- The attributes of an access to a page (R249, R250); a fetch writes nothing through. -/
def TlbEntry.attributes (e : TlbEntry) (k : Access) : Attributes :=
  { cacheable := e.c, bufferable := e.b, writeThrough := e.c && e.w && k != .fetch }

/-- An access through a page. -/
def TlbEntry.access (e : TlbEntry) (k : Access) (va : Word) : Translated := { pa := e.physical va, attrs := e.attributes k }

/-- The paged step (R249, R250). `priv` is whether the access has the rights of a privileged mode (R1123). -/
def translatePaged (k : Access) (priv : Bool) (va : Word) (s : State) : Res Translated :=
  let instr := k == .fetch
  match s.tlbHits instr va with
  | [] => .raise (missEvent k va) s
  | [(e, i)] =>
    let s1 := s.setTlbEntry instr i { e with a := false }
    if !priv && !e.ap.getLsbD 2 then .raise (protectionEvent k va) s1
    else match k with
      | .fetch => if e.ap.getLsbD 0 then .ok (e.access k va) s1 else .raise (.itlbProtection va) s1
      | .read => .ok (e.access k va) s1
      | .write =>
        if !e.ap.getLsbD 1 then .raise (.dtlbProtectionWrite va) s1
        else if !e.d then .raise (.dtlbModified va) s1
        else .ok (e.access k va) s1
  | _ => .raise (.tlbMultipleHit va instr) s

/-- An access without a page: cached with write-back, or not cached (R234, R235). Whether it is bufferable no rule says: the platform's value,
DESIGN CHOICE, notes/assumptions/33.md. -/
def unpaged (cfg : Params) (cached : Bool) (pa : Word) : Translated :=
  { pa := pa, attrs := { cacheable := cached, bufferable := cfg.directAttrs.bufferable, writeThrough := false } }

/-- Segments, then pages (R233 to R235). The segment map is that of R232 in both classes, though R9 says that the class selects it: DEDUCED,
notes/assumptions/34.md. -/
def translateMmu (k : Access) (priv : Bool) (va : Word) (s : State) : Res Translated :=
  let paging := s.mmu.mmucr.getLsbD 0
  if !s.mmu.mmucr.getLsbD 4 then
    if paging then translatePaged k priv va s else .ok (unpaged s.cfg true va) s
  else if va.msb && !priv then .raise (protectionEvent k va) s
  else
    match (va.extractLsb' 29 3).toNat with
    | 7 => .ok (unpaged s.cfg false va) s
    | 5 => .ok (unpaged s.cfg false (va &&& 0x1FFFFFFF#32)) s
    | 4 => .ok (unpaged s.cfg true (va &&& 0x1FFFFFFF#32)) s
    | 6 => if paging then translatePaged k priv va s else .ok (unpaged s.cfg true (va &&& 0x1FFFFFFF#32)) s
    | _ => if paging then translatePaged k priv va s else .ok (unpaged s.cfg true va) s

/-- The number of MPU regions (R282): the number DMMU_SZ holds, at most 8 (R152; DEDUCED, notes/assumptions/16.md). -/
def mpuRegions (cfg : Params) : Nat := min cfg.dmmuSz.toNat 8

/-- log2 of a region's size in bytes (R287). -/
def mpuLogSize (ar : Word) : Nat := (ar.extractLsb' 1 5).toNat + 1

/-- A region's start address: the 12 low bits are implicitly 0 (R285). -/
def mpuBase (ar : Word) : Nat := ar.toNat / 2 ^ 12 * 2 ^ 12

/-- The region is valid and one whose geometry is UNDEFINED (R283, R287; U14, U16). -/
def mpuUndefined (cfg : Params) (ar : Word) : Bool :=
  ar.getLsbD 0 && ((ar.extractLsb' 1 5).ult cfg.mpuMinRegion || mpuBase ar % 2 ^ mpuLogSize ar != 0)

/-- The region is valid and holds `va` (R292). -/
def mpuHit (ar va : Word) : Bool := ar.getLsbD 0 && va.toNat / 2 ^ mpuLogSize ar == mpuBase ar / 2 ^ mpuLogSize ar

/-- `Permitted` of Table 6-3 (R291), for a code the table defines. -/
def mpuPermits (ap : BitVec 4) (priv : Bool) (k : Access) : Bool :=
  match ap.toNat with
  | 8 => if priv then k != .fetch else k == .read
  | 9 => if priv then k != .fetch else k != .write
  | 10 => false
  | _ =>
    if !priv && !ap.getLsbD 2 then false
    else match k with
      | .read => true
      | .write => ap.getLsbD 1
      | .fetch => ap.getLsbD 0

/-- The attributes that an MPU without region gives: neither cached nor buffered (R292, R296). -/
def mpuPlain : Attributes := { cacheable := false, bufferable := false, writeThrough := false }

/-- The attributes of region `n`, from the second set of registers where `second`; a register that does not exist counts as 0 (R288, R292 to
R294). That no MPU access writes through is a DESIGN CHOICE, notes/assumptions/33.md. -/
def State.mpuAttributes (s : State) (second : Bool) (n : Nat) : Attributes :=
  { cacheable := if second then listed s.cfg 97 && s.mpu.crb.getLsbD n else listed s.cfg 96 && s.mpu.cra.getLsbD n
    bufferable := if second then listed s.cfg 99 && s.mpu.brb.getLsbD n else listed s.cfg 98 && s.mpu.bra.getLsbD n
    writeThrough := false }

/-- The attributes where the geometry of a valid region is UNDEFINED: free ones (U14, U16). -/
def State.mpuFreeAttributes (s : State) : Attributes :=
  { cacheable := s.free.getLsbD 2, bufferable := s.free.getLsbD 3, writeThrough := false }

/-- The MPU check (R292). The outcome is free while a region of UNDEFINED geometry is valid, and the permission is free for an UNDEFINED code
(U14 to U16). -/
def checkMpu (k : Access) (priv : Bool) (va : Word) (s : State) : Res Translated :=
  if !s.mpu.cr.getLsbD 0 then .ok { pa := va, attrs := mpuPlain } s
  else
    let regions := (s.mpu.ar.toList.take (mpuRegions s.cfg)).zipIdx
    if regions.any (fun p => mpuUndefined s.cfg p.1) then
      match (s.free.setWidth 2).toNat with
      | 0 => .ok { pa := va, attrs := s.mpuFreeAttributes } (s.drawFree 1)
      | 1 => .raise (missEvent k va) (s.drawFree 1)
      | 2 => .raise (.tlbMultipleHit va (k == .fetch)) (s.drawFree 1)
      | _ => .raise (protectionEvent k va) (s.drawFree 1)
    else
      match regions.filter (fun p => mpuHit p.1 va) with
      | [] => .raise (missEvent k va) s
      | [(ar, n)] =>
        let sub := va.toNat / 2 ^ (mpuLogSize ar - 4) % 16
        let second := (s.mpu.psr.toList.getD n 0#32).getLsbD sub
        let ap := (if second then s.mpu.aprb else s.mpu.apra).extractLsb' (4 * n) 4
        let out : Translated := { pa := va, attrs := s.mpuAttributes second n }
        if 11 ≤ ap.toNat then
          if s.free.getLsbD 0 then .ok out (s.drawFree 1) else .raise (protectionEvent k va) (s.drawFree 1)
        else if mpuPermits ap priv k then .ok out s
        else .raise (protectionEvent k va) s
      | _ => .raise (.tlbMultipleHit va (k == .fetch)) s

/-- `Translate` of R230: the physical address and the attributes, or the event. In a model without cache or write buffer nothing depends on the
attributes (R236, R311, R330). -/
def translate (k : Access) (priv : Bool) (va : Word) (s : State) : Res Translated :=
  match s.cfg.mmut with
  | .none => .ok { pa := va, attrs := s.cfg.directAttrs } s
  | .split => translateMmu k priv va s
  | .shared => translateMmu k priv va s
  | .mpu => checkMpu k priv va s

/-- The platform backs the address (R219, D24). -/
def backedAt (cfg : Params) (pa : Word) : Bool := cfg.backed.any (fun r => r.1.ule pa && pa.ule r.2)

/-- `SECURE_MEMORY(pa)`, false everywhere without secure state (R1170). -/
def State.secureAt (s : State) (pa : Word) : Bool :=
  hasSecure s.cfg && Config.secureMemory s.sec.adrf s.sec.adrr s.sec.adr0 s.sec.adr1 pa

/-- The bus answers at `pa`: backed, and on the side of the partition the access may reach (R1170, D51 (e)). -/
def State.busAnswers (s : State) (k : Access) (pa : Word) : Bool :=
  backedAt s.cfg pa &&
    match k with
    | .fetch => !hasSecure s.cfg || s.secureAt pa == s.srBit bitSS
    | _ => s.srBit bitSS || !s.secureAt pa

/-! ## Data accesses -/

/-- The natural alignment of an access of `n` bytes; a doubleword needs a word's (R205, D21). -/
def aligned (n : Nat) (va : Word) : Bool :=
  match n with
  | 1 => true
  | 2 => !va.getLsbD 0
  | _ => va.extractLsb' 0 2 == 0#2

/-- The transfers of an access of `n` bytes, as address and size: one, two words for a doubleword (R208), single bytes where the address is
misaligned and the instruction is in `UNALIGNED_OK` (R205), and none where the alignment check fails. -/
def transfers (cfg : Params) (kind : LsKind) (n : Nat) (va : Word) : Option (List (Word × Nat)) :=
  if aligned n va then some (if n = 8 then [(va, 4), (va + 4#32, 4)] else [(va, n)])
  else if cfg.unalignedOk.contains kind then some ((List.range n).map (fun i => (va + BitVec.ofNat 32 i, 1)))
  else none

/-- Translate every transfer, before any is made (DEDUCED, notes/assumptions/11.md). -/
def translateAll (k : Access) (priv : Bool) : List (Word × Nat) → State → Res (List (Word × Nat))
  | [], s => .ok [] s
  | (va, n) :: ts, s =>
    (translate k priv va s).bind fun r s1 =>
      (translateAll k priv ts s1).bind fun ps s2 => .ok ((r.pa, n) :: ps) s2

/-- The same event, of the virtual address `va`. -/
def Event.ofAddress (e : Event) (va : Word) : Event :=
  match e with
  | .tlbMultipleHit _ instr => .tlbMultipleHit va instr
  | .instructionAddress _ => .instructionAddress va
  | .itlbMiss _ => .itlbMiss va
  | .itlbProtection _ => .itlbProtection va
  | .dataAddressRead _ => .dataAddressRead va
  | .dataAddressWrite _ => .dataAddressWrite va
  | .dtlbMissRead _ => .dtlbMissRead va
  | .dtlbMissWrite _ => .dtlbMissWrite va
  | .dtlbProtectionRead _ => .dtlbProtectionRead va
  | .dtlbProtectionWrite _ => .dtlbProtectionWrite va
  | .dtlbModified _ => .dtlbModified va
  | .unrecoverable => .unrecoverable
  | .busErrorData pa => .busErrorData pa
  | .busErrorFetch => .busErrorFetch
  | .nmi => .nmi
  | .interrupt level autovector => .interrupt level autovector
  | .illegalOpcode => .illegalOpcode
  | .unimplemented => .unimplemented
  | .privilegeViolation => .privilegeViolation
  | .floatingPoint => .floatingPoint
  | .coprocessorAbsent => .coprocessorAbsent

/-- An access at `va` that raises an event raises it with `va`, whichever part of it failed. -/
def Res.ofAddress {α : Type} (r : Res α) (va : Word) : Res α :=
  match r with
  | .ok a s => .ok a s
  | .raise e s => .raise (e.ofAddress va) s

/-- The checks of one data access: alignment, then translation (R202). An event carries the effective address (R261). -/
def checkAccess (k : Access) (priv : Bool) (kind : LsKind) (n : Nat) (va : Word) (s : State) : Res (List (Word × Nat)) :=
  match transfers s.cfg kind n va with
  | none => .raise (misalignedEvent k va) s
  | some ts => (translateAll k priv ts s).ofAddress va

/-- The physical address of the first of the transfers that gets a bus error. A transfer is one access (R208): whichever of its bytes fails,
the address is its own. Of a doubleword that is the failing word's, and of an access made byte by byte the failing byte's (DESIGN CHOICE,
notes/assumptions/12.md). -/
def State.busErrorIn (s : State) (k : Access) : List (Word × Nat) → Option Word
  | [] => none
  | (pa, n) :: ps =>
    if (List.range n).all (fun i => s.busAnswers k (pa + BitVec.ofNat 32 i)) then s.busErrorIn k ps else some pa

/-- A data bus error is imprecise: it waits to be taken at a boundary, after those that wait already (R1068, R312; notes/assumptions/12.md). -/
def State.noteBusError (s : State) (pa : Word) : State := { s with busErr := s.busErr ++ [pa] }

def readTransfers (m : List Host.Cell) : List (Word × Nat) → List Byte
  | [] => []
  | (pa, n) :: ps => readBytes m pa n ++ readTransfers m ps

def writeTransfers (m : List Host.Cell) : List (Word × Nat) → List Byte → List Host.Cell
  | [], _ => m
  | (pa, n) :: ps, bs => writeTransfers (writeBytes m pa (bs.take n)) ps (bs.drop n)

/-! ### Between two transfers

A naturally aligned byte, halfword or word is one indivisible transfer. The two words of a doubleword, the words of a multiple transfer and the
bytes of a misaligned access are transfers of their own, and other agents may act between them (R208, D3, D23). What they do there is an input of
the step, and so is whether they do anything; where they act at all is notes/assumptions/29.md. -/

/-- The other agents act between two transfers: the next batch of bytes they write is in memory. -/
def State.busTurn (s : State) : State :=
  { s with mem := Memory.writeAll s.mem (s.now.busBetween.headD []), now := { s.now with busBetween := s.now.busBetween.tail } }

/-- They do so where `more` transfers are still to come, and not behind the last one. -/
def State.turnIfMore (s : State) (more : Nat) : State :=
  match more with
  | 0 => s
  | _ + 1 => s.busTurn

/-- Read transfers made one after the other: the bytes, and the state after the last. -/
def readTurns (s : State) : List (Word × Nat) → List Byte × State
  | [] => ([], s)
  | (pa, n) :: ps =>
    let r := readTurns (s.turnIfMore ps.length) ps
    (readBytes s.mem pa n ++ r.1, r.2)

/-- Write transfers made one after the other. -/
def writeTurns (s : State) : List (Word × Nat) → List Byte → State
  | [], _ => s
  | (pa, n) :: ps, bs => writeTurns ({ s with mem := writeBytes s.mem pa (bs.take n) }.turnIfMore ps.length) ps (bs.drop n)

/-- Make checked read transfers: the bytes, or none where the bus signals an error. -/
def readChecked (ps : List (Word × Nat)) (s : State) : Option (List Byte) × State :=
  match s.busErrorIn .read ps with
  | some pa => (none, s.noteBusError pa)
  | none => (some (readTurns s ps).1, (readTurns s ps).2)

/-- Make checked write transfers; a failing store changes nothing (R1068). -/
def writeChecked (ps : List (Word × Nat)) (bs : List Byte) (s : State) : State :=
  match s.busErrorIn .write ps with
  | some pa => s.noteBusError pa
  | none => writeTurns s ps bs

/-- The same reads with no other agent between them: the bus is locked (D32). -/
def readLocked (ps : List (Word × Nat)) (s : State) : Option (List Byte) × State :=
  match s.busErrorIn .read ps with
  | some pa => (none, s.noteBusError pa)
  | none => (some (readTransfers s.mem ps), s)

/-- The same writes. -/
def writeLocked (ps : List (Word × Nat)) (bs : List Byte) (s : State) : State :=
  match s.busErrorIn .write ps with
  | some pa => s.noteBusError pa
  | none => { s with mem := writeTransfers s.mem ps bs }

/-- A load of 1, 2 or 4 bytes that gives a register the value `conv` makes of them; a bus error leaves any value (U50). -/
def load (kind : LsKind) (n : Nat) (conv : Word → Word) (va : Word) (s : State) : Res Word :=
  (checkAccess .read s.privileged kind n va s).bind fun ps s1 =>
    match readChecked ps s1 with
    | (some bs, s2) => .ok (conv (wordOfBytes bs)) s2
    | (none, s2) => .ok s2.free (s2.drawFree 1)

/-- `MemRead(va, 4)`. -/
def loadWord (kind : LsKind) (va : Word) (s : State) : Res Word := load kind 4 id va s

/-- `MemRead(va, 8)`, as the word at the lower address and the one above it (R210). -/
def loadDouble (kind : LsKind) (va : Word) (s : State) : Res (Word × Word) :=
  (checkAccess .read s.privileged kind 8 va s).bind fun ps s1 =>
    match readChecked ps s1 with
    | (some bs, s2) => .ok (wordOfBytes (bs.take 4), wordOfBytes (bs.drop 4)) s2
    | (none, s2) => .ok (s2.free, s2.freeAt 1) (s2.drawFree 2)

/-- `MemWrite(va, n, v)` for n of 1, 2, 4. -/
def store (kind : LsKind) (n : Nat) (va v : Word) (s : State) : Res Unit :=
  (checkAccess .write s.privileged kind n va s).bind fun ps s1 => .ok () (writeChecked ps (bytesOfWord v n) s1)

/-- `MemWrite(va, 8, {hi, lo})`. -/
def storeDouble (kind : LsKind) (va hi lo : Word) (s : State) : Res Unit :=
  (checkAccess .write s.privileged kind 8 va s).bind fun ps s1 =>
    .ok () (writeChecked ps (bytesOfWord hi 4 ++ bytesOfWord lo 4) s1)

/-- Read the word at `va` and write back `f` of it, both checked before either is made, and no other agent between them (R208, D32). The word read, or a free value after a bus
error, which does not keep the write from being made (DESIGN CHOICE, notes/assumptions/39.md). -/
def swapWord (kind : LsKind) (va : Word) (f : Word → Word) (s : State) : Res Word :=
  (checkAccess .read s.privileged kind 4 va s).bind fun rs s1 =>
    (checkAccess .write s1.privileged kind 4 va s1).bind fun ws s2 =>
      match readLocked rs s2 with
      | (some bs, s3) => .ok (wordOfBytes bs) (writeLocked ws (bytesOfWord (f (wordOfBytes bs)) 4) s3)
      | (none, s3) => .ok s3.free (writeLocked ws (bytesOfWord (f s3.free) 4) (s3.drawFree 1))

/-- Word loads from `va` upwards, one at a time, with the other agents between them (R850 (a), R208). -/
def loadWords (kind : LsKind) (va : Word) : Nat → State → Res (List Word)
  | 0, s => .ok [] s
  | n + 1, s =>
    (loadWord kind va s).bind fun v s1 =>
      (loadWords kind (va + 4#32) n (s1.turnIfMore n)).bind fun vs s2 => .ok (v :: vs) s2

/-- Word stores in the order given, one at a time, with the other agents between them (R208); those made before an event stay (D44). -/
def storeWords (kind : LsKind) : List (Word × Word) → State → Res Unit
  | [], s => .ok () s
  | (va, v) :: ws, s => (store kind 4 va v s).bind fun _ s1 => storeWords kind ws (s1.turnIfMore ws.length)

/-- The word loads of rete and rets, one at a time, with the other agents between them (R208): with privileged rights, and a bus error is the
instruction's own event (R1058, D47). -/
def popWords (kind : LsKind) (va : Word) : Nat → State → Res (List Word)
  | 0, s => .ok [] s
  | n + 1, s =>
    (checkAccess .read true kind 4 va s).bind fun ps s1 =>
      match s1.busErrorIn .read ps with
      | some pa => .raise (.busErrorData pa) s1
      | none =>
        (popWords kind (va + 4#32) n ((readTurns s1 ps).2.turnIfMore n)).bind fun vs s2 => .ok (wordOfBytes (readTurns s1 ps).1 :: vs) s2

/-- Push words on the system stack from `sp` downwards as event entry does: with privileged rights, a bus error raises at once (R1052, R1058),
and no other agent acts between them, for an entry is atomic (R1050, R208). -/
def pushWords (sp : Word) : List Word → State → Res Unit
  | [], s => .ok () s
  | v :: vs, s =>
    (checkAccess .write true .eventEntry 4 (sp - 4#32) s).bind fun ps s1 =>
      match s1.busErrorIn .write ps with
      | some pa => .raise (.busErrorData pa) s1
      | none => pushWords (sp - 4#32) vs { s1 with mem := writeTransfers s1.mem ps (bytesOfWord v 4) }

/-! ## Taking an event -/

/-- The EVBA offset of Table 8-1 (R1051). -/
def Event.offset : Event → Word
  | .unrecoverable => 0x00#32
  | .tlbMultipleHit _ _ => 0x04#32
  | .busErrorData _ => 0x08#32
  | .busErrorFetch => 0x0C#32
  | .nmi => 0x10#32
  | .interrupt _ v => v
  | .instructionAddress _ => 0x14#32
  | .itlbMiss _ => 0x50#32
  | .itlbProtection _ => 0x18#32
  | .illegalOpcode => 0x20#32
  | .unimplemented => 0x24#32
  | .privilegeViolation => 0x28#32
  | .floatingPoint => 0x2C#32
  | .coprocessorAbsent => 0x30#32
  | .dataAddressRead _ => 0x34#32
  | .dataAddressWrite _ => 0x38#32
  | .dtlbMissRead _ => 0x60#32
  | .dtlbMissWrite _ => 0x70#32
  | .dtlbProtectionRead _ => 0x3C#32
  | .dtlbProtectionWrite _ => 0x40#32
  | .dtlbModified _ => 0x44#32

/-- The mode an event enters (R1054). -/
def Event.mode : Event → BitVec 3
  | .nmi => 7#3
  | .interrupt n _ => n.setWidth 3 + 2#3
  | _ => 6#3

/-- EM turns these into the Unrecoverable Exception (R1090). -/
def Event.maskable : Event → Bool
  | .unrecoverable => false
  | .tlbMultipleHit _ _ => false
  | .busErrorData _ => false
  | .busErrorFetch => false
  | .nmi => false
  | .interrupt _ _ => false
  | _ => true

/-- The virtual address that R1070 records. -/
def Event.failingAddress : Event → Option Word
  | .tlbMultipleHit va _ => some va
  | .instructionAddress va => some va
  | .itlbMiss va => some va
  | .itlbProtection va => some va
  | .dataAddressRead va => some va
  | .dataAddressWrite va => some va
  | .dtlbMissRead va => some va
  | .dtlbMissWrite va => some va
  | .dtlbProtectionRead va => some va
  | .dtlbProtectionWrite va => some va
  | .dtlbModified va => some va
  | _ => none

/-- What TLBEHI[I] receives, if anything (R1070). -/
def Event.tlbSide : Event → Option Bool
  | .tlbMultipleHit _ instr => some instr
  | .itlbMiss _ => some true
  | .itlbProtection _ => some true
  | .dtlbMissRead _ => some false
  | .dtlbMissWrite _ => some false
  | .dtlbProtectionRead _ => some false
  | .dtlbProtectionWrite _ => some false
  | .dtlbModified _ => some false
  | _ => none

/-- A miss after which `TLB_REPLACE` may move a replacement pointer: the ITLB's, or the data or shared TLB's (R260). -/
def Event.missedTlb : Event → Option Bool
  | .itlbMiss _ => some true
  | .dtlbMissRead _ => some false
  | .dtlbMissWrite _ => some false
  | _ => none

/-- The event in whose place an exception is taken while EM is set (R1090). -/
def State.unmasked (s : State) (e : Event) : Event := if e.maskable && s.srBit bitEM then .unrecoverable else e

/-- TLBEAR, TLBEHI[VPN], TLBEHI[V] and TLBEHI[I] (R1070, R261); skipped where they do not exist (R1079, D30). -/
def State.recordAddress (s : State) (e : Event) : State :=
  match e.failingAddress with
  | none => s
  | some va =>
    if hasMmu s.cfg then
      let hi := setBit ((s.mmu.tlbehi &&& 0x000003FF#32) ||| (va &&& 0xFFFFFC00#32)) 9 true
      { s with mmu := { s.mmu with tlbear := va, tlbehi := setBitIf hi 8 e.tlbSide } }
    else s

/-- The number of locked entries of that TLB: ILA, or DLA (R245, R259). -/
def State.tlbLocked (s : State) (instr : Bool) : BitVec 6 :=
  if usesItlb s.cfg instr then s.mmu.mmucr.extractLsb' 20 6 else s.mmu.mmucr.extractLsb' 8 6

/-- IRP or DRP after a miss, where `TLB_REPLACE` moves it: any value that names no locked entry (R259, R260, U12). -/
def State.recordReplacement (s : State) (e : Event) : State :=
  match e.missedTlb with
  | none => s
  | some instr =>
    if hasMmu s.cfg && s.cfg.tlbReplace then
      let r : BitVec 6 := s.free.setWidth 6
      let p : Word := (if r.ult (s.tlbLocked instr) then s.tlbLocked instr else r).setWidth 32
      let cr := if usesItlb s.cfg instr then (s.mmu.mmucr &&& 0x03FFFFFF#32) ||| (p <<< 26)
                else (s.mmu.mmucr &&& 0xFFF03FFF#32) ||| (p <<< 14)
      { s with mmu := { s.mmu with mmucr := cr }, freeIdx := s.freeIdx + 1 }
    else s

/-- BEAR (R1068). -/
def State.recordBus (s : State) (e : Event) : State :=
  match e with
  | .busErrorData pa => if hasBear s.cfg then { s with ctl := { s.ctl with bear := pa } } else s
  | _ => s

/-- `record(E)` of R1050. -/
def State.record (s : State) (e : Event) : State := ((s.recordAddress e).recordReplacement e).recordBus e

/-- The reset address (R1061); the secure handlers are relative to it (R1175). -/
def resetAddress (cfg : Params) : Word := if cfg.archB then 0xA0000000#32 else 0x80000000#32

/-- The handler address (R1050, R1057, R1175). -/
def State.handler (s : State) (e : Event) : Word :=
  if s.srBit bitSS then
    match e with
    | .nmi => resetAddress s.cfg + 0x0C#32
    | .interrupt _ _ => resetAddress s.cfg + 0x14#32
    | _ => resetAddress s.cfg + 0x08#32
  else s.ctl.evba + e.offset

/-- The mask bits an entry sets (R1054). -/
def Event.setMasks (e : Event) (sr : Word) : Word :=
  match e with
  | .interrupt n _ =>
    let sr0 := setBit sr bitI0M true
    let sr1 := if 1 ≤ n.toNat then setBit sr0 bitI1M true else sr0
    let sr2 := if 2 ≤ n.toNat then setBit sr1 bitI2M true else sr1
    if 3 ≤ n.toNat then setBit sr2 bitI3M true else sr2
  | _ => setBit (setBit sr bitEM true) bitGM true

/-- SR after the entry of `e` (R1050, R1054). -/
def Event.entrySr (e : Event) (sr : Word) : Word :=
  e.setMasks (setMode (setBit (setBit sr bitR false) bitJ false) e.mode)

/-- RSR and RAR of the context of mode `m` (R1053). -/
def ReturnRegs.save (r : ReturnRegs) (m : BitVec 3) (sr ra : Word) : ReturnRegs :=
  match m.toNat with
  | 1 => { r with rsrSup := sr, rarSup := ra }
  | 2 => { r with rsrInt0 := sr, rarInt0 := ra }
  | 3 => { r with rsrInt1 := sr, rarInt1 := ra }
  | 4 => { r with rsrInt2 := sr, rarInt2 := ra }
  | 5 => { r with rsrInt3 := sr, rarInt3 := ra }
  | 6 => { r with rsrEx := sr, rarEx := ra }
  | 7 => { r with rsrNmi := sr, rarNmi := ra }
  | _ => r

/-- The pair RSR, RAR of the context of mode `m`. -/
def ReturnRegs.saved (r : ReturnRegs) (m : BitVec 3) : Word × Word :=
  match m.toNat with
  | 2 => (r.rsrInt0, r.rarInt0)
  | 3 => (r.rsrInt1, r.rarInt1)
  | 4 => (r.rsrInt2, r.rarInt2)
  | 5 => (r.rsrInt3, r.rarInt3)
  | 6 => (r.rsrEx, r.rarEx)
  | 7 => (r.rsrNmi, r.rarNmi)
  | _ => (r.rsrSup, r.rarSup)

/-- The words AVR32A pushes, in push order (R1052); with SR[R] set the registers as they stand, not the remap (R109, DESIGN CHOICE,
notes/assumptions/13.md). -/
def State.frame (s : State) (e : Event) (ra : Word) : List Word :=
  match e with
  | .interrupt _ _ =>
    [s.getReg 8#4, s.getReg 9#4, s.getReg 10#4, s.getReg 11#4, s.getReg 12#4, s.getReg 14#4, ra, s.sr]
  | _ => [ra, s.sr]

/-- The part of `EnterEvent` after the state has been saved: record, SR, ECR, PC (R1050). -/
def State.enterHandler (s : State) (e : Event) : State :=
  let s1 := s.record e
  let ecr := if hasEcr s.cfg then (e.offset.setWidth 9 >>> 2).setWidth 32 else s.ctl.ecr
  { s1 with sr := e.entrySr s.sr, pc := s.handler e &&& 0xFFFFFFFE#32, ctl := { s1.ctl with ecr := ecr }, sleeping := none,
            taken := some e }

/-- `EnterEvent(e, ra)` (R1050 to R1054): `raise` where an entry push raises (R1058). -/
def enterEvent (e : Event) (ra : Word) (s : State) : Res Unit :=
  if s.cfg.archB then .ok () ({ s with ret := s.ret.save e.mode s.sr ra }.enterHandler e)
  else
    let ws := s.frame e ra
    (pushWords s.systemSp ws s).bind fun _ s1 =>
      .ok () ((s1.setSystemSp (s.systemSp - BitVec.ofNat 32 (4 * ws.length))).enterHandler e)

/-- Take event `e` with return address `ra`: masked exceptions become Unrecoverable (R1090); an entry that faults gives way to the event of the
fault, and a second fault is `stuck` (R1058, D47). -/
def takeEvent (e : Event) (ra : Word) (s : State) : Host.Outcome State Fault Refusal :=
  match enterEvent (s.unmasked e) ra s with
  | .ok _ s1 => .next s1
  | .raise e2 s1 =>
    match enterEvent (s1.unmasked e2) ra s1 with
    | .ok _ s2 => .next s2
    | .raise _ _ => .fault .stuck

/-- The outcome of an instruction: its next state, or the event it raises, taken at the instruction's own address (R1056). -/
def Res.finish (r : Res State) : Host.Outcome State Fault Refusal :=
  match r with
  | .ok t _ => .next t
  | .raise e s => takeEvent e s.pc s

/-- An event the instruction at `s.pc` raises in place of its effect. -/
def raiseEvent (e : Event) (s : State) : Host.Outcome State Fault Refusal := takeEvent e s.pc s

/-! ## Debug entry -/

/-- SR after a debug entry (R1054, R1062, R1082). -/
def debugEntrySr (sr : Word) : Word :=
  setBit (setBit (setBit (setBit (setMode (setBit (setBit sr bitR false) bitJ false) 6#3) bitD true) bitDM true) bitEM true) bitGM true

/-- RSR_DBG, RAR_DBG and SR of a debug entry; the two registers are written where they exist (R137). -/
def State.enterDebug (s : State) (ra : Word) : State :=
  let r := { s.ret with rsrDbg := if hasRsrDbg s.cfg then s.sr else s.ret.rsrDbg
                        rarDbg := if hasRarDbg s.cfg then ra else s.ret.rarDbg }
  { s with ret := r, sr := debugEntrySr s.sr, sleeping := none }

/-- The Breakpoint event (R1082; the secure address R1175). -/
def State.enterBreakpoint (s : State) (ra : Word) : State :=
  (s.enterDebug ra).jump (if s.srBit bitSS then resetAddress s.cfg + 0x10#32 else s.ctl.evba + 0x1C#32)

/-! ## The checks before an instruction's operation (R890 (c)) -/

/-- Unimplemented Instruction unless `ok` (R411). -/
def requireUnit (ok : Bool) (s : State) (k : Host.Outcome State Fault Refusal) : Host.Outcome State Fault Refusal :=
  if ok then k else raiseEvent .unimplemented s

/-- Privilege Violation unless `ok` (R412). -/
def requireRight (ok : Bool) (s : State) (k : Host.Outcome State Fault Refusal) : Host.Outcome State Fault Refusal :=
  if ok then k else raiseEvent .privilegeViolation s

/-- Floating-point where the hardware signals it, Coprocessor Absent where coprocessor `n` is (R960, R1080, R1083). -/
def requireCop (n : BitVec 3) (s : State) (k : Host.Outcome State Fault Refusal) : Host.Outcome State Fault Refusal :=
  if s.now.fpSignal && s.cfg.hasFpu then raiseEvent .floatingPoint s
  else if s.cfg.cops.getLsbD n.toNat then k
  else raiseEvent .coprocessorAbsent s

end Sys2Proof.Machine
end

