-- ==== Sys2Proof/Machine/Operands.lean ====
section
/-! DEFINITION. The operand forms: extended immediates, parts of registers, effective addresses (46_data_transfer.md R740), register lists
(30_encoding.md R359), saturation (00_scope.md R24), and the few ways an instruction ends: a register and flags written, a jump, a load, a
store. -/

namespace Sys2Proof.Machine

/-- `sext_32`. -/
def sext {n : Nat} (v : BitVec n) : Word := v.signExtend 32

/-- `zext_32`. -/
def zext {n : Nat} (v : BitVec n) : Word := v.setWidth 32

/-- `half(v, x)`: the top halfword for 1, the bottom one for 0, sign-extended (R540 (b), R357). -/
def half (v : Word) (x : BitVec 1) : Word := if x = 1#1 then sext (v.extractLsb' 16 16) else sext (v.extractLsb' 0 16)

/-- The same halfword as 16 bits. -/
def halfPart (v : Word) (x : BitVec 1) : Half := if x = 1#1 then v.extractLsb' 16 16 else v.extractLsb' 0 16

/-- The byte that a two-bit part selects: 0 the bottom, 3 the top (R357). -/
def bytePart (v : Word) (p : BitVec 2) : Byte := v.extractLsb' (8 * p.toNat) 8

/-- `v` with bits `pos + w - 1` down to `pos` replaced by the low `w` bits of `x`. -/
def insertField (v : Word) (pos w : Nat) (x : Word) : Word :=
  let mask := BitVec.ofNat 32 (2 ^ w - 1) <<< pos
  (v &&& ~~~mask) ||| ((x <<< pos) &&& mask)

/-- `{v[7:0], v[15:8], v[23:16], v[31:24]}`. -/
def swapBytes (v : Word) : Word := v.extractLsb' 0 8 ++ v.extractLsb' 8 8 ++ v.extractLsb' 16 8 ++ v.extractLsb' 24 8

/-- The halfword with its two bytes swapped. -/
def swapHalf (v : Half) : Half := v.extractLsb' 0 8 ++ v.extractLsb' 8 8

/-! Saturation (R24): on exact integers. -/

def satS (n : Nat) (x : Int) : Int :=
  if x > 2 ^ (n - 1) - 1 then 2 ^ (n - 1) - 1 else if x < -2 ^ (n - 1) then -2 ^ (n - 1) else x

def satSU (n : Nat) (x : Int) : Int := if x > 2 ^ n - 1 then 2 ^ n - 1 else if x < 0 then 0 else x

def satU (n : Nat) (x : Int) : Int := if x > 2 ^ n - 1 then 2 ^ n - 1 else x

/-! Effective addresses (R740). -/

/-- `Rb[Ri << sa]`. -/
def State.indexed (s : State) (rb ri : RegNo) (sa : BitVec 2) : Word := s.getReg rb + (s.getReg ri <<< sa.toNat)

/-- `Rp[disp]` with a sign-extended displacement scaled by `2 ^ k`. -/
def State.dispS {n : Nat} (s : State) (rp : RegNo) (disp : BitVec n) (k : Nat) : Word := s.getReg rp + (sext disp <<< k)

/-- `Rp[disp]` with a zero-extended displacement scaled by `2 ^ k`. -/
def State.dispZ {n : Nat} (s : State) (rp : RegNo) (disp : BitVec n) (k : Nat) : Word := s.getReg rp + (zext disp <<< k)

/-- The word that holds the address in R`i` (R703, R766, R767, R818). -/
def State.wordBase (s : State) (i : RegNo) : Word := s.getReg i &&& 0xFFFFFFFC#32

/-! Register lists (R359). -/

/-- The registers a 16-bit list names, lowest first. -/
def listAscending (list : BitVec 16) : List RegNo :=
  ((List.range 16).filter (fun i => list.getLsbD i)).map (BitVec.ofNat 4)

/-- Reglist8 of pushm and popm as a 16-bit list. -/
def reglist8 (list : BitVec 8) : BitVec 16 :=
  (if list.getLsbD 0 then 0x000F#16 else 0#16) ||| (if list.getLsbD 1 then 0x00F0#16 else 0#16) |||
  (if list.getLsbD 2 then 0x0300#16 else 0#16) ||| (if list.getLsbD 3 then 0x0400#16 else 0#16) |||
  (if list.getLsbD 4 then 0x0800#16 else 0#16) ||| (if list.getLsbD 5 then 0x1000#16 else 0#16) |||
  (if list.getLsbD 6 then 0x4000#16 else 0#16) ||| (if list.getLsbD 7 then 0x8000#16 else 0#16)

/-- Words stored upwards from `a`, in the order given. -/
def storesUp (a : Word) : List Word → List (Word × Word)
  | [] => []
  | v :: vs => (a, v) :: storesUp (a + 4#32) vs

/-- Words stored downwards below `a`, in the order given. -/
def storesDown (a : Word) : List Word → List (Word × Word)
  | [] => []
  | v :: vs => (a - 4#32, v) :: storesDown (a - 4#32) vs

/-- Write the values to the registers, in order. -/
def State.setRegs (s : State) : List (RegNo × Word) → State
  | [] => s
  | (i, v) :: rest => (s.setReg i v).setRegs rest

/-! How an instruction of `len` bytes ends. -/

/-- It writes `v` to R`d` and changes the flags of `u`. -/
def State.finishReg (s : State) (len : Word) (d : RegNo) (v : Word) (u : FlagUpdate) : Host.Outcome State Fault Refusal :=
  .next (((s.advance len).setReg d v).setFlags u)

/-- It changes only flags. -/
def State.finishFlags (s : State) (len : Word) (u : FlagUpdate) : Host.Outcome State Fault Refusal :=
  .next ((s.advance len).setFlags u)

/-- It writes the register pair `R[d+1]:R[d]`. -/
def State.finishPair (s : State) (len : Word) (d : RegNo) (v : BitVec 64) : Host.Outcome State Fault Refusal :=
  .next ((s.advance len).setPair d (v.extractLsb' 32 32) (v.extractLsb' 0 32))

/-- It does nothing but advance the PC. -/
def State.finishNop (s : State) (len : Word) : Host.Outcome State Fault Refusal := .next (s.advance len)

/-- It loads R`d`. -/
def State.finishLoad (s : State) (len : Word) (d : RegNo) (r : Res Word) : Host.Outcome State Fault Refusal :=
  (r.bind fun v s1 => .ok ((s1.advance len).setReg d v) s).finish

/-- It loads R`d` and moves the pointer R`p` to `ptr`; with `d = p` the register holds any value (R745, U44). -/
def State.finishLoadPtr (s : State) (len : Word) (d p : RegNo) (ptr : Word) (r : Res Word) : Host.Outcome State Fault Refusal :=
  (r.bind fun v s1 =>
    .ok (if d = p then (s1.advance len).freeRegs [d] else ((s1.advance len).setReg d v).setReg p ptr) s).finish

/-- It loads the pair `R[d+1]:R[d]`. -/
def State.finishLoadPair (s : State) (len : Word) (d : RegNo) (r : Res (Word × Word)) : Host.Outcome State Fault Refusal :=
  (r.bind fun v s1 => .ok ((s1.advance len).setPair d v.1 v.2) s).finish

/-- It loads the pair `R[d+1]:R[d]` and moves R`p` to `ptr`; where the three overlap they hold any values (R745, C39). -/
def State.finishLoadPairPtr (s : State) (len : Word) (d p : RegNo) (ptr : Word) (r : Res (Word × Word)) :
    Host.Outcome State Fault Refusal :=
  (r.bind fun v s1 =>
    .ok (if d = p || d + 1#4 = p || d.toNat = p.toNat + 1 then (s1.advance len).freeRegs [d, d + 1#4, p]
         else ((s1.advance len).setPair d v.1 v.2).setReg p ptr) s).finish

/-- It has made its stores. -/
def State.finishStore (s : State) (len : Word) (r : Res Unit) : Host.Outcome State Fault Refusal :=
  (r.bind fun _ s1 => .ok (s1.advance len) s).finish

/-- It has made its stores and moves the pointer R`p` to `ptr`. -/
def State.finishStorePtr (s : State) (len : Word) (p : RegNo) (ptr : Word) (r : Res Unit) : Host.Outcome State Fault Refusal :=
  (r.bind fun _ s1 => .ok ((s1.advance len).setReg p ptr) s).finish

/-- `k` where the condition holds; otherwise the PC only advances. -/
def State.ifCond (s : State) (c : Cond) (len : Word) (k : Host.Outcome State Fault Refusal) : Host.Outcome State Fault Refusal :=
  if s.cond c then k else s.finishNop len

end Sys2Proof.Machine
end

