-- ==== Sys2Proof/Machine/SysRegs.lean ====
section
/-! DEFINITION. The system registers as mfsr and mtsr see them (10_state.md R130 to R152), and the TLB and MPU registers among them
(20_memory.md R241 to R246, R284 to R294). -/

namespace Sys2Proof.Machine

/-- CONFIG0 (R151). Bits 23 to 20 are "Reserved for future use", and no rule says how they read: they read 0 (DESIGN CHOICE,
notes/assumptions/6.md). -/
def config0 (cfg : Params) : Word :=
  let bit (b : Bool) : BitVec 1 := if b then 1#1 else 0#1
  let mmut : BitVec 3 := match cfg.mmut with
    | .none => 0#3
    | .split => 1#3
    | .shared => 2#3
    | .mpu => 3#3
  let units := bit cfg.hasFpu ++ bit cfg.hasJava ++ bit cfg.hasPerf ++ bit cfg.hasOcd ++ bit cfg.hasSimd ++ bit cfg.hasDsp ++ bit cfg.hasRmw
  cfg.procId ++ 0#4 ++ cfg.procRev ++ (bit cfg.archB).setWidth 3 ++ cfg.archRev.setWidth 3 ++ mmut ++ units

/-- CONFIG1 (R152). -/
def config1 (cfg : Params) : Word := cfg.immuSz ++ cfg.dmmuSz ++ cfg.cacheGeometry

/-- The Accessed bits of entries `base` to `base + 31` of the TLB that TLBEHI[I] names, entry `base` in bit 31 (R246). -/
def State.accessedBits (s : State) (base : Nat) : Word :=
  let instr := s.mmu.tlbehi.getLsbD 8
  let entries := (s.tlb instr).toList.take (s.tlbSize instr)
  BitVec.ofNat 32 ((List.range 32).foldl (fun acc i => 2 * acc + (if (entries.getD (base + i) TlbEntry.invalid).a then 1 else 0)) 0)

/-- The value of a register that exists where `b`. -/
def ifUnit (b : Bool) (v : Word) : Option Word := if b then some v else none

/-- `SYSREG[n]`, none where the register does not exist (R130 to R132, R146). An optional register exists where its unit is there and
`SYSREG_IMPLEMENTED` lists it (R16; that a unit acts on one that is not listed is a DESIGN CHOICE, notes/assumptions/38.md); registers 103 to
111 need revision 3 (R4, R145). -/
def State.readSysReg (s : State) (n : BitVec 8) : Option Word :=
  let b := s.cfg.archB
  let o := listed s.cfg n.toNat
  let j := s.cfg.hasJava && o
  let t := hasMmu s.cfg && o
  let p := s.cfg.hasPerf && o
  let m := s.cfg.mmut == .mpu && o
  let x := hasSecure s.cfg && o
  let k := n.toNat
  if k = 0 then some s.sr
  else if k = 1 then some s.ctl.evba
  else if k = 2 then some s.ctl.acba
  else if k = 3 then some s.ctl.cpucr
  else if k = 4 then ifUnit o s.ctl.ecr
  else if k = 5 then ifUnit b s.ret.rsrSup
  else if k = 6 then ifUnit b s.ret.rsrInt0
  else if k = 7 then ifUnit b s.ret.rsrInt1
  else if k = 8 then ifUnit b s.ret.rsrInt2
  else if k = 9 then ifUnit b s.ret.rsrInt3
  else if k = 10 then ifUnit b s.ret.rsrEx
  else if k = 11 then ifUnit b s.ret.rsrNmi
  else if k = 12 then ifUnit o s.ret.rsrDbg
  else if k = 13 then ifUnit b s.ret.rarSup
  else if k = 14 then ifUnit b s.ret.rarInt0
  else if k = 15 then ifUnit b s.ret.rarInt1
  else if k = 16 then ifUnit b s.ret.rarInt2
  else if k = 17 then ifUnit b s.ret.rarInt3
  else if k = 18 then ifUnit b s.ret.rarEx
  else if k = 19 then ifUnit b s.ret.rarNmi
  else if k = 20 then ifUnit o s.ret.rarDbg
  else if k = 21 then ifUnit j s.java.jecr
  else if k = 22 then ifUnit j s.java.josp
  else if k ≤ 30 then ifUnit j (s.java.lv.toList.getD (k - 23) 0#32)
  else if k = 31 then ifUnit j s.java.jtba
  else if k = 32 then ifUnit j s.java.jbcr
  else if k = 64 then some (config0 s.cfg)
  else if k = 65 then some (config1 s.cfg)
  else if k = 66 then some s.timer.count
  else if k = 67 then some s.timer.compare
  else if k = 68 then ifUnit t s.mmu.tlbehi
  else if k = 69 then ifUnit t s.mmu.tlbelo
  else if k = 70 then ifUnit t s.mmu.ptbr
  else if k = 71 then ifUnit t s.mmu.tlbear
  else if k = 72 then ifUnit t s.mmu.mmucr
  else if k = 73 then ifUnit t (s.accessedBits 0)
  else if k = 74 then ifUnit t (s.accessedBits 32)
  else if k = 75 then ifUnit p s.perf.pccnt
  else if k = 76 then ifUnit p s.perf.pcnt0
  else if k = 77 then ifUnit p s.perf.pcnt1
  else if k = 78 then ifUnit p s.perf.pccr
  else if k = 79 then ifUnit o s.ctl.bear
  else if 80 ≤ k ∧ k ≤ 87 then ifUnit (m && k - 80 < mpuRegions s.cfg) (s.mpu.ar.toList.getD (k - 80) 0#32)
  else if 88 ≤ k ∧ k ≤ 95 then ifUnit (m && k - 88 < mpuRegions s.cfg) (s.mpu.psr.toList.getD (k - 88) 0#32)
  else if k = 96 then ifUnit m s.mpu.cra
  else if k = 97 then ifUnit m s.mpu.crb
  else if k = 98 then ifUnit m s.mpu.bra
  else if k = 99 then ifUnit m s.mpu.brb
  else if k = 100 then ifUnit m s.mpu.apra
  else if k = 101 then ifUnit m s.mpu.aprb
  else if k = 102 then ifUnit m s.mpu.cr
  else if k = 103 then ifUnit x s.sec.status
  else if k = 104 then ifUnit x s.sec.adrf
  else if k = 105 then ifUnit x s.sec.adrr
  else if k = 106 then ifUnit x s.sec.adr0
  else if k = 107 then ifUnit x s.sec.adr1
  else if k = 108 then ifUnit x s.spSys
  else if k = 109 then ifUnit x s.spApp
  else if k = 110 then ifUnit x s.sec.rar
  else if k = 111 then ifUnit x s.sec.rsr
  else if 192 ≤ k then ifUnit o (s.impl.toList.getD (k - 192) 0#32)
  else none

/-- Every entry of a TLB invalid (R258). -/
def invalidateTlb (t : Vector TlbEntry 64) : Vector TlbEntry 64 :=
  ⟨(t.toList.map (fun e => { e with v := false })).toArray, by simp⟩

/-- A write of MMUCR: I = 1 invalidates every entry and is not stored; bits 7 to 5 are reserved (R245, R258, D29). -/
def MmuRegs.writeMmucr (m : MmuRegs) (v : Word) : MmuRegs :=
  if v.getLsbD 2 then { m with mmucr := v &&& 0xFFFFFF1B#32, itlb := invalidateTlb m.itlb, dtlb := invalidateTlb m.dtlb }
  else { m with mmucr := v &&& 0xFFFFFF1B#32 }

/-- The bits of PCCR that are stored (R1163). -/
def pccrStored : Word := 0x00FFF779#32

/-- A write of PCCR (R1163): F is cleared by ones; C resets PCCNT and R resets all three counters. -/
def PerfRegs.writePccr (p : PerfRegs) (v : Word) : PerfRegs :=
  let f := p.pccr &&& ~~~v &&& 0x00000700#32
  { p with
    pccr := (v &&& (pccrStored &&& 0xFFFFF8FF#32)) ||| f
    pccnt := if v.getLsbD 2 || v.getLsbD 1 then 0#32 else p.pccnt
    pcnt0 := if v.getLsbD 1 then 0#32 else p.pcnt0
    pcnt1 := if v.getLsbD 1 then 0#32 else p.pcnt1 }

/-- `v` at index `i` of a vector, where the index exists. -/
def setAt {α : Type} {n : Nat} (x : Vector α n) (i : Nat) (v : α) : Vector α n := if h : i < n then x.set i v else x

/-- What a write of `v` leaves in CPUCR: `CPUCR_BEHAVIOUR` (R134, D12). -/
def State.cpucrAfter (s : State) (v : Word) : Word :=
  match s.cfg.cpucr with
  | .storage => v
  | .own => Config.cpucrStored s.ctl.cpucr v

/-- The write `t` where `ok`; elsewhere no register is updated (R146). -/
def State.writeIf (s : State) (ok : Bool) (t : State) : State := if ok then t else s

/-- `SYSREG[n] <- v` with the side effects of R914. A register that does not exist or is read-only is not updated (R146); JOSP opens the hazard
window (R1223). Reserved bits of MPUARn, MPUPSRn and MPUCR read 0 and ignore writes (D10); that bits 31 to 8 of MPUCRA, MPUCRB, MPUBRA and MPUBRB do
so too, which R293 and R294 only call reserved and D10 does not name, is a DESIGN CHOICE, notes/assumptions/6.md. -/
def State.writeSysReg (s : State) (n : BitVec 8) (v : Word) : State :=
  let b := s.cfg.archB
  let o := listed s.cfg n.toNat
  let j := s.cfg.hasJava && o
  let t := hasMmu s.cfg && o
  let p := s.cfg.hasPerf && o
  let m := s.cfg.mmut == .mpu && o
  let x := hasSecure s.cfg && o && s.srBit bitSS
  let k := n.toNat
  if k = 0 then s.writeSr v
  else if k = 1 then { s with ctl := { s.ctl with evba := v } }
  else if k = 2 then { s with ctl := { s.ctl with acba := v } }
  else if k = 3 then { s with ctl := { s.ctl with cpucr := s.cpucrAfter v } }
  else if k = 4 then s.writeIf o { s with ctl := { s.ctl with ecr := v } }
  else if k = 5 then s.writeIf b { s with ret := { s.ret with rsrSup := v } }
  else if k = 6 then s.writeIf b { s with ret := { s.ret with rsrInt0 := v } }
  else if k = 7 then s.writeIf b { s with ret := { s.ret with rsrInt1 := v } }
  else if k = 8 then s.writeIf b { s with ret := { s.ret with rsrInt2 := v } }
  else if k = 9 then s.writeIf b { s with ret := { s.ret with rsrInt3 := v } }
  else if k = 10 then s.writeIf b { s with ret := { s.ret with rsrEx := v } }
  else if k = 11 then s.writeIf b { s with ret := { s.ret with rsrNmi := v } }
  else if k = 12 then s.writeIf o { s with ret := { s.ret with rsrDbg := v } }
  else if k = 13 then s.writeIf b { s with ret := { s.ret with rarSup := v } }
  else if k = 14 then s.writeIf b { s with ret := { s.ret with rarInt0 := v } }
  else if k = 15 then s.writeIf b { s with ret := { s.ret with rarInt1 := v } }
  else if k = 16 then s.writeIf b { s with ret := { s.ret with rarInt2 := v } }
  else if k = 17 then s.writeIf b { s with ret := { s.ret with rarInt3 := v } }
  else if k = 18 then s.writeIf b { s with ret := { s.ret with rarEx := v } }
  else if k = 19 then s.writeIf b { s with ret := { s.ret with rarNmi := v } }
  else if k = 20 then s.writeIf o { s with ret := { s.ret with rarDbg := v } }
  else if k = 21 then s.writeIf j { s with java := { s.java with jecr := v } }
  else if k = 22 then s.writeIf j { s with java := { s.java with josp := v }, hazardLeft := s.cfg.jospHazard }
  else if k ≤ 30 then s.writeIf j { s with java := { s.java with lv := setAt s.java.lv (k - 23) v } }
  else if k = 31 then s.writeIf j { s with java := { s.java with jtba := v } }
  else if k = 32 then s.writeIf j { s with java := { s.java with jbcr := v } }
  else if k = 66 then { s with timer := { s.timer with count := v } }
  else if k = 67 then { s with timer := { s.timer with compare := v, compareIrq := false } }
  else if k = 68 then s.writeIf t { s with mmu := { s.mmu with tlbehi := v } }
  else if k = 69 then s.writeIf t { s with mmu := { s.mmu with tlbelo := v } }
  else if k = 70 then s.writeIf t { s with mmu := { s.mmu with ptbr := v } }
  else if k = 71 then s.writeIf t { s with mmu := { s.mmu with tlbear := v } }
  else if k = 72 then s.writeIf t { s with mmu := s.mmu.writeMmucr v }
  else if k = 75 then s.writeIf p { s with perf := { s.perf with pccnt := v } }
  else if k = 76 then s.writeIf p { s with perf := { s.perf with pcnt0 := v } }
  else if k = 77 then s.writeIf p { s with perf := { s.perf with pcnt1 := v } }
  else if k = 78 then s.writeIf p { s with perf := s.perf.writePccr v }
  else if 80 ≤ k ∧ k ≤ 87 then
    s.writeIf (m && k - 80 < mpuRegions s.cfg) { s with mpu := { s.mpu with ar := setAt s.mpu.ar (k - 80) (v &&& 0xFFFFF03F#32) } }
  else if 88 ≤ k ∧ k ≤ 95 then
    s.writeIf (m && k - 88 < mpuRegions s.cfg) { s with mpu := { s.mpu with psr := setAt s.mpu.psr (k - 88) (v &&& 0x0000FFFF#32) } }
  else if k = 96 then s.writeIf m { s with mpu := { s.mpu with cra := v &&& 0x000000FF#32 } }
  else if k = 97 then s.writeIf m { s with mpu := { s.mpu with crb := v &&& 0x000000FF#32 } }
  else if k = 98 then s.writeIf m { s with mpu := { s.mpu with bra := v &&& 0x000000FF#32 } }
  else if k = 99 then s.writeIf m { s with mpu := { s.mpu with brb := v &&& 0x000000FF#32 } }
  else if k = 100 then s.writeIf m { s with mpu := { s.mpu with apra := v } }
  else if k = 101 then s.writeIf m { s with mpu := { s.mpu with aprb := v } }
  else if k = 102 then s.writeIf m { s with mpu := { s.mpu with cr := v &&& 0x00000001#32 } }
  else if k = 103 then s.writeIf x { s with sec := { s.sec with status := v } }
  else if k = 104 then s.writeIf x { s with sec := { s.sec with adrf := v } }
  else if k = 105 then s.writeIf x { s with sec := { s.sec with adrr := v } }
  else if k = 106 then s.writeIf x { s with sec := { s.sec with adr0 := v } }
  else if k = 107 then s.writeIf x { s with sec := { s.sec with adr1 := v } }
  else if k = 110 then s.writeIf x { s with sec := { s.sec with rar := v } }
  else if k = 111 then s.writeIf x { s with sec := { s.sec with rsr := v } }
  else if 192 ≤ k then
    s.writeIf o { s with impl := setAt s.impl (k - 192) (Config.implStored n (s.impl.toList.getD (k - 192) 0#32) v) }
  else s

end Sys2Proof.Machine
end

