-- ==== Sys2Proof/Machine/Clock.lean ====
section
/-! DEFINITION. Time (61_timers_counters_secure_state.md R1150 to R1164): what the clock does to COUNT and the performance counters in one step.
The cycles of a step are counted after its instruction or event, with the registers as that left them (notes/assumptions/9.md). -/

namespace Sys2Proof.Machine

/-- `COUNT_CLEAR_ON_MATCH`: true below revision 3, where nothing can clear it; from revision 3 on the configuration's, or what CPUCR makes of
it (R134, R1150). -/
def State.clearsOnMatch (s : State) : Bool :=
  !hasRev s.cfg 3 ||
    match s.cfg.cpucr with
    | .storage => s.cfg.countClear
    | .own => Config.cpucrClears s.ctl.cpucr

/-- One cycle of COUNT and COMPARE (R1150). -/
def State.tickTimer (s : State) : State :=
  if s.timer.compare ≠ 0#32 ∧ s.timer.count = s.timer.compare then
    { s with timer := { s.timer with compareIrq := true, count := if s.clearsOnMatch then 0#32 else s.timer.count + 1#32 } }
  else { s with timer := { s.timer with count := s.timer.count + 1#32 } }

/-- `p` with overflow flag `k` of PCCR set where `b` (R1161, R1162). -/
def PerfRegs.overflow (p : PerfRegs) (k : Nat) (b : Bool) : PerfRegs := if b then { p with pccr := setBit p.pccr k true } else p

/-- PCCNT goes up by one (R1161). -/
def PerfRegs.countClock (p : PerfRegs) : PerfRegs :=
  { p with pccnt := p.pccnt + 1#32 }.overflow 8 (p.pccnt == 0xFFFFFFFF#32)

/-- One cycle of PCCNT while PCCR[E] is set; with PCCR[S] only every 64th counts (R1161). -/
def PerfRegs.tick (p : PerfRegs) : PerfRegs :=
  if !p.pccr.getLsbD 0 then p
  else if !p.pccr.getLsbD 3 then p.countClock
  else if p.prescaler = 63#6 then { p with prescaler := 0#6 }.countClock
  else { p with prescaler := p.prescaler + 1#6 }

/-- One clock cycle. -/
def State.tick (s : State) : State :=
  let s1 := s.tickTimer
  if s1.cfg.hasPerf then { s1 with perf := s1.perf.tick } else s1

def State.ticks (s : State) : Nat → State
  | 0 => s
  | n + 1 => s.tick.ticks n

/-- PCNT0 goes up by `n` (R1162). -/
def PerfRegs.count0 (p : PerfRegs) (n : Nat) : PerfRegs :=
  { p with pcnt0 := p.pcnt0 + BitVec.ofNat 32 n }.overflow 9 (2 ^ 32 ≤ p.pcnt0.toNat + n)

/-- PCNT1 goes up by `n` (R1162). -/
def PerfRegs.count1 (p : PerfRegs) (n : Nat) : PerfRegs :=
  { p with pcnt1 := p.pcnt1 + BitVec.ofNat 32 n }.overflow 10 (2 ^ 32 ≤ p.pcnt1.toNat + n)

/-- How often the event `conf` of Table 7-2 occurred in a step: exactly for ITLB Miss, DTLB Miss and the completed instruction, never for a
reserved code (U53), and the step's input `n` for the events of a cache, a pipeline or a predictor (R1163). -/
def perfEvents (conf : BitVec 6) (taken : Option Event) (completed : Bool) (n : Nat) : Nat :=
  if conf = 3#6 then
    match taken with
    | some (.itlbMiss _) => 1
    | _ => 0
  else if conf = 4#6 then
    match taken with
    | some (.dtlbMissRead _) => 1
    | some (.dtlbMissWrite _) => 1
    | _ => 0
  else if conf = 7#6 then (if completed then 1 else 0)
  else if 0x1A ≤ conf.toNat then 0
  else n

/-- PCNT0 and PCNT1 after a step (R1162, R1163). -/
def State.countEvents (s : State) (completed : Bool) : State :=
  if s.cfg.hasPerf && s.perf.pccr.getLsbD 0 then
    let n0 := perfEvents (s.perf.pccr.extractLsb' 12 6) s.taken completed s.now.perf0
    let n1 := perfEvents (s.perf.pccr.extractLsb' 18 6) s.taken completed s.now.perf1
    { s with perf := (s.perf.count0 n0).count1 n1 }
  else s

/-- A sleep that stops the clock went on through the step (R1180). -/
def clockStopped (before after : State) : Bool :=
  before.sleeping.isSome &&
    match after.sleeping with
    | some op => after.cfg.sleepStopsClock.contains op
    | none => false

/-- The time of one step, from the state `before` it to the state `s` it left; `completed` says that an instruction completed in it. -/
def State.clock (s before : State) (completed : Bool) : State :=
  let s1 := if clockStopped before s then s else s.ticks (s.now.extraCycles + 1)
  s1.countEvents (completed && s.taken.isNone)

/-- The performance-counter interrupt request, an output of the core (R1164, D54). -/
def State.perfIrq (s : State) : Bool :=
  s.cfg.hasPerf && (s.perf.pccr.extractLsb' 4 3 &&& s.perf.pccr.extractLsb' 8 3) != 0#3

end Sys2Proof.Machine
end

