-- ==== Sys2Proof/Machine/Arith.lean ====
section
/-! DEFINITION. Arithmetic instructions (40_arithmetic.md R450 to R472). -/

namespace Sys2Proof.Machine

abbrev Out := Host.Outcome State Fault Refusal

/-- SR[C] as a word. -/
def State.carry (s : State) : Word := if s.flagC then 1#32 else 0#32

/-- The absolute value; the most negative number is its own (R451). -/
def absWord (v : Word) : Word := if v.msb then 0#32 - v else v

/-- `R[d] <- a + b` with the flags of the addition. -/
def State.addInto (s : State) (len : Word) (d : RegNo) (a b : Word) : Out :=
  s.finishReg len d (a + b) (addFlags a b (a + b))

/-- `R[d] <- a - b` with the flags of the subtraction. -/
def State.subInto (s : State) (len : Word) (d : RegNo) (a b : Word) : Out :=
  s.finishReg len d (a - b) (subFlags a b (a - b))

/-- R451. -/
def execAbs (rd : RegNo) (s : State) : Out :=
  let r := absWord (s.getReg rd)
  s.finishReg 2#32 rd r (zeroFlag r)

/-- R452. -/
def execAcr (rd : RegNo) (s : State) : Out :=
  let a := s.getReg rd
  let r := a + s.carry
  s.finishReg 2#32 rd r (stickyZ s.flagZ { v := some (r.msb && !a.msb), n := some r.msb, z := some (r == 0), c := some (!r.msb && a.msb) })

/-- R453. -/
def execAdc (rd rx ry : RegNo) (s : State) : Out :=
  let r := s.getReg rx + s.getReg ry + s.carry
  s.finishReg 4#32 rd r (stickyZ s.flagZ (addFlags (s.getReg rx) (s.getReg ry) r))

/-- R454. -/
def execAdd (f : AddForm) (s : State) : Out :=
  match f with
  | .formI rd rs => s.addInto 2#32 rd (s.getReg rd) (s.getReg rs)
  | .formII rd rx ry sa => s.addInto 4#32 rd (s.getReg rx) (s.getReg ry <<< sa.toNat)

/-- R455. -/
def execAddCond (c : Cond) (rd rx ry : RegNo) (s : State) : Out :=
  requireUnit (hasRev s.cfg 2) s (s.ifCond c 4#32 (s.finishReg 4#32 rd (s.getReg rx + s.getReg ry) noFlags))

/-- R456. -/
def execAddabs (rd rx ry : RegNo) (s : State) : Out :=
  let r := s.getReg rx + absWord (s.getReg ry)
  s.finishReg 4#32 rd r (zeroFlag r)

/-- R457: the comparison of the low bytes. -/
def execCpB (rd rs : RegNo) (s : State) : Out :=
  let a := (s.getReg rd).setWidth 8
  let b := (s.getReg rs).setWidth 8
  s.finishFlags 4#32 (subFlags a b (a - b))

/-- R458: the comparison of the low halfwords. -/
def execCpH (rd rs : RegNo) (s : State) : Out :=
  let a := (s.getReg rd).setWidth 16
  let b := (s.getReg rs).setWidth 16
  s.finishFlags 4#32 (subFlags a b (a - b))

/-- R459. -/
def execCpW (f : CpwForm) (s : State) : Out :=
  match f with
  | .formI rd rs => s.finishFlags 2#32 (subFlags (s.getReg rd) (s.getReg rs) (s.getReg rd - s.getReg rs))
  | .formII rd imm => s.finishFlags 2#32 (subFlags (s.getReg rd) (sext imm) (s.getReg rd - sext imm))
  | .formIII rd imm => s.finishFlags 4#32 (subFlags (s.getReg rd) (sext imm) (s.getReg rd - sext imm))

/-- The flags of `a - b - C` with a sticky Z (R460, R466). -/
def State.subCarryFlags (s : State) (a b : Word) : FlagUpdate := stickyZ s.flagZ (subFlags a b (a - b - s.carry))

/-- R460. -/
def execCpc (f : CpcForm) (s : State) : Out :=
  match f with
  | .formI rd rs => s.finishFlags 4#32 (s.subCarryFlags (s.getReg rd) (s.getReg rs))
  | .formII rd => s.finishFlags 2#32 (s.subCarryFlags (s.getReg rd) 0#32)

/-- R461. -/
def execMax (rd rx ry : RegNo) (s : State) : Out :=
  s.finishReg 4#32 rd (if (s.getReg ry).slt (s.getReg rx) then s.getReg rx else s.getReg ry) noFlags

/-- R462. -/
def execMin (rd rx ry : RegNo) (s : State) : Out :=
  s.finishReg 4#32 rd (if (s.getReg rx).slt (s.getReg ry) then s.getReg rx else s.getReg ry) noFlags

/-- R463. -/
def execNeg (rd : RegNo) (s : State) : Out :=
  let a := s.getReg rd
  let r := 0#32 - a
  s.finishReg 2#32 rd r { v := some (a.msb && r.msb), n := some r.msb, z := some (r == 0), c := some (a.msb || r.msb) }

/-- R464. -/
def execRsub (f : RsubForm) (s : State) : Out :=
  match f with
  | .formI rd rs => s.subInto 2#32 rd (s.getReg rs) (s.getReg rd)
  | .formII rd rs imm => s.subInto 4#32 rd (sext imm) (s.getReg rs)

/-- R465. -/
def execRsubCond (c : Cond) (rd : RegNo) (imm : BitVec 8) (s : State) : Out :=
  requireUnit (hasRev s.cfg 2) s (s.ifCond c 4#32 (s.finishReg 4#32 rd (sext imm - s.getReg rd) noFlags))

/-- R466. -/
def execSbc (rd rx ry : RegNo) (s : State) : Out :=
  s.finishReg 4#32 rd (s.getReg rx - s.getReg ry - s.carry) (s.subCarryFlags (s.getReg rx) (s.getReg ry))

/-- R467. -/
def execScr (rd : RegNo) (s : State) : Out :=
  let a := s.getReg rd
  let r := a - s.carry
  s.finishReg 2#32 rd r (stickyZ s.flagZ { v := some (a.msb && !r.msb), n := some r.msb, z := some (r == 0), c := some (!a.msb && r.msb) })

/-- R470; with Rd = SP the immediate of format III counts words. -/
def execSub (f : SubForm) (s : State) : Out :=
  match f with
  | .formI rd rs => s.subInto 2#32 rd (s.getReg rd) (s.getReg rs)
  | .formII rd rx ry sa => s.subInto 4#32 rd (s.getReg rx) (s.getReg ry <<< sa.toNat)
  | .formIII rd imm => s.subInto 2#32 rd (s.getReg rd) (if rd = 13#4 then sext imm <<< 2 else sext imm)
  | .formIV rd imm => s.subInto 4#32 rd (s.getReg rd) (sext imm)
  | .formV rd rs imm => s.subInto 4#32 rd (s.getReg rs) (sext imm)

/-- R471; bit F clear updates the flags. -/
def execSubCond (f : SubCondForm) (s : State) : Out :=
  match f with
  | .formI c rd f imm =>
    let a := s.getReg rd
    s.ifCond c 4#32 (s.finishReg 4#32 rd (a - sext imm) (if f = 0#1 then subFlags a (sext imm) (a - sext imm) else noFlags))
  | .formII c rd rx ry =>
    requireUnit (hasRev s.cfg 2) s (s.ifCond c 4#32 (s.finishReg 4#32 rd (s.getReg rx - s.getReg ry) noFlags))

/-- R472: Z is 1 where some byte is zero. -/
def execTnbz (rd : RegNo) (s : State) : Out :=
  let a := s.getReg rd
  s.finishFlags 2#32
    { z := some (bytePart a 3#2 == 0 || bytePart a 2#2 == 0 || bytePart a 1#2 == 0 || bytePart a 0#2 == 0) }

end Sys2Proof.Machine
end

