-- ==== Sys2Proof/Machine/Logic.lean ====
section
/-! DEFINITION. Logic instructions (43_logic_bit.md R600 to R615). -/

namespace Sys2Proof.Machine

/-- `R[d] <- r` with the logic flags. -/
def State.logicInto (s : State) (len : Word) (d : RegNo) (r : Word) : Out := s.finishReg len d r (logicFlags r)

/-- The three formats of and, eor and or (R600 (c)). -/
def State.logicForm (s : State) (op : Word → Word → Word) : LogicForm → Out
  | .formI rd rs => s.logicInto 2#32 rd (op (s.getReg rd) (s.getReg rs))
  | .formII rd rx ry sa => s.logicInto 4#32 rd (op (s.getReg rx) (s.getReg ry <<< sa.toNat))
  | .formIII rd rx ry sa => s.logicInto 4#32 rd (op (s.getReg rx) (s.getReg ry >>> sa.toNat))

/-- The conditional forms of revision 2, which change no flag. -/
def State.logicCond (s : State) (op : Word → Word → Word) (c : Cond) (rd rx ry : RegNo) : Out :=
  requireUnit (hasRev s.cfg 2) s (s.ifCond c 4#32 (s.finishReg 4#32 rd (op (s.getReg rx) (s.getReg ry)) noFlags))

/-- The high and the low halfword. -/
def hi16 (v : Word) : Half := v.extractLsb' 16 16
def lo16 (v : Word) : Half := v.extractLsb' 0 16

/-- R601. -/
def execAnd (f : LogicForm) (s : State) : Out := s.logicForm (fun a b => a &&& b) f

/-- R602. -/
def execAndCond (c : Cond) (rd rx ry : RegNo) (s : State) : Out := s.logicCond (fun a b => a &&& b) c rd rx ry

/-- R607. -/
def execEor (f : LogicForm) (s : State) : Out := s.logicForm (fun a b => a ^^^ b) f

/-- R608. -/
def execEorCond (c : Cond) (rd rx ry : RegNo) (s : State) : Out := s.logicCond (fun a b => a ^^^ b) c rd rx ry

/-- R611. -/
def execOr (f : LogicForm) (s : State) : Out := s.logicForm (fun a b => a ||| b) f

/-- R612. -/
def execOrCond (c : Cond) (rd rx ry : RegNo) (s : State) : Out := s.logicCond (fun a b => a ||| b) c rd rx ry

/-- R603. -/
def execAndn (rd rs : RegNo) (s : State) : Out := s.logicInto 2#32 rd (s.getReg rd &&& ~~~s.getReg rs)

/-- R604; with COH the low halfword is cleared. -/
def execAndh (rd : RegNo) (coh : BitVec 1) (imm : BitVec 16) (s : State) : Out :=
  let a := s.getReg rd
  s.logicInto 4#32 rd ((hi16 a &&& imm) ++ (if coh = 1#1 then 0#16 else lo16 a))

/-- R605; with COH the high halfword is cleared. -/
def execAndl (rd : RegNo) (coh : BitVec 1) (imm : BitVec 16) (s : State) : Out :=
  let a := s.getReg rd
  s.logicInto 4#32 rd ((if coh = 1#1 then 0#16 else hi16 a) ++ (lo16 a &&& imm))

/-- R606: Z alone. -/
def execCom (rd : RegNo) (s : State) : Out :=
  let r := ~~~s.getReg rd
  s.finishReg 2#32 rd r (zeroFlag r)

/-- R609. -/
def execEorh (rd : RegNo) (imm : BitVec 16) (s : State) : Out :=
  s.logicInto 4#32 rd ((hi16 (s.getReg rd) ^^^ imm) ++ lo16 (s.getReg rd))

/-- R610. -/
def execEorl (rd : RegNo) (imm : BitVec 16) (s : State) : Out :=
  s.logicInto 4#32 rd (hi16 (s.getReg rd) ++ (lo16 (s.getReg rd) ^^^ imm))

/-- R613. -/
def execOrh (rd : RegNo) (imm : BitVec 16) (s : State) : Out :=
  s.logicInto 4#32 rd ((hi16 (s.getReg rd) ||| imm) ++ lo16 (s.getReg rd))

/-- R614. -/
def execOrl (rd : RegNo) (imm : BitVec 16) (s : State) : Out :=
  s.logicInto 4#32 rd (hi16 (s.getReg rd) ++ (lo16 (s.getReg rd) ||| imm))

/-- R615. -/
def execTst (rd rs : RegNo) (s : State) : Out := s.finishFlags 2#32 (logicFlags (s.getReg rd &&& s.getReg rs))

end Sys2Proof.Machine
end

