-- ==== Sys2Proof/Machine/Bit.lean ====
section
/-! DEFINITION. Bit instructions (43_logic_bit.md R630 to R645). -/

namespace Sys2Proof.Machine

/-- The field of R630 to R632 exists: a width of at least 1 that ends inside the word. -/
def fieldOk (bp wd : BitVec 5) : Bool := wd != 0#5 && bp.toNat + wd.toNat ≤ 32

/-- Any value in R`d` and in N, Z and C, and nothing else (U43). -/
def State.finishFieldFree (s : State) (d : RegNo) : Out :=
  .next ((((s.advance 4#32).setReg d s.free).setFlags
    { n := some ((s.freeAt 1).getLsbD bitN), z := some ((s.freeAt 1).getLsbD bitZ), c := some ((s.freeAt 1).getLsbD bitC) }).drawFree 2)

/-- `R[d] <- r` where the field exists, with the flags of R630. -/
def State.finishField (s : State) (d : RegNo) (bp wd : BitVec 5) (r : Word) : Out :=
  if fieldOk bp wd then s.finishReg 4#32 d r (signFlags r) else s.finishFieldFree d

/-- The field of `wd` bits from `bp` on, zero-extended. -/
def extractField (v : Word) (bp wd : BitVec 5) : Word := (v >>> bp.toNat) &&& BitVec.ofNat 32 (2 ^ wd.toNat - 1)

/-- R630. -/
def execBfexts (rd rs : RegNo) (bp wd : BitVec 5) (s : State) : Out :=
  let f := extractField (s.getReg rs) bp wd
  s.finishField rd bp wd ((f <<< (32 - wd.toNat)).sshiftRight (32 - wd.toNat))

/-- R631. -/
def execBfextu (rd rs : RegNo) (bp wd : BitVec 5) (s : State) : Out :=
  s.finishField rd bp wd (extractField (s.getReg rs) bp wd)

/-- R632. -/
def execBfins (rd rs : RegNo) (bp wd : BitVec 5) (s : State) : Out :=
  s.finishField rd bp wd (insertField (s.getReg rd) bp.toNat wd.toNat (s.getReg rs))

/-- R633: C and Z both receive the bit. -/
def execBld (rd : RegNo) (bp : BitVec 5) (s : State) : Out :=
  let b := (s.getReg rd).getLsbD bp.toNat
  s.finishFlags 4#32 { z := some b, c := some b }

/-- R634. -/
def execBrev (rd : RegNo) (s : State) : Out :=
  let r := (s.getReg rd).reverse
  s.finishReg 2#32 rd r (zeroFlag r)

/-- R635. -/
def execBst (rd : RegNo) (bp : BitVec 5) (s : State) : Out :=
  s.finishReg 4#32 rd (setBit (s.getReg rd) bp.toNat s.flagC) noFlags

/-- `R[d] <- r` with the flags of the casts. -/
def State.castInto (s : State) (d : RegNo) (r : Word) : Out := s.finishReg 2#32 d r (signFlags r)

/-- R636. -/
def execCastsB (rd : RegNo) (s : State) : Out := s.castInto rd (sext ((s.getReg rd).extractLsb' 0 8))

/-- R637. -/
def execCastsH (rd : RegNo) (s : State) : Out := s.castInto rd (sext (lo16 (s.getReg rd)))

/-- R638. -/
def execCastuB (rd : RegNo) (s : State) : Out := s.castInto rd (zext ((s.getReg rd).extractLsb' 0 8))

/-- R639. -/
def execCastuH (rd : RegNo) (s : State) : Out := s.castInto rd (zext (lo16 (s.getReg rd)))

/-- R640. -/
def execCbr (rd : RegNo) (bp : BitVec 5) (s : State) : Out :=
  let r := setBit (s.getReg rd) bp.toNat false
  s.finishReg 2#32 rd r (zeroFlag r)

/-- The number of zero bits above the highest 1 among the low `n` bits. -/
def leadingZeros (v : Word) : Nat → Nat
  | 0 => 0
  | n + 1 => if v.getLsbD n then 0 else leadingZeros v n + 1

/-- R641. -/
def execClz (rd rs : RegNo) (s : State) : Out :=
  let n := leadingZeros (s.getReg rs) 32
  s.finishReg 4#32 rd (BitVec.ofNat 32 n) { z := some (n == 0), c := some (n == 32) }

/-- R642. -/
def execSbr (rd : RegNo) (bp : BitVec 5) (s : State) : Out :=
  s.finishReg 2#32 rd (setBit (s.getReg rd) bp.toNat true) { z := some false }

/-- R643. -/
def execSwapB (rd : RegNo) (s : State) : Out := s.finishReg 2#32 rd (swapBytes (s.getReg rd)) noFlags

/-- R644. -/
def execSwapBh (rd : RegNo) (s : State) : Out :=
  s.finishReg 2#32 rd (swapHalf (hi16 (s.getReg rd)) ++ swapHalf (lo16 (s.getReg rd))) noFlags

/-- R645. -/
def execSwapH (rd : RegNo) (s : State) : Out :=
  s.finishReg 2#32 rd (lo16 (s.getReg rd) ++ hi16 (s.getReg rd)) noFlags

end Sys2Proof.Machine
end

