-- ==== Sys2Proof/Machine/Flow.lean ====
section
/-! DEFINITION. Instruction flow (45_flow.md R700 to R732). In this file the PC is the address of the instruction (R730 (a)). -/

namespace Sys2Proof.Machine

/-- The target of a relative branch: a displacement in halfwords (R730 (b)). -/
def State.relative {n : Nat} (s : State) (disp : BitVec n) : Word := s.pc + (sext disp <<< 1)

/-- LR receives the address after the instruction of `len` bytes, and the PC the target (R113). -/
def State.callTo (s : State) (len target : Word) : State := (s.setReg 14#4 (s.pc + len)).jump target

/-- A branch where `taken`, else the next instruction. -/
def State.branch (s : State) (taken : Bool) (len target : Word) : Out := .next (if taken then s.jump target else s.advance len)

/-- R700. A bus error on the word does not keep LR and the PC from being written, though R731 lists it: the instruction completes (R1068), and
jumps to any address (U50; DESIGN CHOICE, notes/assumptions/39.md). -/
def execAcall (disp : BitVec 8) (s : State) : Out :=
  ((loadWord .acall (s.ctl.acba + (zext disp <<< 2)) s).bind fun t s1 => .ok (s1.callTo 2#32 t) s1).finish

/-- R701, format I: the eight codes of cond3 are the first eight of cond4. -/
def execBrCond3 (c : BitVec 3) (disp : BitVec 8) (s : State) : Out := s.branch (s.cond (c.setWidth 4)) 2#32 (s.relative disp)

/-- R701, format II. -/
def execBrCond4 (c : Cond) (disp : BitVec 21) (s : State) : Out := s.branch (s.cond c) 4#32 (s.relative disp)

/-- R702. -/
def execIcall (rd : RegNo) (s : State) : Out := .next (s.callTo 2#32 (s.getReg rd))

/-- R703. After a bus error on the word as acall (R731; DESIGN CHOICE, notes/assumptions/39.md). -/
def execMcall (rp : RegNo) (disp : BitVec 16) (s : State) : Out :=
  ((loadWord .mcall (s.wordBase rp + (sext disp <<< 2)) s).bind fun t s1 => .ok (s1.callTo 4#32 t) s1).finish

/-- R704. -/
def execRcall (f : RcallForm) (s : State) : Out :=
  match f with
  | .formI disp => .next (s.callTo 2#32 (s.relative disp))
  | .formII disp => .next (s.callTo 4#32 (s.relative disp))

/-- R705. -/
def execRjmp (disp : BitVec 10) (s : State) : Out := .next (s.jump (s.relative disp))

/-- What ret{cond4} returns: LR, SP and PC name the constants -1, 0 and 1 (R716). -/
def State.returnValue (s : State) (rs : RegNo) : Word :=
  if rs = 14#4 then 0xFFFFFFFF#32 else if rs = 13#4 then 0#32 else if rs = 15#4 then 1#32 else s.getReg rs

/-- R716: the return address is read before R12 is written. -/
def execRetCond (c : Cond) (rs : RegNo) (s : State) : Out :=
  s.ifCond c 2#32
    (.next (((s.setReg 12#4 (s.returnValue rs)).setFlags (testFlags (s.returnValue rs))).jump (s.getReg 14#4)))

end Sys2Proof.Machine
end

