-- ==== Sys2Proof/Machine/Multi.lean ====
section
/-! DEFINITION. Multiple-register transfers (47_data_transfer_stores_multiple.md R850 to R872). Memory words already written stay when an event
abandons one; registers change only once the last access has succeeded (D44). -/

namespace Sys2Proof.Machine

/-- All sixteen registers, and those a popm can name. -/
def allRegs : List RegNo := listAscending 0xFFFF#16

/-- What an empty list leaves: any value in every register the instruction could write, including the pointer, and no access (U40). -/
def State.finishEmptyList (s : State) (len : Word) (regs : List RegNo) : Out := .next ((s.advance len).freeRegs regs)

/-- The registers of a list with the values loaded for them, highest register from the lowest address. -/
def loadedRegs (list : BitVec 16) (vs : List Word) : List (RegNo × Word) := (listAscending list).reverse.zip vs

/-- R860. -/
def execPushm (list : BitVec 8) (s : State) : Out :=
  let regs := listAscending (reglist8 list)
  if regs.isEmpty then s.finishEmptyList 2#32 [13#4]
  else
    s.finishStorePtr 2#32 13#4 (s.getReg 13#4 - BitVec.ofNat 32 (4 * regs.length))
      (storeWords .pushm (storesDown (s.getReg 13#4) (regs.map s.getReg)) s)

/-- The value that the LR and R12 bits of a list encode: 0, 1 or -1 (R862, R866). -/
def listValue (lr r12 : Bool) : Word := if lr then 0xFFFFFFFF#32 else if r12 then 1#32 else 0#32

/-- Test R12 as the registers now are (R851). -/
def State.testR12 (s : State) : State := s.setFlags (testFlags (s.getReg 12#4))

/-- The end of popm and ldm: the loaded registers but PC, the pointer, the R12 option or test, and last the PC (R862, R866). `r12` is the value
R12 receives by the option. The test is that of R851, of the final R12: with R12 as the pointer it sees the moved pointer, though the pseudocode
of R866 has the write of the pointer behind it (DEDUCED, notes/assumptions/37.md). A PC whose word got a bus error is any address (DESIGN
CHOICE, notes/assumptions/39.md). -/
def State.finishPop (s : State) (len : Word) (regs : List (RegNo × Word)) (ptr : Option (RegNo × Word)) (r12 : Option Word) : State :=
  let s1 := (s.advance len).setRegs (regs.filter (fun p => p.1 != 15#4))
  let s2 := match r12 with
    | some v => s1.setReg 12#4 v
    | none => s1
  let s3 := match ptr with
    | some (p, v) => s2.setReg p v
    | none => s2
  match (regs.find? (fun p => p.1 == 15#4)) with
  | some p => s3.testR12.jump p.2
  | none => s3

/-- R862: with k = 1 and PC in the list, LR and R12 are not popped but encode the value R12 receives. -/
def execPopm (k : BitVec 1) (list : BitVec 8) (s : State) : Out :=
  let l := reglist8 list
  if l = 0#16 then s.finishEmptyList 2#32 allRegs
  else
    let option := k == 1#1 && l.getLsbD 15
    let l1 := if option then l &&& 0xAFFF#16 else l
    let n := (listAscending l1).length
    ((loadWords .popm (s.getReg 13#4) n s).bind fun vs s1 =>
      .ok (s1.finishPop 2#32 (loadedRegs l1 vs) (some (13#4, s.getReg 13#4 + BitVec.ofNat 32 (4 * n)))
        (if option then some (listValue (l.getLsbD 14) (l.getLsbD 12)) else none)) s1).finish

/-- R866: the pointer field 15 with PC in the list is the R12 option, and the words come from the stack. With Rp in the list and write-back Rp
holds any value (U46). -/
def execLdm (rp : RegNo) (wb : BitVec 1) (list : BitVec 16) (s : State) : Out :=
  if list = 0#16 then s.finishEmptyList 4#32 allRegs
  else
    let option := rp == 15#4 && list.getLsbD 15
    let l1 := if option then list &&& 0x8FFF#16 else list
    let base := if option then s.getReg 13#4 else s.getReg rp
    let n := (listAscending l1).length
    let final := base + BitVec.ofNat 32 (4 * n)
    let p := if rp = 15#4 then 13#4 else rp
    let overlap := wb == 1#1 && rp != 15#4 && l1.getLsbD rp.toNat
    ((loadWords .ldm base n s).bind fun vs s1 =>
      .ok ((s1.drawFree (if overlap then 1 else 0)).finishPop 4#32 (loadedRegs l1 vs)
        (if wb = 1#1 then some (p, if overlap then s1.free else final) else none)
        (if option then some (listValue (list.getLsbD 14) (list.getLsbD 12)) else none)) s1).finish

/-- The words a stm or stmts stores: downwards from the lowest register with write-back, upwards from the highest without (R868, R872). -/
def blockStores (a : Word) (wb : BitVec 1) (vs : List Word) : List (Word × Word) :=
  if wb = 1#1 then storesDown a vs else storesUp a vs.reverse

/-- R868; with Rp in the list and write-back the word stored for it and Rp hold any values (U46). -/
def execStm (rp : RegNo) (wb : BitVec 1) (list : BitVec 16) (s : State) : Out :=
  let regs := listAscending list
  if list = 0#16 then s.finishEmptyList 4#32 [rp]
  else
    let overlap := wb == 1#1 && list.getLsbD rp.toNat
    let vs := regs.map (fun i => if overlap && i == rp then s.free else s.getReg i)
    let stores := blockStores (s.getReg rp) wb vs
    let s0 := s.drawFree (if overlap then 2 else 0)
    if wb = 1#1 then
      s.finishStorePtr 4#32 rp (if overlap then s.freeAt 1 else s.getReg rp - BitVec.ofNat 32 (4 * regs.length))
        (storeWords .stm stores s0)
    else s.finishStore 4#32 (storeWords .stm stores s0)

/-- Register `i` of the application context (R108): SP_APP, and the shared copy of every other. -/
def State.readApp (s : State) (i : RegNo) : Word := if i = 13#4 then s.spApp else s.shared.get i

def State.writeApp (s : State) (i : RegNo) (v : Word) : State :=
  if i = 13#4 then { s with spApp := v } else { s with shared := s.shared.set i v }

def State.writeApps (s : State) : List (RegNo × Word) → State
  | [] => s
  | (i, v) :: rest => (s.writeApp i v).writeApps rest

/-- Each application register of the list receives a free value of its own. -/
def State.freeApps (s : State) : List RegNo → State
  | [] => s
  | i :: is => ((s.writeApp i s.free).drawFree 1).freeApps is

/-- The registers of a list but PC. -/
def withoutPc (list : BitVec 16) : List RegNo := listAscending (list &&& 0x7FFF#16)

/-- R870. With PC in the list every register the instruction writes holds any value, and PC does not change (U47) but by a write-back to Rp = PC
(DEDUCED, notes/assumptions/26.md). -/
def execLdmts (rp : RegNo) (wb : BitVec 1) (list : BitVec 16) (s : State) : Out :=
  if list = 0#16 then
    .next (((s.advance 4#32).freeApps (withoutPc 0xFFFF#16)).freeRegs [rp])
  else
    let n := (listAscending list).length
    let final := s.getReg rp + BitVec.ofNat 32 (4 * n)
    ((loadWords .ldmts (s.getReg rp) n s).bind fun vs s1 =>
      let s2 := s1.advance 4#32
      .ok (if list.getLsbD 15 then (s2.freeApps (withoutPc list)).freeRegs (if wb = 1#1 then [rp] else [])
           else
             let s3 := s2.writeApps (loadedRegs list vs)
             if wb = 1#1 then s3.setReg rp final else s3) s1).finish

/-- R872. With PC in the list every word stored is any value (U47), and the write-back is the normal one, a jump where Rp is the PC (DESIGN
CHOICE, notes/assumptions/26.md). -/
def execStmts (rp : RegNo) (wb : BitVec 1) (list : BitVec 16) (s : State) : Out :=
  let regs := listAscending list
  if list = 0#16 then s.finishEmptyList 4#32 [rp]
  else
    let undefined := list.getLsbD 15
    let vs := if undefined then (List.range regs.length).map s.freeAt else regs.map s.readApp
    let s0 := s.drawFree (if undefined then regs.length else 0)
    let stores := blockStores (s.getReg rp) wb vs
    if wb = 1#1 then
      s.finishStorePtr 4#32 rp (s.getReg rp - BitVec.ofNat 32 (4 * regs.length)) (storeWords .stmts stores s0)
    else s.finishStore 4#32 (storeWords .stmts stores s0)

end Sys2Proof.Machine
end

