-- ==== Sys2Proof/Machine/Coproc.lean ====
section
/-! DEFINITION. The coprocessor interface (48_system_coprocessor_java.md R960 to R977). Every instruction first needs its coprocessor
(R960 (b)); the registers are plain storage to all of them but cop (R960 (d)). -/

namespace Sys2Proof.Machine

/-- CR`i` of coprocessor `cp`. -/
def State.copReg (s : State) (cp : BitVec 3) (i : RegNo) : Word := (s.cop[cp.toNat]'cp.isLt)[i.toNat]'i.isLt

def State.setCopReg (s : State) (cp : BitVec 3) (i : RegNo) (v : Word) : State :=
  { s with cop := s.cop.set cp.toNat ((s.cop[cp.toNat]'cp.isLt).set i.toNat v i.isLt) cp.isLt }

/-- Write the values to the coprocessor registers, in order. -/
def State.setCopRegs (s : State) (cp : BitVec 3) : List (RegNo × Word) → State
  | [] => s
  | (i, v) :: rest => (s.setCopReg cp i v).setCopRegs cp rest

/-- Each of the coprocessor registers receives a free value of its own. -/
def State.freeCopRegs (s : State) (cp : BitVec 3) : List RegNo → State
  | [] => s
  | i :: is => ((s.setCopReg cp i s.free).drawFree 1).freeCopRegs cp is

/-- `CR[d+1]:CR[d] <- hi:lo`; an odd `d` names no pair, and both registers receive any value (U2). -/
def State.setCopPair (s : State) (cp : BitVec 3) (d : RegNo) (hi lo : Word) : State :=
  if evenNo d then (s.setCopReg cp (d + 1#4) hi).setCopReg cp d lo else s.freeCopRegs cp [d + 1#4, d]

/-- The flags Q, V, N, Z, C as bits 4 to 0. -/
def flagUpdateOf (f : BitVec 5) : FlagUpdate :=
  { q := some (f.getLsbD 4), v := some (f.getLsbD 3), n := some (f.getLsbD 2), z := some (f.getLsbD 1), c := some (f.getLsbD 0) }

/-- R961: the result and the flags are the coprocessor's own. -/
def execCop (cp : BitVec 3) (op : BitVec 7) (crd crx cry : RegNo) (s : State) : Out :=
  requireCop cp s
    (.next (((s.advance 4#32).setCopReg cp crd (Config.copResult cp op crd (s.copReg cp crx) (s.copReg cp cry))).setFlags
      (flagUpdateOf (Config.copFlags cp op crd (s.copReg cp crx) (s.copReg cp cry) (s.sr.extractLsb' 0 5)))))

/-! ## Loads -/

/-- It loads CR`d`. -/
def State.finishCopLoad (s : State) (cp : BitVec 3) (d : RegNo) (r : Res Word) : Out :=
  (r.bind fun v s1 => .ok ((s1.advance 4#32).setCopReg cp d v) s).finish

/-- It loads CR`d` and moves the pointer R`p`. -/
def State.finishCopLoadPtr (s : State) (cp : BitVec 3) (d p : RegNo) (ptr : Word) (r : Res Word) : Out :=
  (r.bind fun v s1 => .ok (((s1.advance 4#32).setCopReg cp d v).setReg p ptr) s).finish

/-- It loads the pair `CR[d+1]:CR[d]`, the odd register from the lower address (R960 (e)). -/
def State.finishCopPair (s : State) (cp : BitVec 3) (d : RegNo) (r : Res (Word × Word)) : Out :=
  (r.bind fun v s1 => .ok ((s1.advance 4#32).setCopPair cp d v.1 v.2) s).finish

/-- It loads the pair and moves the pointer R`p`. -/
def State.finishCopPairPtr (s : State) (cp : BitVec 3) (d p : RegNo) (ptr : Word) (r : Res (Word × Word)) : Out :=
  (r.bind fun v s1 => .ok (((s1.advance 4#32).setCopPair cp d v.1 v.2).setReg p ptr) s).finish

/-- R962. -/
def execLdcD (f : LdcForm) (s : State) : Out :=
  match f with
  | .formI cp crd rp disp => requireCop cp s (s.finishCopPair cp crd (loadDouble .ldcD (s.dispZ rp disp 2) s))
  | .formII cp crd rp =>
    requireCop cp s (s.finishCopPairPtr cp crd rp (s.getReg rp - 8#32) (loadDouble .ldcD (s.getReg rp - 8#32) s))
  | .formIII cp crd rb ri sa => requireCop cp s (s.finishCopPair cp crd (loadDouble .ldcD (s.indexed rb ri sa) s))

/-- R963. -/
def execLdcW (f : LdcForm) (s : State) : Out :=
  match f with
  | .formI cp crd rp disp => requireCop cp s (s.finishCopLoad cp crd (loadWord .ldcW (s.dispZ rp disp 2) s))
  | .formII cp crd rp =>
    requireCop cp s (s.finishCopLoadPtr cp crd rp (s.getReg rp - 4#32) (loadWord .ldcW (s.getReg rp - 4#32) s))
  | .formIII cp crd rb ri sa => requireCop cp s (s.finishCopLoad cp crd (loadWord .ldcW (s.indexed rb ri sa) s))

/-- R964. -/
def execLdc0D (crd rp : RegNo) (disp : BitVec 12) (s : State) : Out :=
  requireCop 0#3 s (s.finishCopPair 0#3 crd (loadDouble .ldc0D (s.dispZ rp disp 2) s))

/-- R965. -/
def execLdc0W (crd rp : RegNo) (disp : BitVec 12) (s : State) : Out :=
  requireCop 0#3 s (s.finishCopLoad 0#3 crd (loadWord .ldc0W (s.dispZ rp disp 2) s))

/-! ## Multiple transfers -/

/-- ReglistCPD8 as a list of sixteen: bit i names CR(2i+1) and CR(2i) (R359). -/
def copPairs (list : BitVec 8) : BitVec 16 :=
  (List.range 8).foldl (fun acc i => if list.getLsbD i then acc ||| (0b11#16 <<< (2 * i)) else acc) 0#16

/-- ReglistCPH8 as a list of sixteen: bit i names CR(i+8) (R359). -/
def copHigh (list : BitVec 8) : BitVec 16 := list ++ 0#8

/-- ReglistCPL8 as a list of sixteen (R359). -/
def copLow (list : BitVec 8) : BitVec 16 := list.setWidth 16

/-- Load the registers of `list`, the highest from the lowest address (R966, R967). With an empty list there is no access, and what the
instruction could write, the registers `all` and the pointer, holds any value (U40). -/
def State.copLoadMany (s : State) (kind : LsKind) (cp : BitVec 3) (rp : RegNo) (wb : BitVec 1) (list all : BitVec 16) : Out :=
  if list = 0#16 then
    .next (((s.advance 4#32).freeCopRegs cp (listAscending all)).freeRegs [rp])
  else
    let n := (listAscending list).length
    ((loadWords kind (s.getReg rp) n s).bind fun vs s1 =>
      let s2 := (s1.advance 4#32).setCopRegs cp (loadedRegs list vs)
      .ok (if wb = 1#1 then s2.setReg rp (s.getReg rp + BitVec.ofNat 32 (4 * n)) else s2) s1).finish

/-- Store the registers of `list`, the highest at the lowest address (R976, R977). -/
def State.copStoreMany (s : State) (kind : LsKind) (cp : BitVec 3) (rp : RegNo) (wb : BitVec 1) (list : BitVec 16) : Out :=
  let regs := listAscending list
  if list = 0#16 then s.finishEmptyList 4#32 [rp]
  else
    let stores := blockStores (s.getReg rp) wb (regs.map (s.copReg cp))
    if wb = 1#1 then s.finishStorePtr 4#32 rp (s.getReg rp - BitVec.ofNat 32 (4 * regs.length)) (storeWords kind stores s)
    else s.finishStore 4#32 (storeWords kind stores s)

/-- R966. -/
def execLdcmD (cp : BitVec 3) (rp : RegNo) (wb : BitVec 1) (list : BitVec 8) (s : State) : Out :=
  requireCop cp s (s.copLoadMany .ldcmD cp rp wb (copPairs list) 0xFFFF#16)

/-- R967. -/
def execLdcmW (f : CopMultiForm) (s : State) : Out :=
  match f with
  | .formHigh cp rp wb list => requireCop cp s (s.copLoadMany .ldcmW cp rp wb (copHigh list) 0xFF00#16)
  | .formLow cp rp wb list => requireCop cp s (s.copLoadMany .ldcmW cp rp wb (copLow list) 0x00FF#16)

/-! ## Moves -/

/-- R968: an odd register number names no pair, and both destinations receive any value (U2). -/
def execMvcrD (cp : BitVec 3) (rd crs : RegNo) (s : State) : Out :=
  requireCop cp s
    (if evenNo crs then .next ((s.advance 4#32).setPair rd (s.copReg cp (crs + 1#4)) (s.copReg cp crs))
     else .next ((s.advance 4#32).freeRegs [rd + 1#4, rd]))

/-- R969. -/
def execMvcrW (cp : BitVec 3) (rd crs : RegNo) (s : State) : Out := requireCop cp s (s.finishReg 4#32 rd (s.copReg cp crs) noFlags)

/-- R970. -/
def execMvrcD (cp : BitVec 3) (crd rs : RegNo) (s : State) : Out :=
  requireCop cp s
    (if evenNo rs then .next ((s.advance 4#32).setCopPair cp crd (s.getReg (rs + 1#4)) (s.getReg rs))
     else .next ((s.advance 4#32).freeCopRegs cp [crd + 1#4, crd]))

/-- R971. -/
def execMvrcW (cp : BitVec 3) (crd rs : RegNo) (s : State) : Out :=
  requireCop cp s (.next ((s.advance 4#32).setCopReg cp crd (s.getReg rs)))

/-! ## Stores -/

/-- Store the pair `CR[s+1]:CR[s]`, the odd register at the lower address (R960 (e)); an odd register number stores any value (U2). -/
def State.storeCopPair (s : State) (kind : LsKind) (cp : BitVec 3) (crs : RegNo) (va : Word) : Res Unit :=
  if evenNo crs then storeDouble kind va (s.copReg cp (crs + 1#4)) (s.copReg cp crs) s
  else storeDouble kind va s.free (s.freeAt 1) (s.drawFree 2)

/-- R972. -/
def execStcD (f : StcForm) (s : State) : Out :=
  match f with
  | .formI cp rp crs disp => requireCop cp s (s.finishStore 4#32 (s.storeCopPair .stcD cp crs (s.dispZ rp disp 2)))
  | .formII cp rp crs => requireCop cp s (s.finishStorePtr 4#32 rp (s.getReg rp + 8#32) (s.storeCopPair .stcD cp crs (s.getReg rp)))
  | .formIII cp rb ri crs sa => requireCop cp s (s.finishStore 4#32 (s.storeCopPair .stcD cp crs (s.indexed rb ri sa)))

/-- R973. -/
def execStcW (f : StcForm) (s : State) : Out :=
  match f with
  | .formI cp rp crs disp => requireCop cp s (s.finishStore 4#32 (store .stcW 4 (s.dispZ rp disp 2) (s.copReg cp crs) s))
  | .formII cp rp crs =>
    requireCop cp s (s.finishStorePtr 4#32 rp (s.getReg rp + 4#32) (store .stcW 4 (s.getReg rp) (s.copReg cp crs) s))
  | .formIII cp rb ri crs sa => requireCop cp s (s.finishStore 4#32 (store .stcW 4 (s.indexed rb ri sa) (s.copReg cp crs) s))

/-- R974. -/
def execStc0D (rp crs : RegNo) (disp : BitVec 12) (s : State) : Out :=
  requireCop 0#3 s (s.finishStore 4#32 (s.storeCopPair .stc0D 0#3 crs (s.dispZ rp disp 2)))

/-- R975. -/
def execStc0W (rp crs : RegNo) (disp : BitVec 12) (s : State) : Out :=
  requireCop 0#3 s (s.finishStore 4#32 (store .stc0W 4 (s.dispZ rp disp 2) (s.copReg 0#3 crs) s))

/-- R976. -/
def execStcmD (cp : BitVec 3) (rp : RegNo) (wb : BitVec 1) (list : BitVec 8) (s : State) : Out :=
  requireCop cp s (s.copStoreMany .stcmD cp rp wb (copPairs list))

/-- R977. -/
def execStcmW (f : CopMultiForm) (s : State) : Out :=
  match f with
  | .formHigh cp rp wb list => requireCop cp s (s.copStoreMany .stcmW cp rp wb (copHigh list))
  | .formLow cp rp wb list => requireCop cp s (s.copStoreMany .stcmW cp rp wb (copLow list))

end Sys2Proof.Machine
end

