-- ==== Sys2Proof/Machine/MulDiv.lean ====
section
/-! DEFINITION. Multiplication and division instructions (41_multiplication.md R500 to R508). -/

namespace Sys2Proof.Machine

/-- The register pair `R[d+1]:R[d]` as a doubleword (R29). -/
def State.getPair (s : State) (d : RegNo) : BitVec 64 := s.getReg (d + 1#4) ++ s.getReg d

/-- A quotient and a remainder into R`d` and R`d+1`. -/
def State.finishDivision (s : State) (d : RegNo) (q r : Word) : Out := s.finishPair 4#32 d (r ++ q)

/-- R501: truncating division; any value in both registers for a zero divisor and for -2^31 / -1 (U41, U42). -/
def execDivs (rd rx ry : RegNo) (s : State) : Out :=
  let a := s.getReg rx
  let b := s.getReg ry
  if b = 0#32 || (a = 0x80000000#32 && b = 0xFFFFFFFF#32) then .next ((s.advance 4#32).freeRegs [rd + 1#4, rd])
  else s.finishDivision rd (BitVec.ofInt 32 (a.toInt.tdiv b.toInt)) (BitVec.ofInt 32 (a.toInt.tmod b.toInt))

/-- R502; any value in both registers for a zero divisor (U41). -/
def execDivu (rd rx ry : RegNo) (s : State) : Out :=
  let a := s.getReg rx
  let b := s.getReg ry
  if b = 0#32 then .next ((s.advance 4#32).freeRegs [rd + 1#4, rd])
  else s.finishDivision rd (BitVec.ofNat 32 (a.toNat / b.toNat)) (BitVec.ofNat 32 (a.toNat % b.toNat))

/-- R503. -/
def execMac (rd rx ry : RegNo) (s : State) : Out :=
  s.finishReg 4#32 rd (s.getReg rx * s.getReg ry + s.getReg rd) noFlags

/-- R504. -/
def execMacsD (rd rx ry : RegNo) (s : State) : Out :=
  s.finishPair 4#32 rd (BitVec.ofInt 64 ((s.getReg rx).toInt * (s.getReg ry).toInt) + s.getPair rd)

/-- R505. -/
def execMacuD (rd rx ry : RegNo) (s : State) : Out :=
  s.finishPair 4#32 rd (BitVec.ofNat 64 ((s.getReg rx).toNat * (s.getReg ry).toNat) + s.getPair rd)

/-- R506. -/
def execMul (f : MulForm) (s : State) : Out :=
  match f with
  | .formI rd rs => s.finishReg 2#32 rd (s.getReg rd * s.getReg rs) noFlags
  | .formII rd rx ry => s.finishReg 4#32 rd (s.getReg rx * s.getReg ry) noFlags
  | .formIII rd rs imm => s.finishReg 4#32 rd (s.getReg rs * sext imm) noFlags

/-- R507. -/
def execMulsD (rd rx ry : RegNo) (s : State) : Out :=
  s.finishPair 4#32 rd (BitVec.ofInt 64 ((s.getReg rx).toInt * (s.getReg ry).toInt))

/-- R508. -/
def execMuluD (rd rx ry : RegNo) (s : State) : Out :=
  s.finishPair 4#32 rd (BitVec.ofNat 64 ((s.getReg rx).toNat * (s.getReg ry).toNat))

end Sys2Proof.Machine
end

