-- ==== Sys2Proof/Machine/Dsp.lean ====
section
/-! DEFINITION. DSP instructions (42_dsp.md R540 to R563). -/

namespace Sys2Proof.Machine

/-- The DSP set (R540 (a)). -/
def requireDsp (s : State) (k : Out) : Out := requireUnit s.cfg.hasDsp s k

/-- The product of two selected halfwords, exact. -/
def halfProduct (a : Word) (x : BitVec 1) (b : Word) (y : BitVec 1) : Int := (half a x).toInt * (half b y).toInt

/-- The product of a word and a selected halfword, exact. -/
def wordHalfProduct (a b : Word) (y : BitVec 1) : Int := a.toInt * (half b y).toInt

/-- Both selected halfwords are 0x8000: the product of fractions that does not fit (R540 (f)). -/
def halvesSaturate (a : Word) (x : BitVec 1) (b : Word) (y : BitVec 1) : Bool :=
  halfPart a x == 0x8000#16 && halfPart b y == 0x8000#16

/-- The word is -1.0 and the selected halfword is. -/
def wordHalfSaturates (a b : Word) (y : BitVec 1) : Bool := a == 0x80000000#32 && halfPart b y == 0x8000#16

/-- The 48-bit accumulator in `R[d+1]:R[d]` (R540 (d)). -/
def State.acc48 (s : State) (d : RegNo) : Int := ((s.getPair d).extractLsb' 16 48).toInt

/-- A 48-bit result into the high bits of the pair, the low 16 cleared (R540 (d)). -/
def State.finishAcc48 (s : State) (d : RegNo) (v : Int) : Out := s.finishPair 4#32 d (BitVec.ofInt 48 v ++ 0#16)

/-- A result that may have saturated: only Q changes (R540 (c)). -/
def State.finishSat (s : State) (d : RegNo) (v : Word) (saturated : Bool) : Out :=
  s.finishReg 4#32 d v { q := stickyQ s.flagQ saturated }

/-- R541. -/
def execAddhhW (rd rx : RegNo) (xp : BitVec 1) (ry : RegNo) (yp : BitVec 1) (s : State) : Out :=
  requireDsp s (s.addInto 4#32 rd (half (s.getReg rx) xp) (half (s.getReg ry) yp))

/-- R542. -/
def execMachhD (rd rx : RegNo) (xp : BitVec 1) (ry : RegNo) (yp : BitVec 1) (s : State) : Out :=
  requireDsp s (s.finishAcc48 rd (halfProduct (s.getReg rx) xp (s.getReg ry) yp + s.acc48 rd))

/-- R543. -/
def execMachhW (rd rx : RegNo) (xp : BitVec 1) (ry : RegNo) (yp : BitVec 1) (s : State) : Out :=
  requireDsp s (s.finishReg 4#32 rd (BitVec.ofInt 32 (halfProduct (s.getReg rx) xp (s.getReg ry) yp) + s.getReg rd) noFlags)

/-- R544. -/
def execMacwhD (rd rx ry : RegNo) (yp : BitVec 1) (s : State) : Out :=
  requireDsp s (s.finishAcc48 rd (wordHalfProduct (s.getReg rx) (s.getReg ry) yp + s.acc48 rd))

/-- R545. -/
def execMulhhW (rd rx : RegNo) (xp : BitVec 1) (ry : RegNo) (yp : BitVec 1) (s : State) : Out :=
  requireDsp s (s.finishReg 4#32 rd (BitVec.ofInt 32 (halfProduct (s.getReg rx) xp (s.getReg ry) yp)) noFlags)

/-- R546. -/
def execMulwhD (rd rx ry : RegNo) (yp : BitVec 1) (s : State) : Out :=
  requireDsp s (s.finishAcc48 rd (wordHalfProduct (s.getReg rx) (s.getReg ry) yp))

/-- R547. -/
def execMulnhhW (rd rx : RegNo) (xp : BitVec 1) (ry : RegNo) (yp : BitVec 1) (s : State) : Out :=
  requireDsp s (s.finishReg 4#32 rd (BitVec.ofInt 32 (-halfProduct (s.getReg rx) xp (s.getReg ry) yp)) noFlags)

/-- R548. -/
def execMulnwhD (rd rx ry : RegNo) (yp : BitVec 1) (s : State) : Out :=
  requireDsp s (s.finishAcc48 rd (-wordHalfProduct (s.getReg rx) (s.getReg ry) yp))

/-- The end of the saturating adds and subtracts of halfwords (R549, R551): `t` is the wrapped result, `ov` its overflow. -/
def State.finishSatHalf (s : State) (rd : RegNo) (a t : Half) (ov : Bool) : Out :=
  let h := if ov then (if a.msb then 0x8000#16 else 0x7FFF#16) else t
  s.finishReg 4#32 rd (sext h)
    { q := stickyQ s.flagQ ov, v := some ov, n := some h.msb, z := some (h == 0), c := some false }

/-- The same on words (R550, R552). -/
def State.finishSatWord (s : State) (rd : RegNo) (a t : Word) (ov : Bool) : Out :=
  let r := if ov then (if a.msb then 0x80000000#32 else 0x7FFFFFFF#32) else t
  s.finishReg 4#32 rd r
    { q := stickyQ s.flagQ ov, v := some ov, n := some r.msb, z := some (r == 0), c := some false }

/-- R549. -/
def execSataddH (rd rx ry : RegNo) (s : State) : Out :=
  let a := (s.getReg rx).setWidth 16
  let b := (s.getReg ry).setWidth 16
  requireDsp s (s.finishSatHalf rd a (a + b) (vAdd a b (a + b)))

/-- R550. -/
def execSataddW (rd rx ry : RegNo) (s : State) : Out :=
  let a := s.getReg rx
  let b := s.getReg ry
  requireDsp s (s.finishSatWord rd a (a + b) (vAdd a b (a + b)))

/-- R551. -/
def execSatsubH (rd rx ry : RegNo) (s : State) : Out :=
  let a := (s.getReg rx).setWidth 16
  let b := (s.getReg ry).setWidth 16
  requireDsp s (s.finishSatHalf rd a (a - b) (vSub a b (a - b)))

/-- R552. -/
def execSatsubW (f : SatsubForm) (s : State) : Out :=
  match f with
  | .formI rd rx ry =>
    let a := s.getReg rx
    let b := s.getReg ry
    requireDsp s (s.finishSatWord rd a (a - b) (vSub a b (a - b)))
  | .formII rd rs imm =>
    let a := s.getReg rs
    let b := sext imm
    requireDsp s (s.finishSatWord rd a (a - b) (vSub a b (a - b)))

/-- `ASR(v, sa)`, and with `round` the last bit shifted out added to it (R553). -/
def shiftRound (round : Bool) (v : Word) (sa : BitVec 5) : Word :=
  let t := v.sshiftRight sa.toNat
  if round && sa != 0#5 && v.getLsbD (sa.toNat - 1) then t + 1#32 else t

/-- The test and clamp of sats (R555): the value, and whether it saturated. -/
def clampSigned (t : Word) (bp : BitVec 5) : Word × Bool :=
  if bp = 0#5 then (t, false)
  else (BitVec.ofInt 32 (satS bp.toNat t.toInt), satS bp.toNat t.toInt != t.toInt)

/-- The test and clamp of satu (R556). -/
def clampUnsigned (t : Word) (bp : BitVec 5) : Word × Bool :=
  if bp = 0#5 then (t, false)
  else (BitVec.ofInt 32 (satSU bp.toNat t.toInt), satSU bp.toNat t.toInt != t.toInt)

/-- R553. -/
def execSatrnds (rd : RegNo) (sa bp : BitVec 5) (s : State) : Out :=
  let r := clampSigned (shiftRound true (s.getReg rd) sa) bp
  requireDsp s (s.finishSat rd r.1 r.2)

/-- R554. -/
def execSatrndu (rd : RegNo) (sa bp : BitVec 5) (s : State) : Out :=
  let r := clampUnsigned (shiftRound true (s.getReg rd) sa) bp
  requireDsp s (s.finishSat rd r.1 r.2)

/-- R555. -/
def execSats (rd : RegNo) (sa bp : BitVec 5) (s : State) : Out :=
  let r := clampSigned (shiftRound false (s.getReg rd) sa) bp
  requireDsp s (s.finishSat rd r.1 r.2)

/-- R556. -/
def execSatu (rd : RegNo) (sa bp : BitVec 5) (s : State) : Out :=
  let r := clampUnsigned (shiftRound false (s.getReg rd) sa) bp
  requireDsp s (s.finishSat rd r.1 r.2)

/-- R557. -/
def execSubhhW (rd rx : RegNo) (xp : BitVec 1) (ry : RegNo) (yp : BitVec 1) (s : State) : Out :=
  requireDsp s (s.subInto 4#32 rd (half (s.getReg rx) xp) (half (s.getReg ry) yp))

/-- R558. -/
def execMulsathhH (rd rx : RegNo) (xp : BitVec 1) (ry : RegNo) (yp : BitVec 1) (s : State) : Out :=
  let a := s.getReg rx
  let b := s.getReg ry
  requireDsp s (if halvesSaturate a xp b yp then s.finishSat rd 0x00007FFF#32 true
    else s.finishSat rd (sext (BitVec.ofInt 16 (halfProduct a xp b yp / 2 ^ 15))) false)

/-- The doubled product of two halfwords, saturated (R559). -/
def satDoubleProduct (a : Word) (xp : BitVec 1) (b : Word) (yp : BitVec 1) : Word :=
  if halvesSaturate a xp b yp then 0x7FFFFFFF#32 else BitVec.ofInt 32 (halfProduct a xp b yp * 2)

/-- R559. -/
def execMulsathhW (rd rx : RegNo) (xp : BitVec 1) (ry : RegNo) (yp : BitVec 1) (s : State) : Out :=
  let a := s.getReg rx
  let b := s.getReg ry
  requireDsp s (s.finishSat rd (satDoubleProduct a xp b yp) (halvesSaturate a xp b yp))

/-- R560. -/
def execMulsatrndhhH (rd rx : RegNo) (xp : BitVec 1) (ry : RegNo) (yp : BitVec 1) (s : State) : Out :=
  let a := s.getReg rx
  let b := s.getReg ry
  requireDsp s (if halvesSaturate a xp b yp then s.finishSat rd 0x00007FFF#32 true
    else s.finishSat rd (sext (BitVec.ofInt 16 ((halfProduct a xp b yp + 0x4000) / 2 ^ 15))) false)

/-- R561. -/
def execMulsatrndwhW (rd rx ry : RegNo) (yp : BitVec 1) (s : State) : Out :=
  let a := s.getReg rx
  let b := s.getReg ry
  requireDsp s (if wordHalfSaturates a b yp then s.finishSat rd 0x7FFFFFFF#32 true
    else s.finishSat rd (BitVec.ofInt 32 ((wordHalfProduct a b yp + 0x4000) / 2 ^ 15)) false)

/-- R562. -/
def execMulsatwhW (rd rx ry : RegNo) (yp : BitVec 1) (s : State) : Out :=
  let a := s.getReg rx
  let b := s.getReg ry
  requireDsp s (if wordHalfSaturates a b yp then s.finishSat rd 0x7FFFFFFF#32 true
    else s.finishSat rd (BitVec.ofInt 32 (wordHalfProduct a b yp / 2 ^ 15)) false)

/-- R563: Q for either saturation. -/
def execMacsathhW (rd rx : RegNo) (xp : BitVec 1) (ry : RegNo) (yp : BitVec 1) (s : State) : Out :=
  let a := s.getReg rx
  let b := s.getReg ry
  let sum := (satDoubleProduct a xp b yp).toInt + (s.getReg rd).toInt
  requireDsp s (s.finishSat rd (BitVec.ofInt 32 (satS 32 sum)) (halvesSaturate a xp b yp || satS 32 sum != sum))

end Sys2Proof.Machine
end

