-- ==== Sys2Proof/Machine/Java.lean ====
section
/-! DEFINITION. The instructions that aid Java execution (48_system_coprocessor_java.md R989 to R993), of the optional Java extension. With
`HAS_JAVA` and a `SYSREG_IMPLEMENTED` that leaves out JOSP or a JAVA_LV, which mfsr and mtsr then treat as absent, the instructions act on the
register as State holds it (R16, R138, R989 do not say; DESIGN CHOICE, notes/assumptions/38.md). -/

namespace Sys2Proof.Machine

/-- The increment that imm3 encodes: 000 to 011 are 1 to 4, 100 to 111 are -4 to -1 (R387, R990). -/
def jospStep (imm : BitVec 3) : Int := if imm.msb then imm.toInt else imm.toInt + 1

/-- R990. Where `JOSP[3:0] + imm` leaves 0 to 8 the instruction traps to Java software that the spec does not describe (D14). R138 speaks of the
low 3 bits of JOSP; R990 is followed, notes/assumptions/35.md. JOSP counts whether or not it is listed, notes/assumptions/38.md. -/
def execIncjosp (imm : BitVec 3) (s : State) : Out :=
  requireUnit s.cfg.hasJava s
    (let t := ((s.java.josp.extractLsb' 0 4).toNat : Int) + jospStep imm
     if t < 0 then .refused (.javaTrap 4)
     else if 8 < t then .refused (.javaTrap 3)
     else .next { s.advance 2#32 with java := { s.java with josp := s.java.josp + BitVec.ofInt 32 (jospStep imm) } })

/-- The eight addresses of a Java frame, downwards from R9 (R991, R992). -/
def State.frameAddresses (s : State) : List Word := (List.range 8).map (fun k => s.getReg 9#4 - BitVec.ofNat 32 (4 * k))

/-- Word loads from the addresses, one at a time in the order given, with the other agents between them (R208). -/
def loadEach (kind : LsKind) : List Word → State → Res (List Word)
  | [], s => .ok [] s
  | va :: vas, s => (loadWord kind va s).bind fun v s1 => (loadEach kind vas (s1.turnIfMore vas.length)).bind fun vs s2 => .ok (v :: vs) s2

/-- JAVA_LV0 to JAVA_LV7 with the values of a list. -/
def lvOf (vs : List Word) : Vector Word 8 := Vector.ofFn (fun k => vs.getD k.val 0#32)

/-- R991: neither SP nor JOSP is used, notes/assumptions/35.md. The JAVA_LV are written whether or not they are listed,
notes/assumptions/38.md. -/
def execPopjc (s : State) : Out :=
  requireUnit s.cfg.hasJava s
    (((loadEach .popjc s.frameAddresses s).bind fun vs s1 =>
      .ok { s1.advance 2#32 with java := { s1.java with lv := lvOf vs } } s1).finish)

/-- R992: neither SP nor JOSP is used, notes/assumptions/35.md. The JAVA_LV are read whether or not they are listed, notes/assumptions/38.md. -/
def execPushjc (s : State) : Out :=
  requireUnit s.cfg.hasJava s (s.finishStore 2#32 (storeWords .pushjc (s.frameAddresses.zip s.java.lv.toList) s))

/-- R993: what follows is in Java state, which the step refuses (D14). -/
def execRetj (s : State) : Out :=
  requireUnit s.cfg.hasJava s
    (let s1 := ((s.jump (s.getReg 14#4)).setSrBit bitJ true).setSrBit bitR false
     .next (if s.mode = 1#3 then s1.setSrBit bitGM false else s1))

end Sys2Proof.Machine
end

