-- ==== Sys2Proof/Machine/Load.lean ====
section
/-! DEFINITION. Moves and single-register loads (46_data_transfer.md R740 to R767). -/

namespace Sys2Proof.Machine

/-- R741. -/
def execMov (f : MovForm) (s : State) : Out :=
  match f with
  | .formI rd imm => s.finishReg 2#32 rd (sext imm) noFlags
  | .formII rd imm => s.finishReg 4#32 rd (sext imm) noFlags
  | .formIII rd rs => s.finishReg 2#32 rd (s.getReg rs) noFlags

/-- R742. -/
def execMovCond (f : MovCondForm) (s : State) : Out :=
  match f with
  | .formI c rd rs => s.ifCond c 4#32 (s.finishReg 4#32 rd (s.getReg rs) noFlags)
  | .formII c rd imm => s.ifCond c 4#32 (s.finishReg 4#32 rd (sext imm) noFlags)

/-- R743. -/
def execMovh (rd : RegNo) (imm : BitVec 16) (s : State) : Out :=
  requireUnit (hasRev s.cfg 2) s (s.finishReg 4#32 rd (zext imm <<< 16) noFlags)

/-! What a load of a byte or a halfword makes of the bytes it reads (R203). -/

def zextByte (v : Word) : Word := zext (v.setWidth 8)
def sextByte (v : Word) : Word := sext (v.setWidth 8)
def zextHalf (v : Word) : Word := zext (v.setWidth 16)
def sextHalf (v : Word) : Word := sext (v.setWidth 16)

/-- The five formats of ld.ub, ld.uh and ld.sh: `k` is log2 of the access size (R740). -/
def State.loadForm (s : State) (kind : LsKind) (k : Nat) (conv : Word → Word) : LoadForm → Out
  | .formI rd rp =>
    s.finishLoadPtr 2#32 rd rp (s.getReg rp + BitVec.ofNat 32 (2 ^ k)) (load kind (2 ^ k) conv (s.getReg rp) s)
  | .formII rd rp =>
    let a := s.getReg rp - BitVec.ofNat 32 (2 ^ k)
    s.finishLoadPtr 2#32 rd rp a (load kind (2 ^ k) conv a s)
  | .formIII rd rp disp => s.finishLoad 2#32 rd (load kind (2 ^ k) conv (s.dispZ rp disp k) s)
  | .formIV rd rp disp => s.finishLoad 4#32 rd (load kind (2 ^ k) conv (s.dispS rp disp 0) s)
  | .formV rd rb ri sa => s.finishLoad 4#32 rd (load kind (2 ^ k) conv (s.indexed rb ri sa) s)

/-- The conditional loads of revision 2. -/
def State.loadCond (s : State) (kind : LsKind) (k : Nat) (conv : Word → Word) (c : Cond) (rd rp : RegNo) (disp : BitVec 9) : Out :=
  requireUnit (hasRev s.cfg 2) s
    (s.ifCond c 4#32 (s.finishLoad 4#32 rd (load kind (2 ^ k) conv (s.dispZ rp disp k) s)))

/-- R750. -/
def execLdUb (f : LoadForm) (s : State) : Out := s.loadForm .byte 0 zextByte f

/-- R751. -/
def execLdUbCond (c : Cond) (rd rp : RegNo) (disp : BitVec 9) (s : State) : Out := s.loadCond .byte 0 zextByte c rd rp disp

/-- R752. -/
def execLdSb (f : LdsbForm) (s : State) : Out :=
  match f with
  | .formI rd rp disp => s.finishLoad 4#32 rd (load .byte 1 sextByte (s.dispS rp disp 0) s)
  | .formII rd rb ri sa => s.finishLoad 4#32 rd (load .byte 1 sextByte (s.indexed rb ri sa) s)

/-- R753. -/
def execLdSbCond (c : Cond) (rd rp : RegNo) (disp : BitVec 9) (s : State) : Out := s.loadCond .byte 0 sextByte c rd rp disp

/-- R754. -/
def execLdUh (f : LoadForm) (s : State) : Out := s.loadForm .ldUh 1 zextHalf f

/-- R755. -/
def execLdUhCond (c : Cond) (rd rp : RegNo) (disp : BitVec 9) (s : State) : Out := s.loadCond .ldUhCond 1 zextHalf c rd rp disp

/-- R756. -/
def execLdSh (f : LoadForm) (s : State) : Out := s.loadForm .ldSh 1 sextHalf f

/-- R757. -/
def execLdShCond (c : Cond) (rd rp : RegNo) (disp : BitVec 9) (s : State) : Out := s.loadCond .ldShCond 1 sextHalf c rd rp disp

/-- R758; in format VI the index is a byte of Ri. -/
def execLdW (f : LdwForm) (s : State) : Out :=
  match f with
  | .formI rd rp => s.finishLoadPtr 2#32 rd rp (s.getReg rp + 4#32) (loadWord .ldW (s.getReg rp) s)
  | .formII rd rp => s.finishLoadPtr 2#32 rd rp (s.getReg rp - 4#32) (loadWord .ldW (s.getReg rp - 4#32) s)
  | .formIII rd rp disp => s.finishLoad 2#32 rd (loadWord .ldW (s.dispZ rp disp 2) s)
  | .formIV rd rp disp => s.finishLoad 4#32 rd (loadWord .ldW (s.dispS rp disp 0) s)
  | .formV rd rb ri sa => s.finishLoad 4#32 rd (loadWord .ldW (s.indexed rb ri sa) s)
  | .formVI rd xp yp rb ri =>
    s.finishLoad 4#32 rd (loadWord .ldW (s.getReg rb + (zext (bytePart (s.getReg ri) (xp ++ yp)) <<< 2)) s)

/-- R759. -/
def execLdWCond (c : Cond) (rd rp : RegNo) (disp : BitVec 9) (s : State) : Out := s.loadCond .ldWCond 2 id c rd rp disp

/-- R760. -/
def execLdD (f : LddForm) (s : State) : Out :=
  match f with
  | .formI rd rp => s.finishLoadPairPtr 2#32 rd rp (s.getReg rp + 8#32) (loadDouble .ldD (s.getReg rp) s)
  | .formII rd rp => s.finishLoadPairPtr 2#32 rd rp (s.getReg rp - 8#32) (loadDouble .ldD (s.getReg rp - 8#32) s)
  | .formIII rd rp => s.finishLoadPair 2#32 rd (loadDouble .ldD (s.getReg rp) s)
  | .formIV rd rp disp => s.finishLoadPair 4#32 rd (loadDouble .ldD (s.dispS rp disp 0) s)
  | .formV rd rb ri sa => s.finishLoadPair 4#32 rd (loadDouble .ldD (s.indexed rb ri sa) s)

/-- R761: the byte read replaces one byte of Rd. -/
def execLdinsB (rd rp : RegNo) (part : BitVec 2) (disp : BitVec 12) (s : State) : Out :=
  s.finishLoad 4#32 rd (load .byte 1 (fun v => insertField (s.getReg rd) (8 * part.toNat) 8 v) (s.dispS rp disp 0) s)

/-- R762: the halfword read replaces one half of Rd. -/
def execLdinsH (rd rp : RegNo) (part : BitVec 1) (disp : BitVec 12) (s : State) : Out :=
  s.finishLoad 4#32 rd (load .ldinsH 2 (fun v => insertField (s.getReg rd) (16 * part.toNat) 16 v) (s.dispS rp disp 1) s)

/-- R763. -/
def execLdswpSh (rd rp : RegNo) (disp : BitVec 12) (s : State) : Out :=
  s.finishLoad 4#32 rd (load .ldswpSh 2 (fun v => sext (swapHalf (v.setWidth 16))) (s.dispS rp disp 1) s)

/-- R764. -/
def execLdswpUh (rd rp : RegNo) (disp : BitVec 12) (s : State) : Out :=
  s.finishLoad 4#32 rd (load .ldswpUh 2 (fun v => zext (swapHalf (v.setWidth 16))) (s.dispS rp disp 1) s)

/-- R765. -/
def execLdswpW (rd rp : RegNo) (disp : BitVec 12) (s : State) : Out :=
  s.finishLoad 4#32 rd (load .ldswpW 4 swapBytes (s.dispS rp disp 2) s)

/-- R766. -/
def execLddpc (rd : RegNo) (disp : BitVec 7) (s : State) : Out :=
  s.finishLoad 2#32 rd (loadWord .lddpc (s.wordBase 15#4 + (zext disp <<< 2)) s)

/-- R767. -/
def execLddsp (rd : RegNo) (disp : BitVec 7) (s : State) : Out :=
  s.finishLoad 2#32 rd (loadWord .lddsp (s.wordBase 13#4 + (zext disp <<< 2)) s)

end Sys2Proof.Machine
end

