-- ==== Sys2Proof/Machine/Rmw.lean ====
section
/-! DEFINITION. The read-modify-write instructions and xchg (49_simd_rmw.md R1034 to R1040): one indivisible read and write of a word, both
checked before either is made (D32). -/

namespace Sys2Proof.Machine

/-- The word address of memc, mems and memt (R1034 (c)). -/
def rmwAddress (imm : BitVec 15) : Word := sext (imm ++ 0#2)

/-- The word at `rmwAddress imm` becomes `f` of it. -/
def State.modifyWord (s : State) (kind : LsKind) (imm : BitVec 15) (f : Word → Word) : Out :=
  requireUnit s.cfg.hasRmw s
    (((swapWord kind (rmwAddress imm) f s).bind fun _ s1 => .ok (s1.advance 4#32) s1).finish)

/-- R1035. -/
def execMemc (bp : BitVec 5) (imm : BitVec 15) (s : State) : Out := s.modifyWord .memc imm (fun w => w &&& ~~~(1#32 <<< bp.toNat))

/-- R1036. -/
def execMems (bp : BitVec 5) (imm : BitVec 15) (s : State) : Out := s.modifyWord .mems imm (fun w => w ||| (1#32 <<< bp.toNat))

/-- R1037. -/
def execMemt (bp : BitVec 5) (imm : BitVec 15) (s : State) : Out := s.modifyWord .memt imm (fun w => w ^^^ (1#32 <<< bp.toNat))

/-- The operands for which the result of xchg is UNDEFINED (U48). -/
def xchgUndefined (rd rx ry : RegNo) : Bool := rd == 15#4 || rx == 15#4 || ry == 15#4 || rd == rx || rd == ry

/-- R1040; any value in Rd and in the word for the operands of U48. -/
def execXchg (rd rx ry : RegNo) (s : State) : Out :=
  if xchgUndefined rd rx ry then
    ((swapWord .xchg (s.getReg rx) (fun _ => s.free) (s.drawFree 2)).bind fun _ s1 =>
      .ok ((s1.advance 4#32).setReg rd (s.freeAt 1)) s1).finish
  else
    ((swapWord .xchg (s.getReg rx) (fun _ => s.getReg ry) s).bind fun w s1 => .ok ((s1.advance 4#32).setReg rd w) s1).finish

end Sys2Proof.Machine
end

