-- ==== Sys2Proof/Machine/Shift.lean ====
section
/-! DEFINITION. Shift and rotate instructions (44_shift.md R670 to R675). -/

namespace Sys2Proof.Machine

/-- N and Z of a shift, and the last bit shifted out in C; none for a shift by 0 (R670). -/
def shiftFlags (r : Word) (amount : Nat) (lastOut : Bool) : FlagUpdate :=
  { n := some r.msb, z := some (r == 0), c := some (amount != 0 && lastOut) }

/-- The three formats (R670 (a)): `op` gives the result, `out` the last bit shifted out, from operand and amount. -/
def State.shiftForm (s : State) (op : Word → Nat → Word) (out : Word → Nat → Bool) : ShiftForm → Out
  | .formI rd rx ry =>
    let n := ((s.getReg ry).setWidth 5).toNat
    s.finishReg 4#32 rd (op (s.getReg rx) n) (shiftFlags (op (s.getReg rx) n) n (out (s.getReg rx) n))
  | .formII rd sa =>
    s.finishReg 2#32 rd (op (s.getReg rd) sa.toNat) (shiftFlags (op (s.getReg rd) sa.toNat) sa.toNat (out (s.getReg rd) sa.toNat))
  | .formIII rd rs sa =>
    s.finishReg 4#32 rd (op (s.getReg rs) sa.toNat) (shiftFlags (op (s.getReg rs) sa.toNat) sa.toNat (out (s.getReg rs) sa.toNat))

/-- R671. -/
def execAsr (f : ShiftForm) (s : State) : Out := s.shiftForm (fun v n => v.sshiftRight n) (fun v n => v.getLsbD (n - 1)) f

/-- R672. -/
def execLsl (f : ShiftForm) (s : State) : Out := s.shiftForm (fun v n => v <<< n) (fun v n => v.getLsbD (32 - n)) f

/-- R673. -/
def execLsr (f : ShiftForm) (s : State) : Out := s.shiftForm (fun v n => v >>> n) (fun v n => v.getLsbD (n - 1)) f

/-- R674: a rotation of the 33 bits of C and Rd. -/
def execRol (rd : RegNo) (s : State) : Out :=
  let a := s.getReg rd
  let r := (a <<< 1) ||| s.carry
  s.finishReg 2#32 rd r { n := some r.msb, z := some (r == 0), c := some a.msb }

/-- R675. -/
def execRor (rd : RegNo) (s : State) : Out :=
  let a := s.getReg rd
  let r := (a >>> 1) ||| (s.carry <<< 31)
  s.finishReg 2#32 rd r { n := some r.msb, z := some (r == 0), c := some (a.getLsbD 0) }

end Sys2Proof.Machine
end

