-- ==== Sys2Proof/Machine/Simd.lean ====
section
/-! DEFINITION. The packed instructions (49_simd_rmw.md R1001 to R1030), of the optional SIMD set. Lanes are computed as exact integers and
then kept to the lane's width (R1001 (b), (c), (d)). -/

namespace Sys2Proof.Machine

/-- The lane as an unsigned integer, `u(l)` of R1001. -/
def uInt {n : Nat} (l : BitVec n) : Int := l.toNat

/-- The lane as a signed integer, `s(l)` of R1001. -/
def sInt {n : Nat} (l : BitVec n) : Int := l.toInt

/-- Four bytes, the highest lane first. -/
def packBytes (b3 b2 b1 b0 : Byte) : Word := b3 ++ b2 ++ b1 ++ b0

/-- Two halfwords, the top lane first. -/
def packHalves (t b : Half) : Word := t ++ b

/-- `f` on each pair of byte lanes. -/
def mapBytes (f : Byte → Byte → Byte) (x y : Word) : Word :=
  packBytes (f (bytePart x 3#2) (bytePart y 3#2)) (f (bytePart x 2#2) (bytePart y 2#2)) (f (bytePart x 1#2) (bytePart y 1#2))
    (f (bytePart x 0#2) (bytePart y 0#2))

/-- The top and the bottom halfword lane. -/
def top (v : Word) : Half := halfPart v 1#1
def bottom (v : Word) : Half := halfPart v 0#1

/-- `f` on each pair of halfword lanes. -/
def mapHalves (f : Half → Half → Half) (x y : Word) : Word := packHalves (f (top x) (top y)) (f (bottom x) (bottom y))

/-- `f` on the lanes with the second operand crossed. -/
def crossHalves (f : Half → Half → Half) (x y : Word) : Word := packHalves (f (top x) (bottom y)) (f (bottom x) (top y))

/-- It writes Rd and, where `saturated` says, sets Q (R1001 (d), (f)). -/
def State.finishPacked (s : State) (rd : RegNo) (v : Word) (u : FlagUpdate) : Out :=
  requireUnit s.cfg.hasSimd s (s.finishReg 4#32 rd v u)

/-- A lane result before saturation and its saturation function. -/
structure Lane where
  exact : Int
  sat : Int → Int

def Lane.value (l : Lane) (n : Nat) : BitVec n := BitVec.ofInt n (l.sat l.exact)

def Lane.saturated (l : Lane) : Bool := l.sat l.exact != l.exact

/-- It writes four saturated byte lanes; Q is set where one of them saturates, as R1001 (d) has it (R128 differs, notes/assumptions/27.md). -/
def State.finishSatBytes (s : State) (rd : RegNo) (l3 l2 l1 l0 : Lane) : Out :=
  s.finishPacked rd (packBytes (l3.value 8) (l2.value 8) (l1.value 8) (l0.value 8))
    { q := stickyQ s.flagQ (l3.saturated || l2.saturated || l1.saturated || l0.saturated) }

/-- It writes two saturated halfword lanes. -/
def State.finishSatHalves (s : State) (rd : RegNo) (t b : Lane) : Out :=
  s.finishPacked rd (packHalves (t.value 16) (b.value 16)) { q := stickyQ s.flagQ (t.saturated || b.saturated) }

/-- `f` on each pair of byte lanes, saturated by `sat`. -/
def State.satBytes (s : State) (rd rx ry : RegNo) (sat : Int → Int) (f : Byte → Byte → Int) : Out :=
  let x := s.getReg rx
  let y := s.getReg ry
  s.finishSatBytes rd ⟨f (bytePart x 3#2) (bytePart y 3#2), sat⟩ ⟨f (bytePart x 2#2) (bytePart y 2#2), sat⟩
    ⟨f (bytePart x 1#2) (bytePart y 1#2), sat⟩ ⟨f (bytePart x 0#2) (bytePart y 0#2), sat⟩

/-- `f` on each pair of halfword lanes, saturated by `sat`. -/
def State.satHalves (s : State) (rd rx ry : RegNo) (sat : Int → Int) (f : Half → Half → Int) : Out :=
  let x := s.getReg rx
  let y := s.getReg ry
  s.finishSatHalves rd ⟨f (top x) (top y), sat⟩ ⟨f (bottom x) (bottom y), sat⟩

/-- The same with the second operand crossed. -/
def State.satCross (s : State) (rd rx ry : RegNo) (sat : Int → Int) (f : Half → Half → Int) : Out :=
  let x := s.getReg rx
  let y := s.getReg ry
  s.finishSatHalves rd ⟨f (top x) (bottom y), sat⟩ ⟨f (bottom x) (top y), sat⟩

/-- `floor(v / 2)` kept to the lane (R1001 (c)). -/
def halve (n : Nat) (v : Int) : BitVec n := BitVec.ofInt n (v.fdiv 2)

/-! ## Absolute values, packing and unpacking -/

/-- R1002: the most negative lane stays as it is (D46). -/
def absLane {n : Nat} (l : BitVec n) : BitVec n := if l.msb then 0 - l else l

/-- R1002. -/
def execPabsSb (rd rs : RegNo) (s : State) : Out :=
  s.finishPacked rd (mapBytes (fun a _ => absLane a) (s.getReg rs) 0#32) noFlags

/-- R1002. -/
def execPabsSh (rd rs : RegNo) (s : State) : Out :=
  s.finishPacked rd (mapHalves (fun a _ => absLane a) (s.getReg rs) 0#32) noFlags

/-- The four signed halfwords of Rx and Ry as saturated bytes (R1003). -/
def State.packsh (s : State) (rd rx ry : RegNo) (sat : Int → Int) : Out :=
  let x := s.getReg rx
  let y := s.getReg ry
  s.finishSatBytes rd ⟨sInt (top x), sat⟩ ⟨sInt (bottom x), sat⟩ ⟨sInt (top y), sat⟩ ⟨sInt (bottom y), sat⟩

/-- R1003. -/
def execPackshUb (rd rx ry : RegNo) (s : State) : Out := s.packsh rd rx ry (satSU 8)

/-- R1003. -/
def execPackshSb (rd rx ry : RegNo) (s : State) : Out := s.packsh rd rx ry (satS 8)

/-- R1004. -/
def execPackwSh (rd rx ry : RegNo) (s : State) : Out :=
  s.finishSatHalves rd ⟨sInt (s.getReg rx), satS 16⟩ ⟨sInt (s.getReg ry), satS 16⟩

/-- The two bytes of a part as halfwords that `ext` makes of them (R1030). -/
def State.unpack (s : State) (rd rs : RegNo) (k : BitVec 1) (ext : Byte → Half) : Out :=
  let h := halfPart (s.getReg rs) k
  s.finishPacked rd (packHalves (ext (h.extractLsb' 8 8)) (ext (h.extractLsb' 0 8))) noFlags

/-- R1030. -/
def execPunpckubH (rd rs : RegNo) (k : BitVec 1) (s : State) : Out := s.unpack rd rs k (fun b => b.setWidth 16)

/-- R1030. -/
def execPunpcksbH (rd rs : RegNo) (k : BitVec 1) (s : State) : Out := s.unpack rd rs k (fun b => b.signExtend 16)

/-! ## Addition and subtraction of corresponding lanes -/

/-- R1005. -/
def execPaddB (rd rx ry : RegNo) (s : State) : Out :=
  s.finishPacked rd (mapBytes (fun a b => a + b) (s.getReg rx) (s.getReg ry)) noFlags

/-- R1005. -/
def execPaddH (rd rx ry : RegNo) (s : State) : Out :=
  s.finishPacked rd (mapHalves (fun a b => a + b) (s.getReg rx) (s.getReg ry)) noFlags

/-- R1006. -/
def execPaddhUb (rd rx ry : RegNo) (s : State) : Out :=
  s.finishPacked rd (mapBytes (fun a b => halve 8 (uInt a + uInt b)) (s.getReg rx) (s.getReg ry)) noFlags

/-- R1006. -/
def execPaddhSh (rd rx ry : RegNo) (s : State) : Out :=
  s.finishPacked rd (mapHalves (fun a b => halve 16 (sInt a + sInt b)) (s.getReg rx) (s.getReg ry)) noFlags

/-- R1007. -/
def execPaddsUb (rd rx ry : RegNo) (s : State) : Out := s.satBytes rd rx ry (satU 8) (fun a b => uInt a + uInt b)

/-- R1007. -/
def execPaddsSb (rd rx ry : RegNo) (s : State) : Out := s.satBytes rd rx ry (satS 8) (fun a b => sInt a + sInt b)

/-- R1007. -/
def execPaddsUh (rd rx ry : RegNo) (s : State) : Out := s.satHalves rd rx ry (satU 16) (fun a b => uInt a + uInt b)

/-- R1007. -/
def execPaddsSh (rd rx ry : RegNo) (s : State) : Out := s.satHalves rd rx ry (satS 16) (fun a b => sInt a + sInt b)

/-- R1015. -/
def execPavgUb (rd rx ry : RegNo) (s : State) : Out :=
  s.finishPacked rd (mapBytes (fun a b => halve 8 (uInt a + uInt b + 1)) (s.getReg rx) (s.getReg ry)) noFlags

/-- R1015. -/
def execPavgSh (rd rx ry : RegNo) (s : State) : Out :=
  s.finishPacked rd (mapHalves (fun a b => halve 16 (sInt a + sInt b + 1)) (s.getReg rx) (s.getReg ry)) noFlags

/-- R1021. -/
def execPsubB (rd rx ry : RegNo) (s : State) : Out :=
  s.finishPacked rd (mapBytes (fun a b => a - b) (s.getReg rx) (s.getReg ry)) noFlags

/-- R1021. -/
def execPsubH (rd rx ry : RegNo) (s : State) : Out :=
  s.finishPacked rd (mapHalves (fun a b => a - b) (s.getReg rx) (s.getReg ry)) noFlags

/-- R1025. -/
def execPsubhUb (rd rx ry : RegNo) (s : State) : Out :=
  s.finishPacked rd (mapBytes (fun a b => halve 8 (uInt a - uInt b)) (s.getReg rx) (s.getReg ry)) noFlags

/-- R1025. -/
def execPsubhSh (rd rx ry : RegNo) (s : State) : Out :=
  s.finishPacked rd (mapHalves (fun a b => halve 16 (sInt a - sInt b)) (s.getReg rx) (s.getReg ry)) noFlags

/-- R1026. -/
def execPsubsUb (rd rx ry : RegNo) (s : State) : Out := s.satBytes rd rx ry (satSU 8) (fun a b => uInt a - uInt b)

/-- R1026. -/
def execPsubsSb (rd rx ry : RegNo) (s : State) : Out := s.satBytes rd rx ry (satS 8) (fun a b => sInt a - sInt b)

/-- R1026. -/
def execPsubsUh (rd rx ry : RegNo) (s : State) : Out := s.satHalves rd rx ry (satSU 16) (fun a b => uInt a - uInt b)

/-- R1026. -/
def execPsubsSh (rd rx ry : RegNo) (s : State) : Out := s.satHalves rd rx ry (satS 16) (fun a b => sInt a - sInt b)

/-- The sum over the four byte lanes of the absolute differences (R1020). -/
def sumOfDifferences (x y : Word) : Nat :=
  let d (p : BitVec 2) : Nat := ((bytePart x p).toNat - (bytePart y p).toNat) + ((bytePart y p).toNat - (bytePart x p).toNat)
  d 3#2 + d 2#2 + d 1#2 + d 0#2

/-- R1020. -/
def execPsad (rd rx ry : RegNo) (s : State) : Out :=
  s.finishPacked rd (BitVec.ofNat 32 (sumOfDifferences (s.getReg rx) (s.getReg ry))) noFlags

/-! ## Crossed operands -/

/-- R1011. -/
def execPaddxH (rd rx ry : RegNo) (s : State) : Out :=
  s.finishPacked rd (crossHalves (fun a b => a + b) (s.getReg rx) (s.getReg ry)) noFlags

/-- R1012. -/
def execPaddxhSh (rd rx ry : RegNo) (s : State) : Out :=
  s.finishPacked rd (crossHalves (fun a b => halve 16 (sInt a + sInt b)) (s.getReg rx) (s.getReg ry)) noFlags

/-- R1013. -/
def execPaddxsUh (rd rx ry : RegNo) (s : State) : Out := s.satCross rd rx ry (satU 16) (fun a b => uInt a + uInt b)

/-- R1013. -/
def execPaddxsSh (rd rx ry : RegNo) (s : State) : Out := s.satCross rd rx ry (satS 16) (fun a b => sInt a + sInt b)

/-- R1027. -/
def execPsubxH (rd rx ry : RegNo) (s : State) : Out :=
  s.finishPacked rd (crossHalves (fun a b => a - b) (s.getReg rx) (s.getReg ry)) noFlags

/-- R1028. -/
def execPsubxhSh (rd rx ry : RegNo) (s : State) : Out :=
  s.finishPacked rd (crossHalves (fun a b => halve 16 (sInt a - sInt b)) (s.getReg rx) (s.getReg ry)) noFlags

/-- R1029. -/
def execPsubxsUh (rd rx ry : RegNo) (s : State) : Out := s.satCross rd rx ry (satSU 16) (fun a b => uInt a - uInt b)

/-- R1029. -/
def execPsubxsSh (rd rx ry : RegNo) (s : State) : Out := s.satCross rd rx ry (satS 16) (fun a b => sInt a - sInt b)

/-! ## Sum and difference of two selected halfwords -/

/-- R1008. -/
def execPaddsubH (rd rx : RegNo) (xp : BitVec 1) (ry : RegNo) (yp : BitVec 1) (s : State) : Out :=
  let a := halfPart (s.getReg rx) xp
  let b := halfPart (s.getReg ry) yp
  s.finishPacked rd (packHalves (a + b) (a - b)) noFlags

/-- R1009. -/
def execPaddsubhSh (rd rx : RegNo) (xp : BitVec 1) (ry : RegNo) (yp : BitVec 1) (s : State) : Out :=
  let a := halfPart (s.getReg rx) xp
  let b := halfPart (s.getReg ry) yp
  s.finishPacked rd (packHalves (halve 16 (sInt a + sInt b)) (halve 16 (sInt a - sInt b))) noFlags

/-- R1010. -/
def execPaddsubsUh (rd rx : RegNo) (xp : BitVec 1) (ry : RegNo) (yp : BitVec 1) (s : State) : Out :=
  let a := halfPart (s.getReg rx) xp
  let b := halfPart (s.getReg ry) yp
  s.finishSatHalves rd ⟨uInt a + uInt b, satU 16⟩ ⟨uInt a - uInt b, satSU 16⟩

/-- R1010. -/
def execPaddsubsSh (rd rx : RegNo) (xp : BitVec 1) (ry : RegNo) (yp : BitVec 1) (s : State) : Out :=
  let a := halfPart (s.getReg rx) xp
  let b := halfPart (s.getReg ry) yp
  s.finishSatHalves rd ⟨sInt a + sInt b, satS 16⟩ ⟨sInt a - sInt b, satS 16⟩

/-- R1022. -/
def execPsubaddH (rd rx : RegNo) (xp : BitVec 1) (ry : RegNo) (yp : BitVec 1) (s : State) : Out :=
  let a := halfPart (s.getReg rx) xp
  let b := halfPart (s.getReg ry) yp
  s.finishPacked rd (packHalves (a - b) (a + b)) noFlags

/-- R1023. -/
def execPsubaddhSh (rd rx : RegNo) (xp : BitVec 1) (ry : RegNo) (yp : BitVec 1) (s : State) : Out :=
  let a := halfPart (s.getReg rx) xp
  let b := halfPart (s.getReg ry) yp
  s.finishPacked rd (packHalves (halve 16 (sInt a - sInt b)) (halve 16 (sInt a + sInt b))) noFlags

/-- R1024. -/
def execPsubaddsUh (rd rx : RegNo) (xp : BitVec 1) (ry : RegNo) (yp : BitVec 1) (s : State) : Out :=
  let a := halfPart (s.getReg rx) xp
  let b := halfPart (s.getReg ry) yp
  s.finishSatHalves rd ⟨uInt a - uInt b, satSU 16⟩ ⟨uInt a + uInt b, satU 16⟩

/-- R1024. -/
def execPsubaddsSh (rd rx : RegNo) (xp : BitVec 1) (ry : RegNo) (yp : BitVec 1) (s : State) : Out :=
  let a := halfPart (s.getReg rx) xp
  let b := halfPart (s.getReg ry) yp
  s.finishSatHalves rd ⟨sInt a - sInt b, satS 16⟩ ⟨sInt a + sInt b, satS 16⟩

/-! ## Shifts -/

/-- R1014. -/
def execPasrB (rd rs : RegNo) (sa : BitVec 3) (s : State) : Out :=
  s.finishPacked rd (mapBytes (fun a _ => a.sshiftRight sa.toNat) (s.getReg rs) 0#32) noFlags

/-- R1014. -/
def execPasrH (rd rs : RegNo) (sa : BitVec 4) (s : State) : Out :=
  s.finishPacked rd (mapHalves (fun a _ => a.sshiftRight sa.toNat) (s.getReg rs) 0#32) noFlags

/-- R1016. -/
def execPlslB (rd rs : RegNo) (sa : BitVec 3) (s : State) : Out :=
  s.finishPacked rd (mapBytes (fun a _ => a <<< sa.toNat) (s.getReg rs) 0#32) noFlags

/-- R1016. -/
def execPlslH (rd rs : RegNo) (sa : BitVec 4) (s : State) : Out :=
  s.finishPacked rd (mapHalves (fun a _ => a <<< sa.toNat) (s.getReg rs) 0#32) noFlags

/-- R1017. -/
def execPlsrB (rd rs : RegNo) (sa : BitVec 3) (s : State) : Out :=
  s.finishPacked rd (mapBytes (fun a _ => a >>> sa.toNat) (s.getReg rs) 0#32) noFlags

/-- R1017. -/
def execPlsrH (rd rs : RegNo) (sa : BitVec 4) (s : State) : Out :=
  s.finishPacked rd (mapHalves (fun a _ => a >>> sa.toNat) (s.getReg rs) 0#32) noFlags

/-! ## Maximum and minimum: the flags receive the comparisons (R1018, R1019) -/

/-- The lane of `x` where `p` holds of the pair, else the lane of `y`; V, N, Z, C are `p` of lanes 0, 1, 2, 3. -/
def State.selectBytes (s : State) (rd rx ry : RegNo) (p : Byte → Byte → Bool) : Out :=
  let x := s.getReg rx
  let y := s.getReg ry
  s.finishPacked rd (mapBytes (fun a b => if p a b then a else b) x y)
    { v := some (p (bytePart x 0#2) (bytePart y 0#2)), n := some (p (bytePart x 1#2) (bytePart y 1#2)),
      z := some (p (bytePart x 2#2) (bytePart y 2#2)), c := some (p (bytePart x 3#2) (bytePart y 3#2)) }

/-- The same on halfwords; Z and C are `p` of the bottom and the top lane. -/
def State.selectHalves (s : State) (rd rx ry : RegNo) (p : Half → Half → Bool) : Out :=
  let x := s.getReg rx
  let y := s.getReg ry
  s.finishPacked rd (mapHalves (fun a b => if p a b then a else b) x y)
    { z := some (p (bottom x) (bottom y)), c := some (p (top x) (top y)) }

/-- R1018. -/
def execPmaxUb (rd rx ry : RegNo) (s : State) : Out := s.selectBytes rd rx ry (fun a b => b.ult a)

/-- R1018. -/
def execPmaxSh (rd rx ry : RegNo) (s : State) : Out := s.selectHalves rd rx ry (fun a b => b.slt a)

/-- R1019. -/
def execPminUb (rd rx ry : RegNo) (s : State) : Out := s.selectBytes rd rx ry (fun a b => a.ult b)

/-- R1019. -/
def execPminSh (rd rx ry : RegNo) (s : State) : Out := s.selectHalves rd rx ry (fun a b => a.slt b)

end Sys2Proof.Machine
end

