-- ==== Sys2Proof/Machine/Store.lean ====
section
/-! DEFINITION. Single-register stores and stcond (47_data_transfer_stores_multiple.md R810 to R822, R846). -/

namespace Sys2Proof.Machine

/-- A store whose pointer R`p` moves to `ptr`; with `p = s` the bytes stored and the pointer hold any values (R822, U45). -/
def State.storePtr (s : State) (len : Word) (kind : LsKind) (n : Nat) (rp rs : RegNo) (va ptr : Word) : Out :=
  if rp = rs then s.finishStorePtr len rp (s.freeAt 1) (store kind n va s.free (s.drawFree 2))
  else s.finishStorePtr len rp ptr (store kind n va (s.getReg rs) s)

/-- The five formats of st.b and st.h: `k` is log2 of the access size. -/
def State.storeForm (s : State) (kind : LsKind) (k : Nat) : StoreForm → Out
  | .formI rp rs => s.storePtr 2#32 kind (2 ^ k) rp rs (s.getReg rp) (s.getReg rp + BitVec.ofNat 32 (2 ^ k))
  | .formII rp rs =>
    s.storePtr 2#32 kind (2 ^ k) rp rs (s.getReg rp - BitVec.ofNat 32 (2 ^ k)) (s.getReg rp - BitVec.ofNat 32 (2 ^ k))
  | .formIII rp rs disp => s.finishStore 2#32 (store kind (2 ^ k) (s.dispZ rp disp k) (s.getReg rs) s)
  | .formIV rp rs disp => s.finishStore 4#32 (store kind (2 ^ k) (s.dispS rp disp 0) (s.getReg rs) s)
  | .formV rb ri rs sa => s.finishStore 4#32 (store kind (2 ^ k) (s.indexed rb ri sa) (s.getReg rs) s)

/-- The conditional stores of revision 2. -/
def State.storeCond (s : State) (kind : LsKind) (k : Nat) (c : Cond) (rp rs : RegNo) (disp : BitVec 9) : Out :=
  requireUnit (hasRev s.cfg 2) s
    (s.ifCond c 4#32 (s.finishStore 4#32 (store kind (2 ^ k) (s.dispZ rp disp k) (s.getReg rs) s)))

/-- R811. -/
def execStB (f : StoreForm) (s : State) : Out := s.storeForm .byte 0 f

/-- R812. -/
def execStBCond (c : Cond) (rp rs : RegNo) (disp : BitVec 9) (s : State) : Out := s.storeCond .byte 0 c rp rs disp

/-- R814. -/
def execStH (f : StoreForm) (s : State) : Out := s.storeForm .stH 1 f

/-- R815. -/
def execStHCond (c : Cond) (rp rs : RegNo) (disp : BitVec 9) (s : State) : Out := s.storeCond .stHCond 1 c rp rs disp

/-- R816. -/
def execStW (f : StwForm) (s : State) : Out :=
  match f with
  | .formI rp rs => s.storePtr 2#32 .stW 4 rp rs (s.getReg rp) (s.getReg rp + 4#32)
  | .formII rp rs => s.storePtr 2#32 .stW 4 rp rs (s.getReg rp - 4#32) (s.getReg rp - 4#32)
  | .formIII rp rs disp => s.finishStore 2#32 (store .stW 4 (s.dispZ rp disp 2) (s.getReg rs) s)
  | .formIV rp rs disp => s.finishStore 4#32 (store .stW 4 (s.dispS rp disp 0) (s.getReg rs) s)
  | .formV rb ri rs sa => s.finishStore 4#32 (store .stW 4 (s.indexed rb ri sa) (s.getReg rs) s)

/-- R817. -/
def execStWCond (c : Cond) (rp rs : RegNo) (disp : BitVec 9) (s : State) : Out := s.storeCond .stWCond 2 c rp rs disp

/-- The doubleword `{R[s+1], R[s]}` stored; an odd `s` stores any value (U2). -/
def storePair (va : Word) (rs : RegNo) (s : State) : Res Unit :=
  if evenNo rs then storeDouble .stD va (s.getReg (rs + 1#4)) (s.getReg rs) s
  else storeDouble .stD va s.free (s.freeAt 1) (s.drawFree 2)

/-- The pointer forms of st.d: with p = s or p = s + 1 any values are stored and left in the pointer (R822, U45). -/
def State.storePairPtr (s : State) (rp rs : RegNo) (va ptr : Word) : Out :=
  if rp = rs || rp = rs + 1#4 then s.finishStorePtr 2#32 rp (s.freeAt 2) (storeDouble .stD va s.free (s.freeAt 1) (s.drawFree 3))
  else s.finishStorePtr 2#32 rp ptr (storePair va rs s)

/-- R813. -/
def execStD (f : StdForm) (s : State) : Out :=
  match f with
  | .formI rp rs => s.storePairPtr rp rs (s.getReg rp) (s.getReg rp + 8#32)
  | .formII rp rs => s.storePairPtr rp rs (s.getReg rp - 8#32) (s.getReg rp - 8#32)
  | .formIII rp rs => s.finishStore 2#32 (storePair (s.getReg rp) rs s)
  | .formIV rp rs disp => s.finishStore 4#32 (storePair (s.dispS rp disp 0) rs s)
  | .formV rb ri rs sa => s.finishStore 4#32 (storePair (s.indexed rb ri sa) rs s)

/-- R818. -/
def execStdsp (rs : RegNo) (disp : BitVec 7) (s : State) : Out :=
  s.finishStore 2#32 (store .stdsp 4 (s.wordBase 13#4 + (zext disp <<< 2)) (s.getReg rs) s)

/-- R819. -/
def execSthhW (f : SthhForm) (s : State) : Out :=
  match f with
  | .formI rx xp ry yp rp disp =>
    s.finishStore 4#32 (store .sthhW 4 (s.dispZ rp disp 2) (halfPart (s.getReg rx) xp ++ halfPart (s.getReg ry) yp) s)
  | .formII rx xp ry yp rb ri sa =>
    s.finishStore 4#32 (store .sthhW 4 (s.indexed rb ri sa) (halfPart (s.getReg rx) xp ++ halfPart (s.getReg ry) yp) s)

/-- R820. -/
def execStswpH (rp rs : RegNo) (disp : BitVec 12) (s : State) : Out :=
  s.finishStore 4#32 (store .stswpH 2 (s.dispS rp disp 1) (zext (swapHalf ((s.getReg rs).setWidth 16))) s)

/-- R821. -/
def execStswpW (rp rs : RegNo) (disp : BitVec 12) (s : State) : Out :=
  s.finishStore 4#32 (store .stswpW 4 (s.dispS rp disp 2) (swapBytes (s.getReg rs)) s)

/-- R846: the store is made where L is set, and Z reports it. -/
def execStcond (rp rs : RegNo) (disp : BitVec 16) (s : State) : Out :=
  if s.flagL then
    ((store .stcond 4 (s.dispS rp disp 0) (s.getReg rs) s).bind fun _ s1 =>
      .ok ((s1.advance 4#32).setFlags { z := some true }) s1).finish
  else s.finishFlags 4#32 { z := some false }

end Sys2Proof.Machine
end

