-- ==== Sys2Proof/Machine/System.lean ====
section
/-! DEFINITION. The system and control instructions (48_system_coprocessor_java.md R890 to R942) with the returns and calls between contexts
(60_exceptions.md R1081, R1110). Each checks in the order of R890 (c): unit, privilege, operation. -/

namespace Sys2Proof.Machine

/-! ## The status register -/

/-- SR[n] made `b`; reserved bits and SS do not change (R890 (d), D10). -/
def State.writeSrBit (s : State) (n : BitVec 5) (b : Bool) : State :=
  if srImplemented.getLsbD n.toNat && n != 31#5 then s.setSrBit n.toNat b else s

/-- SR[n] as an instruction reads it: a reserved bit reads 0 (D10). -/
def State.readSrBit (s : State) (n : BitVec 5) : Bool := (s.sr &&& srImplemented).getLsbD n.toNat

/-- The right to name SR[n]: the upper half is privileged (R900, R901, R932). -/
def State.maySrBit (s : State) (n : BitVec 5) : Bool := n.toNat ≤ 15 || s.privileged

/-- R900. -/
def execCsrf (bp : BitVec 5) (s : State) : Out :=
  requireRight (s.maySrBit bp) s (.next ((s.advance 2#32).writeSrBit bp false))

/-- R901. -/
def execCsrfcz (bp : BitVec 5) (s : State) : Out :=
  requireRight (s.maySrBit bp) s (s.finishFlags 2#32 { z := some (s.readSrBit bp), c := some (s.readSrBit bp) })

/-- R932. -/
def execSsrf (bp : BitVec 5) (s : State) : Out :=
  requireRight (s.maySrBit bp) s (.next ((s.advance 2#32).writeSrBit bp true))

/-- R917: V, N, Z and C from bits 3 to 0 of Rs. -/
def execMusfr (rs : RegNo) (s : State) : Out :=
  let v := s.getReg rs
  s.finishFlags 2#32 { v := some (v.getLsbD 3), n := some (v.getLsbD 2), z := some (v.getLsbD 1), c := some (v.getLsbD 0) }

/-- R918. -/
def execMustr (rd : RegNo) (s : State) : Out := s.finishReg 2#32 rd (s.sr &&& 0x0000000F#32) noFlags

/-- R927. -/
def execSrCond (c : Cond) (rd : RegNo) (s : State) : Out := s.finishReg 2#32 rd (if s.cond c then 1#32 else 0#32) noFlags

/-! ## System and debug registers -/

/-- JECR and JOSP are the two system registers that every mode may reach (R910, R914). -/
def State.maySysReg (s : State) (n : BitVec 8) : Bool := n == 21#8 || n == 22#8 || s.privileged

/-- R910: a register that does not exist gives any value (U20). -/
def execMfsr (rd : RegNo) (n : BitVec 8) (s : State) : Out :=
  requireRight (s.maySysReg n) s
    (match s.readSysReg n with
     | some v => s.finishReg 4#32 rd v noFlags
     | none => (s.drawFree 1).finishReg 4#32 rd s.free noFlags)

/-- R914. -/
def execMtsr (rs : RegNo) (n : BitVec 8) (s : State) : Out :=
  requireRight (s.maySysReg n) s (.next ((s.advance 4#32).writeSysReg n (s.getReg rs)))

/-- The debug register exists (`DEBUG_REGS`, R156). -/
def hasDebugReg (cfg : Params) (n : BitVec 8) : Bool := cfg.debugRegs.contains n

/-- R912: a register that does not exist gives any value (U22). SR[SS] makes no difference (DESIGN CHOICE, notes/assumptions/21.md). -/
def execMfdr (rd : RegNo) (n : BitVec 8) (s : State) : Out :=
  requireRight s.privileged s
    (if hasDebugReg s.cfg n then s.finishReg 4#32 rd (s.debug[n.toNat]'n.isLt) noFlags
     else (s.drawFree 1).finishReg 4#32 rd s.free noFlags)

/-- R916: a debug register is plain storage (notes/assumptions/18.md); one that does not exist is not written. -/
def execMtdr (rs : RegNo) (n : BitVec 8) (s : State) : Out :=
  requireRight s.privileged s
    (.next (if hasDebugReg s.cfg n then { s.advance 4#32 with debug := Vector.set s.debug n.toNat (s.getReg rs) n.isLt } else s.advance 4#32))

/-! ## Instructions that change no register -/

/-- R919. -/
def execNop (s : State) : Out := s.finishNop 2#32

/-- R903: there is no return address stack (R1224). -/
def execFrs (s : State) : Out := s.finishNop 2#32

/-- R928, R312: every access has completed already, and a bus error that one of them got is due: the boundary after the sync signals it. -/
def execSync (_op : BitVec 8) (s : State) : Out := .next { s.advance 4#32 with busErrDue := s.busErr.length }

/-- R907, R332. -/
def execPref (_rp : RegNo) (_disp : BitVec 16) (s : State) : Out := s.finishNop 4#32

/-- R905, R330: privileged; there is no cache. -/
def execCache (_op : BitVec 5) (_rp : RegNo) (_disp : BitVec 11) (s : State) : Out :=
  requireRight s.privileged s (s.finishNop 4#32)

/-! ## Calls into and returns from the privileged contexts -/

/-- The EVBA offset of scall (R920). -/
def scallTarget (s : State) : Word := s.ctl.evba + 0x100#32

/-- A word that scall pushes: an access of the hardware to the system stack, with privileged rights (R1052, R1123; DEDUCED,
notes/assumptions/14.md). -/
def pushSystem (va v : Word) (s : State) : Res Unit :=
  (checkAccess .write true .scall 4 va s).bind fun ps s1 => .ok () (writeChecked ps (bytesOfWord v 4) s1)

/-- R920, R1081. The saved SR is the one before the mode changes. A word pushed before the second push raises an event stays in memory, as
R850 (b) has it; no register changes (DEDUCED, notes/assumptions/14.md). The pushes are two transfers, and other agents may act between them
(R208). -/
def execScall (s : State) : Out :=
  if s.mode = 0#3 ∨ s.mode = 1#3 then
    let sr := setMode s.sr 1#3
    if s.cfg.archB then
      .next ({ s with ret := s.ret.save 1#3 s.sr (s.pc + 2#32), sr := sr }.jump (scallTarget s))
    else
      let sp := s.systemSp
      ((pushSystem (sp - 4#32) (s.pc + 2#32) s).bind fun _ s1 =>
        (pushSystem (sp - 8#32) s.sr s1.busTurn).bind fun _ s2 =>
          .ok ({ s2.setSystemSp (sp - 8#32) with sr := sr }.jump (scallTarget s)) s2).finish
  else .next (s.callTo 2#32 (scallTarget s))

/-- SR and PC of a return (R890 (d), R111). -/
def State.returnTo (s : State) (sr pc : Word) : State := (s.writeSr sr).jump pc

/-- R923: the test is of the mode bits alone. -/
def execRets (s : State) : Out :=
  if s.mode = 0#3 then raiseEvent .privilegeViolation s
  else if s.mode = 1#3 then
    if s.cfg.archB then .next (s.returnTo s.ret.rsrSup s.ret.rarSup)
    else
      let sp := s.systemSp
      ((popWords .rets sp 2 s).bind fun ws s1 =>
        .ok ((s1.setSystemSp (sp + 8#32)).returnTo (ws.getD 0 0#32) (ws.getD 1 0#32)) s1).finish
  else .next (s.jump (s.getReg 14#4))

/-- The registers that rete pops after SR and PC on the way out of an interrupt context, in the order of their addresses (R922). -/
def interruptFrame : List RegNo := [14#4, 12#4, 11#4, 10#4, 9#4, 8#4]

/-- The mode is INT0 to INT3. -/
def interruptMode (m : BitVec 3) : Bool := 2 ≤ m.toNat && m.toNat ≤ 5

/-- R922, R1110: L is cleared after SR is restored. -/
def execRete (s : State) : Out :=
  if s.mode = 0#3 ∨ s.mode = 1#3 then raiseEvent .privilegeViolation s
  else if s.cfg.archB then
    let r := s.ret.saved s.mode
    .next ((s.returnTo r.1 r.2).setSrBit bitL false)
  else
    let sp := s.systemSp
    let regs := if interruptMode s.mode then interruptFrame else []
    ((popWords .rete sp (2 + regs.length) s).bind fun ws s1 =>
      let s2 := (s1.setRegs (regs.zip (ws.drop 2))).setSystemSp (sp + BitVec.ofNat 32 (4 * (2 + regs.length)))
      .ok ((s2.returnTo (ws.getD 0 0#32) (ws.getD 1 0#32)).setSrBit bitL false) s1).finish

/-- R924: a register that does not exist gives any value (U20). -/
def execRetd (s : State) : Out :=
  requireRight s.privileged s
    (.next ((s.drawFree 2).returnTo (if hasRsrDbg s.cfg then s.ret.rsrDbg else s.free)
      (if hasRarDbg s.cfg then s.ret.rarDbg else s.freeAt 1)))

/-- R921: the saved address is that of the sscall itself. -/
def execSscall (s : State) : Out :=
  requireUnit (hasSecure s.cfg) s
    (let sr := setBit (setBit s.sr bitSS true) bitGM true
     .next ({ s with sec := { s.sec with rar := s.pc, rsr := s.sr }, sr := if s.mode = 0#3 then setMode sr 1#3 else sr }.jump
       (resetAddress s.cfg + 4#32)))

/-- R926: the whole of SR is replaced, SS too. -/
def execRetss (s : State) : Out :=
  requireUnit (hasSecure s.cfg) s
    (requireRight (s.srBit bitSS) s (.next ({ s with sr := s.sec.rsr &&& srImplemented }.jump s.sec.rar)))

/-- The breakpoint instruction enters debug mode (R902). -/
def State.breakpointTraps (s : State) : Bool := s.cfg.hasOcd && s.cfg.ocdEnabled && !s.srBit bitDM

/-- R902, R1082. -/
def execBreakpoint (s : State) : Out := if s.breakpointTraps then .next (s.enterBreakpoint s.pc) else s.finishNop 2#32

/-- R925, R1180: the instruction completes; what follows waits for an event unless the mode of Op8 is to do nothing. -/
def execSleep (op : BitVec 8) (s : State) : Out :=
  requireRight s.privileged s
    (let s1 := if op.getLsbD 7 then (s.advance 4#32).setSrBit bitGM false else s.advance 4#32
     .next (if s.cfg.sleepNop.contains op then s1 else { s1 with sleeping := some op }))

/-! ## The TLB -/

/-- What TLBEHI[I] selects. -/
def State.tlbSelect (s : State) : Bool := s.mmu.tlbehi.getLsbD 8

/-- The replacement pointer of the selected TLB: IRP, or DRP (R245, R247). -/
def State.tlbPointer (s : State) : BitVec 6 :=
  if usesItlb s.cfg s.tlbSelect then s.mmu.mmucr.extractLsb' 26 6 else s.mmu.mmucr.extractLsb' 14 6

/-- The entry that TLBEHI and TLBELO hold; the bits that an ITLB or a DTLB does not implement are dropped (R240, R255, U10). -/
def State.tlbHeld (s : State) : TlbEntry :=
  let hi := s.mmu.tlbehi
  let lo := s.mmu.tlbelo
  let itlb := usesItlb s.cfg s.tlbSelect
  let dtlb := s.cfg.mmut == .split && !itlb
  let ap := lo.extractLsb' 4 3 &&& (if itlb then 0b101#3 else if dtlb then 0b110#3 else 0b111#3)
  { vpn := hi.extractLsb' 10 22, asid := hi.extractLsb' 0 8, v := hi.getLsbD 9, pfn := lo.extractLsb' 10 22, c := lo.getLsbD 9,
    g := lo.getLsbD 8, b := lo.getLsbD 7, ap := ap, sz := lo.extractLsb' 2 2, d := lo.getLsbD 1 && !itlb, w := lo.getLsbD 0 && !itlb,
    a := true }

/-- One bit as a vector. -/
def bit1 (b : Bool) : BitVec 1 := if b then 1#1 else 0#1

/-- TLBEHI after tlbr of `e`: I keeps its value (R256). -/
def TlbEntry.high (e : TlbEntry) (i : Bool) : Word := e.vpn ++ bit1 e.v ++ bit1 i ++ e.asid

/-- TLBELO after tlbr of `e` (R256). -/
def TlbEntry.low (e : TlbEntry) : Word :=
  e.pfn ++ bit1 e.c ++ bit1 e.g ++ bit1 e.b ++ e.ap ++ e.sz ++ bit1 e.d ++ bit1 e.w

/-- The bits of TLBELO that the selected TLB does not implement (R240). -/
def State.tlbAbsent (s : State) : Word :=
  if usesItlb s.cfg s.tlbSelect then 0x00000023#32 else if s.cfg.mmut == .split then 0x00000010#32 else 0#32

/-- Unimplemented without a TLB, then privileged (R940 to R942). -/
def requireTlb (s : State) (k : Out) : Out := requireUnit (hasMmu s.cfg) s (requireRight s.privileged s k)

/-- R940, R256: a pointer past the implemented entries gives any values (U11), and so do the bits that are not implemented (U10). -/
def execTlbr (s : State) : Out :=
  requireTlb s
    (let p := s.tlbPointer.toNat
     if p < s.tlbSize s.tlbSelect then
       let e := (s.tlb s.tlbSelect).toList.getD p TlbEntry.invalid
       let lo := (e.low &&& ~~~s.tlbAbsent) ||| (s.free &&& s.tlbAbsent)
       .next { (s.advance 2#32).drawFree 1 with mmu := { s.mmu with tlbehi := e.high s.tlbSelect, tlbelo := lo } }
     else .next { (s.advance 2#32).drawFree 2 with mmu := { s.mmu with tlbehi := s.free, tlbelo := s.freeAt 1 } })

/-- R941, R257: the last entry that hits; without one the pointer keeps its value (D28). -/
def execTlbs (s : State) : Out :=
  requireTlb s
    (let cr :=
       match (s.tlbHits s.tlbSelect (s.mmu.tlbehi &&& 0xFFFFFC00#32)).getLast? with
       | none => setBit s.mmu.mmucr 3 true
       | some (_, i) => insertField (setBit s.mmu.mmucr 3 false) (if usesItlb s.cfg s.tlbSelect then 26 else 14) 6 (BitVec.ofNat 32 i)
     .next { s.advance 2#32 with mmu := { s.mmu with mmucr := cr } })

/-- R942, R255: a pointer past the implemented entries writes nothing (U11). -/
def execTlbw (s : State) : Out :=
  requireTlb s
    (let t := s.advance 2#32
     .next (if s.tlbPointer.toNat < s.tlbSize s.tlbSelect then t.setTlbEntry s.tlbSelect s.tlbPointer.toNat s.tlbHeld else t))

end Sys2Proof.Machine
end

