-- ==== Sys2Proof/Machine/Dispatch.lean ====
section
/-! DEFINITION. One arm per constructor of Instr: the meaning of each instruction, by its full name. -/

namespace Sys2Proof.Machine

def exec (i : Instr) (s : State) : Host.Outcome State Fault Refusal :=
  match i with
  | .abs rd => Sys2Proof.Machine.execAbs rd s
  | .acr rd => Sys2Proof.Machine.execAcr rd s
  | .adc rd rx ry => Sys2Proof.Machine.execAdc rd rx ry s
  | .add f => Sys2Proof.Machine.execAdd f s
  | .addCond c rd rx ry => Sys2Proof.Machine.execAddCond c rd rx ry s
  | .addabs rd rx ry => Sys2Proof.Machine.execAddabs rd rx ry s
  | .cpB rd rs => Sys2Proof.Machine.execCpB rd rs s
  | .cpH rd rs => Sys2Proof.Machine.execCpH rd rs s
  | .cpW f => Sys2Proof.Machine.execCpW f s
  | .cpc f => Sys2Proof.Machine.execCpc f s
  | .max rd rx ry => Sys2Proof.Machine.execMax rd rx ry s
  | .min rd rx ry => Sys2Proof.Machine.execMin rd rx ry s
  | .neg rd => Sys2Proof.Machine.execNeg rd s
  | .rsub f => Sys2Proof.Machine.execRsub f s
  | .rsubCond c rd imm => Sys2Proof.Machine.execRsubCond c rd imm s
  | .sbc rd rx ry => Sys2Proof.Machine.execSbc rd rx ry s
  | .scr rd => Sys2Proof.Machine.execScr rd s
  | .sub f => Sys2Proof.Machine.execSub f s
  | .subCond f => Sys2Proof.Machine.execSubCond f s
  | .tnbz rd => Sys2Proof.Machine.execTnbz rd s
  | .divs rd rx ry => Sys2Proof.Machine.execDivs rd rx ry s
  | .divu rd rx ry => Sys2Proof.Machine.execDivu rd rx ry s
  | .mac rd rx ry => Sys2Proof.Machine.execMac rd rx ry s
  | .macsD rd rx ry => Sys2Proof.Machine.execMacsD rd rx ry s
  | .macuD rd rx ry => Sys2Proof.Machine.execMacuD rd rx ry s
  | .mul f => Sys2Proof.Machine.execMul f s
  | .mulsD rd rx ry => Sys2Proof.Machine.execMulsD rd rx ry s
  | .muluD rd rx ry => Sys2Proof.Machine.execMuluD rd rx ry s
  | .addhhW rd rx xp ry yp => Sys2Proof.Machine.execAddhhW rd rx xp ry yp s
  | .machhD rd rx xp ry yp => Sys2Proof.Machine.execMachhD rd rx xp ry yp s
  | .machhW rd rx xp ry yp => Sys2Proof.Machine.execMachhW rd rx xp ry yp s
  | .macwhD rd rx ry yp => Sys2Proof.Machine.execMacwhD rd rx ry yp s
  | .mulhhW rd rx xp ry yp => Sys2Proof.Machine.execMulhhW rd rx xp ry yp s
  | .mulwhD rd rx ry yp => Sys2Proof.Machine.execMulwhD rd rx ry yp s
  | .mulnhhW rd rx xp ry yp => Sys2Proof.Machine.execMulnhhW rd rx xp ry yp s
  | .mulnwhD rd rx ry yp => Sys2Proof.Machine.execMulnwhD rd rx ry yp s
  | .sataddH rd rx ry => Sys2Proof.Machine.execSataddH rd rx ry s
  | .sataddW rd rx ry => Sys2Proof.Machine.execSataddW rd rx ry s
  | .satsubH rd rx ry => Sys2Proof.Machine.execSatsubH rd rx ry s
  | .satsubW f => Sys2Proof.Machine.execSatsubW f s
  | .satrnds rd sa bp => Sys2Proof.Machine.execSatrnds rd sa bp s
  | .satrndu rd sa bp => Sys2Proof.Machine.execSatrndu rd sa bp s
  | .sats rd sa bp => Sys2Proof.Machine.execSats rd sa bp s
  | .satu rd sa bp => Sys2Proof.Machine.execSatu rd sa bp s
  | .subhhW rd rx xp ry yp => Sys2Proof.Machine.execSubhhW rd rx xp ry yp s
  | .mulsathhH rd rx xp ry yp => Sys2Proof.Machine.execMulsathhH rd rx xp ry yp s
  | .mulsathhW rd rx xp ry yp => Sys2Proof.Machine.execMulsathhW rd rx xp ry yp s
  | .mulsatrndhhH rd rx xp ry yp => Sys2Proof.Machine.execMulsatrndhhH rd rx xp ry yp s
  | .mulsatrndwhW rd rx ry yp => Sys2Proof.Machine.execMulsatrndwhW rd rx ry yp s
  | .mulsatwhW rd rx ry yp => Sys2Proof.Machine.execMulsatwhW rd rx ry yp s
  | .macsathhW rd rx xp ry yp => Sys2Proof.Machine.execMacsathhW rd rx xp ry yp s
  | .and f => Sys2Proof.Machine.execAnd f s
  | .andCond c rd rx ry => Sys2Proof.Machine.execAndCond c rd rx ry s
  | .eor f => Sys2Proof.Machine.execEor f s
  | .eorCond c rd rx ry => Sys2Proof.Machine.execEorCond c rd rx ry s
  | .or f => Sys2Proof.Machine.execOr f s
  | .orCond c rd rx ry => Sys2Proof.Machine.execOrCond c rd rx ry s
  | .andn rd rs => Sys2Proof.Machine.execAndn rd rs s
  | .andh rd coh imm => Sys2Proof.Machine.execAndh rd coh imm s
  | .andl rd coh imm => Sys2Proof.Machine.execAndl rd coh imm s
  | .com rd => Sys2Proof.Machine.execCom rd s
  | .eorh rd imm => Sys2Proof.Machine.execEorh rd imm s
  | .eorl rd imm => Sys2Proof.Machine.execEorl rd imm s
  | .orh rd imm => Sys2Proof.Machine.execOrh rd imm s
  | .orl rd imm => Sys2Proof.Machine.execOrl rd imm s
  | .tst rd rs => Sys2Proof.Machine.execTst rd rs s
  | .bfexts rd rs bp wd => Sys2Proof.Machine.execBfexts rd rs bp wd s
  | .bfextu rd rs bp wd => Sys2Proof.Machine.execBfextu rd rs bp wd s
  | .bfins rd rs bp wd => Sys2Proof.Machine.execBfins rd rs bp wd s
  | .bld rd bp => Sys2Proof.Machine.execBld rd bp s
  | .brev rd => Sys2Proof.Machine.execBrev rd s
  | .bst rd bp => Sys2Proof.Machine.execBst rd bp s
  | .castsB rd => Sys2Proof.Machine.execCastsB rd s
  | .castsH rd => Sys2Proof.Machine.execCastsH rd s
  | .castuB rd => Sys2Proof.Machine.execCastuB rd s
  | .castuH rd => Sys2Proof.Machine.execCastuH rd s
  | .cbr rd bp => Sys2Proof.Machine.execCbr rd bp s
  | .clz rd rs => Sys2Proof.Machine.execClz rd rs s
  | .sbr rd bp => Sys2Proof.Machine.execSbr rd bp s
  | .swapB rd => Sys2Proof.Machine.execSwapB rd s
  | .swapBh rd => Sys2Proof.Machine.execSwapBh rd s
  | .swapH rd => Sys2Proof.Machine.execSwapH rd s
  | .asr f => Sys2Proof.Machine.execAsr f s
  | .lsl f => Sys2Proof.Machine.execLsl f s
  | .lsr f => Sys2Proof.Machine.execLsr f s
  | .rol rd => Sys2Proof.Machine.execRol rd s
  | .ror rd => Sys2Proof.Machine.execRor rd s
  | .acall disp => Sys2Proof.Machine.execAcall disp s
  | .brCond3 c disp => Sys2Proof.Machine.execBrCond3 c disp s
  | .brCond4 c disp => Sys2Proof.Machine.execBrCond4 c disp s
  | .icall rd => Sys2Proof.Machine.execIcall rd s
  | .mcall rp disp => Sys2Proof.Machine.execMcall rp disp s
  | .rcall f => Sys2Proof.Machine.execRcall f s
  | .rjmp disp => Sys2Proof.Machine.execRjmp disp s
  | .retCond c rs => Sys2Proof.Machine.execRetCond c rs s
  | .mov f => Sys2Proof.Machine.execMov f s
  | .movCond f => Sys2Proof.Machine.execMovCond f s
  | .movh rd imm => Sys2Proof.Machine.execMovh rd imm s
  | .ldUb f => Sys2Proof.Machine.execLdUb f s
  | .ldUbCond c rd rp disp => Sys2Proof.Machine.execLdUbCond c rd rp disp s
  | .ldSb f => Sys2Proof.Machine.execLdSb f s
  | .ldSbCond c rd rp disp => Sys2Proof.Machine.execLdSbCond c rd rp disp s
  | .ldUh f => Sys2Proof.Machine.execLdUh f s
  | .ldUhCond c rd rp disp => Sys2Proof.Machine.execLdUhCond c rd rp disp s
  | .ldSh f => Sys2Proof.Machine.execLdSh f s
  | .ldShCond c rd rp disp => Sys2Proof.Machine.execLdShCond c rd rp disp s
  | .ldW f => Sys2Proof.Machine.execLdW f s
  | .ldWCond c rd rp disp => Sys2Proof.Machine.execLdWCond c rd rp disp s
  | .ldD f => Sys2Proof.Machine.execLdD f s
  | .ldinsB rd rp part disp => Sys2Proof.Machine.execLdinsB rd rp part disp s
  | .ldinsH rd rp part disp => Sys2Proof.Machine.execLdinsH rd rp part disp s
  | .ldswpSh rd rp disp => Sys2Proof.Machine.execLdswpSh rd rp disp s
  | .ldswpUh rd rp disp => Sys2Proof.Machine.execLdswpUh rd rp disp s
  | .ldswpW rd rp disp => Sys2Proof.Machine.execLdswpW rd rp disp s
  | .lddpc rd disp => Sys2Proof.Machine.execLddpc rd disp s
  | .lddsp rd disp => Sys2Proof.Machine.execLddsp rd disp s
  | .stB f => Sys2Proof.Machine.execStB f s
  | .stBCond c rp rs disp => Sys2Proof.Machine.execStBCond c rp rs disp s
  | .stH f => Sys2Proof.Machine.execStH f s
  | .stHCond c rp rs disp => Sys2Proof.Machine.execStHCond c rp rs disp s
  | .stW f => Sys2Proof.Machine.execStW f s
  | .stWCond c rp rs disp => Sys2Proof.Machine.execStWCond c rp rs disp s
  | .stD f => Sys2Proof.Machine.execStD f s
  | .stcond rp rs disp => Sys2Proof.Machine.execStcond rp rs disp s
  | .stdsp rs disp => Sys2Proof.Machine.execStdsp rs disp s
  | .sthhW f => Sys2Proof.Machine.execSthhW f s
  | .stswpH rp rs disp => Sys2Proof.Machine.execStswpH rp rs disp s
  | .stswpW rp rs disp => Sys2Proof.Machine.execStswpW rp rs disp s
  | .pushm list => Sys2Proof.Machine.execPushm list s
  | .popm k list => Sys2Proof.Machine.execPopm k list s
  | .ldm rp wb list => Sys2Proof.Machine.execLdm rp wb list s
  | .stm rp wb list => Sys2Proof.Machine.execStm rp wb list s
  | .ldmts rp wb list => Sys2Proof.Machine.execLdmts rp wb list s
  | .stmts rp wb list => Sys2Proof.Machine.execStmts rp wb list s
  | .csrf bp => Sys2Proof.Machine.execCsrf bp s
  | .csrfcz bp => Sys2Proof.Machine.execCsrfcz bp s
  | .ssrf bp => Sys2Proof.Machine.execSsrf bp s
  | .breakpoint => Sys2Proof.Machine.execBreakpoint s
  | .frs => Sys2Proof.Machine.execFrs s
  | .cache op rp disp => Sys2Proof.Machine.execCache op rp disp s
  | .pref rp disp => Sys2Proof.Machine.execPref rp disp s
  | .mfsr rd n => Sys2Proof.Machine.execMfsr rd n s
  | .mfdr rd n => Sys2Proof.Machine.execMfdr rd n s
  | .mtsr rs n => Sys2Proof.Machine.execMtsr rs n s
  | .mtdr rs n => Sys2Proof.Machine.execMtdr rs n s
  | .musfr rs => Sys2Proof.Machine.execMusfr rs s
  | .mustr rd => Sys2Proof.Machine.execMustr rd s
  | .nop => Sys2Proof.Machine.execNop s
  | .scall => Sys2Proof.Machine.execScall s
  | .sscall => Sys2Proof.Machine.execSscall s
  | .rete => Sys2Proof.Machine.execRete s
  | .rets => Sys2Proof.Machine.execRets s
  | .retd => Sys2Proof.Machine.execRetd s
  | .sleep op => Sys2Proof.Machine.execSleep op s
  | .retss => Sys2Proof.Machine.execRetss s
  | .srCond c rd => Sys2Proof.Machine.execSrCond c rd s
  | .sync op => Sys2Proof.Machine.execSync op s
  | .tlbr => Sys2Proof.Machine.execTlbr s
  | .tlbs => Sys2Proof.Machine.execTlbs s
  | .tlbw => Sys2Proof.Machine.execTlbw s
  | .cop cp op crd crx cry => Sys2Proof.Machine.execCop cp op crd crx cry s
  | .ldcD f => Sys2Proof.Machine.execLdcD f s
  | .ldcW f => Sys2Proof.Machine.execLdcW f s
  | .ldc0D crd rp disp => Sys2Proof.Machine.execLdc0D crd rp disp s
  | .ldc0W crd rp disp => Sys2Proof.Machine.execLdc0W crd rp disp s
  | .ldcmD cp rp wb list => Sys2Proof.Machine.execLdcmD cp rp wb list s
  | .ldcmW f => Sys2Proof.Machine.execLdcmW f s
  | .mvcrD cp rd crs => Sys2Proof.Machine.execMvcrD cp rd crs s
  | .mvcrW cp rd crs => Sys2Proof.Machine.execMvcrW cp rd crs s
  | .mvrcD cp crd rs => Sys2Proof.Machine.execMvrcD cp crd rs s
  | .mvrcW cp crd rs => Sys2Proof.Machine.execMvrcW cp crd rs s
  | .stcD f => Sys2Proof.Machine.execStcD f s
  | .stcW f => Sys2Proof.Machine.execStcW f s
  | .stc0D rp crs disp => Sys2Proof.Machine.execStc0D rp crs disp s
  | .stc0W rp crs disp => Sys2Proof.Machine.execStc0W rp crs disp s
  | .stcmD cp rp wb list => Sys2Proof.Machine.execStcmD cp rp wb list s
  | .stcmW f => Sys2Proof.Machine.execStcmW f s
  | .incjosp imm => Sys2Proof.Machine.execIncjosp imm s
  | .popjc => Sys2Proof.Machine.execPopjc s
  | .pushjc => Sys2Proof.Machine.execPushjc s
  | .retj => Sys2Proof.Machine.execRetj s
  | .pabsSb rd rs => Sys2Proof.Machine.execPabsSb rd rs s
  | .pabsSh rd rs => Sys2Proof.Machine.execPabsSh rd rs s
  | .packshUb rd rx ry => Sys2Proof.Machine.execPackshUb rd rx ry s
  | .packshSb rd rx ry => Sys2Proof.Machine.execPackshSb rd rx ry s
  | .packwSh rd rx ry => Sys2Proof.Machine.execPackwSh rd rx ry s
  | .paddB rd rx ry => Sys2Proof.Machine.execPaddB rd rx ry s
  | .paddH rd rx ry => Sys2Proof.Machine.execPaddH rd rx ry s
  | .paddhUb rd rx ry => Sys2Proof.Machine.execPaddhUb rd rx ry s
  | .paddhSh rd rx ry => Sys2Proof.Machine.execPaddhSh rd rx ry s
  | .paddsUb rd rx ry => Sys2Proof.Machine.execPaddsUb rd rx ry s
  | .paddsSb rd rx ry => Sys2Proof.Machine.execPaddsSb rd rx ry s
  | .paddsUh rd rx ry => Sys2Proof.Machine.execPaddsUh rd rx ry s
  | .paddsSh rd rx ry => Sys2Proof.Machine.execPaddsSh rd rx ry s
  | .paddsubH rd rx xp ry yp => Sys2Proof.Machine.execPaddsubH rd rx xp ry yp s
  | .paddsubhSh rd rx xp ry yp => Sys2Proof.Machine.execPaddsubhSh rd rx xp ry yp s
  | .paddsubsUh rd rx xp ry yp => Sys2Proof.Machine.execPaddsubsUh rd rx xp ry yp s
  | .paddsubsSh rd rx xp ry yp => Sys2Proof.Machine.execPaddsubsSh rd rx xp ry yp s
  | .paddxH rd rx ry => Sys2Proof.Machine.execPaddxH rd rx ry s
  | .paddxhSh rd rx ry => Sys2Proof.Machine.execPaddxhSh rd rx ry s
  | .paddxsUh rd rx ry => Sys2Proof.Machine.execPaddxsUh rd rx ry s
  | .paddxsSh rd rx ry => Sys2Proof.Machine.execPaddxsSh rd rx ry s
  | .pasrB rd rs sa => Sys2Proof.Machine.execPasrB rd rs sa s
  | .pasrH rd rs sa => Sys2Proof.Machine.execPasrH rd rs sa s
  | .pavgUb rd rx ry => Sys2Proof.Machine.execPavgUb rd rx ry s
  | .pavgSh rd rx ry => Sys2Proof.Machine.execPavgSh rd rx ry s
  | .plslB rd rs sa => Sys2Proof.Machine.execPlslB rd rs sa s
  | .plslH rd rs sa => Sys2Proof.Machine.execPlslH rd rs sa s
  | .plsrB rd rs sa => Sys2Proof.Machine.execPlsrB rd rs sa s
  | .plsrH rd rs sa => Sys2Proof.Machine.execPlsrH rd rs sa s
  | .pmaxUb rd rx ry => Sys2Proof.Machine.execPmaxUb rd rx ry s
  | .pmaxSh rd rx ry => Sys2Proof.Machine.execPmaxSh rd rx ry s
  | .pminUb rd rx ry => Sys2Proof.Machine.execPminUb rd rx ry s
  | .pminSh rd rx ry => Sys2Proof.Machine.execPminSh rd rx ry s
  | .psad rd rx ry => Sys2Proof.Machine.execPsad rd rx ry s
  | .psubB rd rx ry => Sys2Proof.Machine.execPsubB rd rx ry s
  | .psubH rd rx ry => Sys2Proof.Machine.execPsubH rd rx ry s
  | .psubaddH rd rx xp ry yp => Sys2Proof.Machine.execPsubaddH rd rx xp ry yp s
  | .psubaddhSh rd rx xp ry yp => Sys2Proof.Machine.execPsubaddhSh rd rx xp ry yp s
  | .psubaddsUh rd rx xp ry yp => Sys2Proof.Machine.execPsubaddsUh rd rx xp ry yp s
  | .psubaddsSh rd rx xp ry yp => Sys2Proof.Machine.execPsubaddsSh rd rx xp ry yp s
  | .psubhUb rd rx ry => Sys2Proof.Machine.execPsubhUb rd rx ry s
  | .psubhSh rd rx ry => Sys2Proof.Machine.execPsubhSh rd rx ry s
  | .psubsUb rd rx ry => Sys2Proof.Machine.execPsubsUb rd rx ry s
  | .psubsSb rd rx ry => Sys2Proof.Machine.execPsubsSb rd rx ry s
  | .psubsUh rd rx ry => Sys2Proof.Machine.execPsubsUh rd rx ry s
  | .psubsSh rd rx ry => Sys2Proof.Machine.execPsubsSh rd rx ry s
  | .psubxH rd rx ry => Sys2Proof.Machine.execPsubxH rd rx ry s
  | .psubxhSh rd rx ry => Sys2Proof.Machine.execPsubxhSh rd rx ry s
  | .psubxsUh rd rx ry => Sys2Proof.Machine.execPsubxsUh rd rx ry s
  | .psubxsSh rd rx ry => Sys2Proof.Machine.execPsubxsSh rd rx ry s
  | .punpckubH rd rs k => Sys2Proof.Machine.execPunpckubH rd rs k s
  | .punpcksbH rd rs k => Sys2Proof.Machine.execPunpcksbH rd rs k s
  | .memc bp imm => Sys2Proof.Machine.execMemc bp imm s
  | .mems bp imm => Sys2Proof.Machine.execMems bp imm s
  | .memt bp imm => Sys2Proof.Machine.execMemt bp imm s
  | .xchg rd rx ry => Sys2Proof.Machine.execXchg rd rx ry s

end Sys2Proof.Machine
end

