-- ==== Sys2Proof/Machine/Fetch.lean ====
section
/-! DEFINITION. Fetching an instruction (20_memory.md R206, R211, R235, R250; 30_encoding.md R352, R353; 60_exceptions.md R1067, R1101): halfword
by halfword, the second only where the first says that the instruction is extended. -/

namespace Sys2Proof.Machine

/-- The halfword at virtual address `va`, with the events of R1101 step 6. -/
def fetchHalf (va : Word) (s : State) : Res Half :=
  if va.getLsbD 0 then .raise (.instructionAddress va) s
  else
    (translate .fetch s.privileged va s).bind fun r s1 =>
      if s1.busAnswers .fetch r.pa && s1.busAnswers .fetch (r.pa + 1#32) then .ok (cat 16 (s1.byteAt r.pa) (s1.byteAt (r.pa + 1#32))) s1
      else .raise .busErrorFetch s1

/-- The code of the instruction at PC. -/
def fetchCode (s : State) : Res Code :=
  (fetchHalf s.pc s).bind fun h s1 =>
    if isExtended h then (fetchHalf (s.pc + 2#32) s1).bind fun l s2 => .ok (.word (cat 32 h l)) s2
    else .ok (.half h) s1

/-- Where a fetch from `va` reads, in physical memory. -/
def State.fetchPlace (s : State) (va : Word) : Word :=
  match translate .fetch s.privileged va s with
  | .ok r _ => r.pa
  | .raise _ _ => va

/-- The four bytes that stand for a row of the opcode table: its code, and zero above it. -/
def tableBytes (nbits w : Nat) : List Byte := ((tableCode nbits w).bytes ++ [0#8, 0#8]).take 4

/-- Memory with the row's code at the PC. -/
def State.memWithCode (s : State) (nbits w : Nat) : List Host.Cell :=
  writeBytes (writeBytes s.mem (s.fetchPlace s.pc) ((tableBytes nbits w).take 2)) (s.fetchPlace (s.pc + 2#32)) ((tableBytes nbits w).drop 2)

end Sys2Proof.Machine
end

