-- ==== Sys2Proof/Machine/Boundary.lean ====
section
/-! DEFINITION. One step: the inputs sampled, the boundary before an instruction in the order of 60_exceptions.md R1101, the instruction, and
the time it takes. -/

namespace Sys2Proof.Machine

/-! ## Inputs -/

/-- The inputs of this step; after the end of the list nothing is asserted. -/
def State.inputs (s : State) : Sample := s.env.headD Sample.quiet

/-- The step's inputs become `now`, and memory holds what the devices and the other masters have put there (R219). -/
def State.sample (s : State) : State :=
  { s with now := s.inputs, env := s.env.tail, taken := none,
           mem := Memory.writeAll s.mem s.inputs.busWrites }

/-- The Reset event (R1061): memory, the coprocessors and the debug registers are outside what it resets (notes/assumptions/30.md). That it drops
the data bus errors that still wait to be reported, takes the CPU back from the OCD system, closes the window after mtsr JOSP with its flag and
starts the phase of PCCNT's divider anew is the model's choice: no rule says so (DESIGN CHOICE, notes/assumptions/30.md). -/
def State.resetEvent (s : State) : State :=
  { State.resetOf s.cfg with mem := s.mem, cop := s.cop, debug := s.debug, now := s.now, env := s.env, freeIdx := s.freeIdx }

/-- INTn is accepted (R1091, R1174): its autovector. -/
def State.intAccepted (s : State) (line : Option Word) (maskBit : Nat) : Option Word :=
  if s.srBit bitGM || s.srBit maskBit then none else line

/-- NMI is accepted (R1092, R1174). -/
def State.nmiAccepted (s : State) : Bool := s.now.nmi && s.mode != 7#3 && !(s.srBit bitSS && s.srBit bitGM)

/-- The data bus error that the boundary reports, the oldest; the report may wait, but not past a sync (R1068, R312). -/
def State.reportedBusError (s : State) : Option Word := if s.now.deferBusError && s.busErrDue == 0 then none else s.busErr.head?

/-- The event of positions 3 to 5 of R1101 that the boundary takes. -/
def State.pendingEvent (s : State) : Option Event :=
  match s.reportedBusError with
  | some pa => some (.busErrorData pa)
  | none =>
    if s.nmiAccepted then some .nmi
    else match s.intAccepted s.now.int3 bitI3M with
      | some v => some (.interrupt 3#2 v)
      | none => match s.intAccepted s.now.int2 bitI2M with
        | some v => some (.interrupt 2#2 v)
        | none => match s.intAccepted s.now.int1 bitI1M with
          | some v => some (.interrupt 1#2 v)
          | none => match s.intAccepted s.now.int0 bitI0M with
            | some v => some (.interrupt 0#2 v)
            | none => none

/-- The reported bus error is no longer pending once its entry begins, though that entry may give way to a fault of its own push (R1058;
DEDUCED, notes/assumptions/14.md). -/
def State.clearPending (s : State) (e : Event) : State :=
  match e with
  | .busErrorData _ => { s with busErr := s.busErr.tail, busErrDue := s.busErrDue - 1 }
  | _ => s

/-- The OCD breakpoint line is accepted (R1082), in the secure state as outside it: which debug requests SR[SS] refuses is not in the source
(R1176; DESIGN CHOICE, notes/assumptions/21.md). -/
def State.breakAccepted (s : State) : Bool := s.cfg.hasOcd && s.now.ocdBreak && !s.srBit bitDM

/-! ## The JOSP hazard (R1223, D56) -/

/-- The instructions that change the flow by their kind, or by R15 among the registers that their operands name as written: the calls, jumps and
returns, R15 as a destination, as the odd register of a pair, as a moved pointer, in a list, or as the pointer of an empty list, which receives
any value with write-back or without (U40). An instruction counts whether it is executed or not, and whatever it does (R1223). -/
def changesFlow (i : Instr) : Bool :=
  match i with
  | .acall _ | .brCond3 _ _ | .brCond4 _ _ | .icall _ | .mcall _ _ | .rcall _ | .rjmp _ | .retCond _ _ | .breakpoint | .scall | .sscall
  | .rete | .rets | .retd | .retss | .retj => true
  | .abs rd | .acr rd | .adc rd _ _ | .add (.formI rd _) | .add (.formII rd _ _ _) | .addCond _ rd _ _ | .addabs rd _ _ | .max rd _ _
  | .min rd _ _ | .neg rd | .rsub (.formI rd _) | .rsub (.formII rd _ _) | .rsubCond _ rd _ | .sbc rd _ _ | .scr rd
  | .sub (.formI rd _) | .sub (.formII rd _ _ _) | .sub (.formIII rd _) | .sub (.formIV rd _) | .sub (.formV rd _ _)
  | .subCond (.formI _ rd _ _) | .subCond (.formII _ rd _ _) | .mac rd _ _ | .mul (.formI rd _) | .mul (.formII rd _ _)
  | .mul (.formIII rd _ _) | .addhhW rd _ _ _ _ | .machhW rd _ _ _ _ | .mulhhW rd _ _ _ _ | .mulnhhW rd _ _ _ _ | .sataddH rd _ _
  | .sataddW rd _ _ | .satsubH rd _ _ | .satsubW (.formI rd _ _) | .satsubW (.formII rd _ _) | .satrnds rd _ _ | .satrndu rd _ _
  | .sats rd _ _ | .satu rd _ _ | .subhhW rd _ _ _ _ | .mulsathhH rd _ _ _ _ | .mulsathhW rd _ _ _ _ | .mulsatrndhhH rd _ _ _ _
  | .mulsatrndwhW rd _ _ _ | .mulsatwhW rd _ _ _ | .macsathhW rd _ _ _ _ | .and (.formI rd _) | .and (.formII rd _ _ _)
  | .and (.formIII rd _ _ _) | .andCond _ rd _ _ | .eor (.formI rd _) | .eor (.formII rd _ _ _) | .eor (.formIII rd _ _ _)
  | .eorCond _ rd _ _ | .or (.formI rd _) | .or (.formII rd _ _ _) | .or (.formIII rd _ _ _) | .orCond _ rd _ _ | .andn rd _
  | .andh rd _ _ | .andl rd _ _ | .com rd | .eorh rd _ | .eorl rd _ | .orh rd _ | .orl rd _ | .bfexts rd _ _ _ | .bfextu rd _ _ _
  | .bfins rd _ _ _ | .brev rd | .bst rd _ | .castsB rd | .castsH rd | .castuB rd | .castuH rd | .cbr rd _ | .clz rd _ | .sbr rd _
  | .swapB rd | .swapBh rd | .swapH rd | .asr (.formI rd _ _) | .asr (.formII rd _) | .asr (.formIII rd _ _) | .lsl (.formI rd _ _)
  | .lsl (.formII rd _) | .lsl (.formIII rd _ _) | .lsr (.formI rd _ _) | .lsr (.formII rd _) | .lsr (.formIII rd _ _) | .rol rd
  | .ror rd | .mov (.formI rd _) | .mov (.formII rd _) | .mov (.formIII rd _) | .movCond (.formI _ rd _) | .movCond (.formII _ rd _)
  | .movh rd _ | .ldUb (.formIII rd _ _) | .ldUb (.formIV rd _ _) | .ldUb (.formV rd _ _ _) | .ldUbCond _ rd _ _
  | .ldSb (.formI rd _ _) | .ldSb (.formII rd _ _ _) | .ldSbCond _ rd _ _ | .ldUh (.formIII rd _ _) | .ldUh (.formIV rd _ _)
  | .ldUh (.formV rd _ _ _) | .ldUhCond _ rd _ _ | .ldSh (.formIII rd _ _) | .ldSh (.formIV rd _ _) | .ldSh (.formV rd _ _ _)
  | .ldShCond _ rd _ _ | .ldW (.formIII rd _ _) | .ldW (.formIV rd _ _) | .ldW (.formV rd _ _ _) | .ldW (.formVI rd _ _ _ _)
  | .ldWCond _ rd _ _ | .ldinsB rd _ _ _ | .ldinsH rd _ _ _ | .ldswpSh rd _ _ | .ldswpUh rd _ _ | .ldswpW rd _ _ | .lddpc rd _
  | .lddsp rd _ | .stB (.formI rd _) | .stB (.formII rd _) | .stH (.formI rd _) | .stH (.formII rd _) | .stW (.formI rd _)
  | .stW (.formII rd _) | .stD (.formI rd _) | .stD (.formII rd _) | .mfsr rd _ | .mfdr rd _ | .mustr rd | .srCond _ rd
  | .ldcD (.formII _ _ rd) | .ldcW (.formII _ _ rd) | .mvcrW _ rd _ | .stcD (.formII _ rd _) | .stcW (.formII _ rd _) | .pabsSb rd _
  | .pabsSh rd _ | .packshUb rd _ _ | .packshSb rd _ _ | .packwSh rd _ _ | .paddB rd _ _ | .paddH rd _ _ | .paddhUb rd _ _
  | .paddhSh rd _ _ | .paddsUb rd _ _ | .paddsSb rd _ _ | .paddsUh rd _ _ | .paddsSh rd _ _ | .paddsubH rd _ _ _ _
  | .paddsubhSh rd _ _ _ _ | .paddsubsUh rd _ _ _ _ | .paddsubsSh rd _ _ _ _ | .paddxH rd _ _ | .paddxhSh rd _ _ | .paddxsUh rd _ _
  | .paddxsSh rd _ _ | .pasrB rd _ _ | .pasrH rd _ _ | .pavgUb rd _ _ | .pavgSh rd _ _ | .plslB rd _ _ | .plslH rd _ _ | .plsrB rd _ _
  | .plsrH rd _ _ | .pmaxUb rd _ _ | .pmaxSh rd _ _ | .pminUb rd _ _ | .pminSh rd _ _ | .psad rd _ _ | .psubB rd _ _ | .psubH rd _ _
  | .psubaddH rd _ _ _ _ | .psubaddhSh rd _ _ _ _ | .psubaddsUh rd _ _ _ _ | .psubaddsSh rd _ _ _ _ | .psubhUb rd _ _ | .psubhSh rd _ _
  | .psubsUb rd _ _ | .psubsSb rd _ _ | .psubsUh rd _ _ | .psubsSh rd _ _ | .psubxH rd _ _ | .psubxhSh rd _ _ | .psubxsUh rd _ _
  | .psubxsSh rd _ _ | .punpckubH rd _ _ | .punpcksbH rd _ _ | .xchg rd _ _ => rd == 15#4
  | .ldUb (.formI rd rp) | .ldUb (.formII rd rp) | .ldUh (.formI rd rp) | .ldUh (.formII rd rp) | .ldSh (.formI rd rp)
  | .ldSh (.formII rd rp) | .ldW (.formI rd rp) | .ldW (.formII rd rp) => rd == 15#4 || rp == 15#4
  | .divs rd _ _ | .divu rd _ _ | .macsD rd _ _ | .macuD rd _ _ | .mulsD rd _ _ | .muluD rd _ _ | .machhD rd _ _ _ _ | .macwhD rd _ _ _
  | .mulwhD rd _ _ _ | .mulnwhD rd _ _ _ | .ldD (.formIII rd _) | .ldD (.formIV rd _ _) | .ldD (.formV rd _ _ _) | .mvcrD _ rd _ =>
    rd == 15#4 || rd == 14#4
  | .ldD (.formI rd rp) | .ldD (.formII rd rp) => rd == 15#4 || rd == 14#4 || rp == 15#4
  | .popm _ list => list.getLsbD 7 || list == 0#8
  | .ldm _ _ list => list.getLsbD 15 || list == 0#16
  | .stm rp wb list | .ldmts rp wb list | .stmts rp wb list => rp == 15#4 && (wb == 1#1 || list == 0#16)
  | .ldcmD _ rp wb list | .ldcmW (.formHigh _ rp wb list) | .ldcmW (.formLow _ rp wb list) | .stcmD _ rp wb list
  | .stcmW (.formHigh _ rp wb list) | .stcmW (.formLow _ rp wb list) => rp == 15#4 && (wb == 1#1 || list == 0#8)
  | .cpB _ _ | .cpH _ _ | .cpW _ | .cpc _ | .tnbz _ | .tst _ _ | .bld _ _ | .stB (.formIII _ _ _) | .stB (.formIV _ _ _)
  | .stB (.formV _ _ _ _) | .stBCond _ _ _ _ | .stH (.formIII _ _ _) | .stH (.formIV _ _ _) | .stH (.formV _ _ _ _) | .stHCond _ _ _ _
  | .stW (.formIII _ _ _) | .stW (.formIV _ _ _) | .stW (.formV _ _ _ _) | .stWCond _ _ _ _ | .stD (.formIII _ _)
  | .stD (.formIV _ _ _) | .stD (.formV _ _ _ _) | .stcond _ _ _ | .stdsp _ _ | .sthhW _ | .stswpH _ _ _ | .stswpW _ _ _ | .pushm _
  | .csrf _ | .csrfcz _ | .ssrf _ | .frs | .cache _ _ _ | .pref _ _ | .mtsr _ _ | .mtdr _ _ | .musfr _ | .nop | .sleep _ | .sync _
  | .tlbr | .tlbs | .tlbw | .cop _ _ _ _ _ | .ldcD (.formI _ _ _ _) | .ldcD (.formIII _ _ _ _ _) | .ldcW (.formI _ _ _ _)
  | .ldcW (.formIII _ _ _ _ _) | .ldc0D _ _ _ | .ldc0W _ _ _ | .mvrcD _ _ _ | .mvrcW _ _ _ | .stcD (.formI _ _ _ _)
  | .stcD (.formIII _ _ _ _ _) | .stcW (.formI _ _ _ _) | .stcW (.formIII _ _ _ _ _) | .stc0D _ _ _ | .stc0W _ _ _ | .incjosp _
  | .popjc | .pushjc | .memc _ _ | .mems _ _ | .memt _ _ => false

/-- What must not stand in the window: a change of flow, and incjosp (R1223). -/
def hazardous (i : Instr) : Bool :=
  match i with
  | .incjosp _ => true
  | _ => changesFlow i

/-- The write that opens the window. -/
def writesJosp (i : Instr) : Bool :=
  match i with
  | .mtsr _ n => n == 22#8
  | _ => false

/-- The address behind an instruction of `len` bytes at the PC, with the next free words `idx`. -/
def State.behind (s : State) (len idx : Nat) : State := { s with pc := s.pc + BitVec.ofNat 32 len, freeIdx := idx }

/-- One of the `n` instructions that lie in fetch order from the PC of `s` on is hazardous. They are fetched, and decoded, as they stand in
memory, whether the core comes to execute them or not (R1223); a code that decodes to nothing counts as an instruction, and a place whose fetch
raises an event ends the row (DEDUCED, notes/assumptions/24.md). -/
def hazardAhead (n : Nat) (s : State) : Bool :=
  match n with
  | 0 => false
  | n + 1 =>
    match fetchCode s with
    | .raise _ _ => false
    | .ok code s1 => (decodeCode code).any hazardous || hazardAhead n (s1.behind code.bytes.length s1.freeIdx)

/-- `t`, with `n` instructions left in the window, behind an instruction of `len` bytes at the PC of `s`: a hazardous one among them is flagged,
though an event may come between. -/
def State.lookAhead (t s : State) (n len : Nat) : State :=
  { t with hazardLeft := n, hazardFlag := t.hazardFlag || hazardAhead n (s.behind len t.freeIdx) }

/-- The window after an instruction of `len` bytes, executed or not, has led from `s` to `t`: it shrinks by one, and what is hazardous in it is
flagged, the instruction itself where `bad`. -/
def State.windowPast (t s : State) (len : Nat) (bad : Bool) : State :=
  if s.hazardLeft == 0 then t else { t with hazardFlag := t.hazardFlag || bad }.lookAhead s (s.hazardLeft - 1) len

/-- The window after instruction `i`, executed or not, has led from `s` to `t`: opened by a write of JOSP, and else shrunk. -/
def State.hazard (t : State) (i : Instr) (s : State) : State :=
  if writesJosp i then t.lookAhead s t.hazardLeft (instrLength i) else t.windowPast s (instrLength i) (hazardous i)

/-! ## The instruction -/

/-- The register remap does not touch these (R850 (f)). -/
def ignoresRemap (i : Instr) : Bool :=
  match i with
  | .ldm _ _ _ => true
  | .stm _ _ _ => true
  | .pushm _ => true
  | .popm _ _ => true
  | _ => false

/-- The instruction completes unless it is a breakpoint that traps (R902) or raises an event. -/
def completes (i : Instr) (s : State) : Bool :=
  match i with
  | .breakpoint => !s.breakpointTraps
  | _ => true

/-- `f` of the next state, where there is one. -/
def onNext (f : State → State) (o : Host.Outcome State Fault Refusal) : Host.Outcome State Fault Refusal :=
  match o with
  | .next t => .next (f t)
  | .fault r => .fault r
  | .refused r => .refused r

/-- Instruction `i` where the architecture has it: no instruction is of a revision below 1, so at `ARCH_REV` 0 each raises Unimplemented
Instruction (R4, R12, R411, R415; DEDUCED, notes/assumptions/32.md). -/
def perform (i : Instr) (s : State) : Host.Outcome State Fault Refusal := requireUnit (hasRev s.cfg 1) s (exec i s)

/-- The decoded instruction `i` runs in `s`, the state after its fetch. -/
def runInstr (i : Instr) (s : State) : Host.Outcome State Fault Refusal :=
  if s.srBit bitR && !ignoresRemap i then .refused .javaRemap
  else onNext (fun t => (t.hazard i s).clock s (completes i s)) (perform i s)

/-- Fetch, decode, run; positions 6 to 14 of R1101. -/
def runAtPc (s : State) : Host.Outcome State Fault Refusal :=
  match fetchCode s with
  | .raise e s1 => onNext (fun t => t.clock s1 false) (raiseEvent e s1)
  | .ok code s1 =>
    match decodeCode code with
    | none => onNext (fun t => (t.windowPast s1 code.bytes.length false).clock s1 false) (raiseEvent .illegalOpcode s1)
    | some i => runInstr i s1

/-- The boundary and what follows it, from a state whose inputs are sampled (R1101). The events of the boundary, and the wait of a sleep, come
before the refusals of J and R: DESIGN CHOICE, notes/assumptions/13.md. -/
def stepSampled (s : State) : Host.Outcome State Fault Refusal :=
  if s.now.reset then .next s.resetEvent
  else if s.ocdStopped then .refused .ocdControl
  else if s.cfg.hasOcd && s.now.ocdStop then .next ({ s.enterDebug s.pc with ocdStopped := true }.clock s false)
  else match s.pendingEvent with
    | some e => onNext (fun t => t.clock s false) (takeEvent e s.pc (s.clearPending e))
    | none =>
      if s.breakAccepted then .next ((s.enterBreakpoint s.pc).clock s false)
      else if s.sleeping.isSome then .next (s.clock s false)
      else if s.srBit bitJ then .refused .javaState
      else runAtPc s

end Sys2Proof.Machine
end

