-- ==== Sys2Proof/Machine/Step.lean ====
section
/-! DEFINITION. The step of the machine, and the state with an instruction placed where the step fetches. -/

namespace Sys2Proof.Machine

/-- One step: one instruction, one event entry, or one wait. -/
def step (s : State) : Host.Outcome State Fault Refusal := stepSampled s.sample

/-- `s` with the instruction of an opcode-table row at its PC (notes/assumptions/8.md). -/
def State.withFetchWord (s : State) (nbits w : Nat) : State := { s with mem := s.memWithCode nbits w }

end Sys2Proof.Machine
end

