-- ==== Sys2Proof/Safety.lean ====
section
/-! DEFINITION. What counts as a safe run, and the terms statements are made in: what an instruction leaves unchanged, what it writes, which
access it makes, and the invariant of the machine. -/

namespace Sys2Proof.Machine

/-! ## Outcomes -/

/-- The outcome is a next state of which `P` holds. -/
def Gives (o : Out) (P : State → Prop) : Prop := ∃ t, o = .next t ∧ P t

/-- The machine does not stop with a fault. -/
def Safe (o : Out) : Prop := ∀ f, o ≠ .fault f

/-- The address of the instruction after `i` (10_state.md R112). -/
def State.after (s : State) (i : Instr) : Word := s.pc + BitVec.ofNat 32 (instrLength i)

/-! ## What stays as it was, from `s` to `t` -/

/-- Every physical register but the PC and the ones that the numbers of `ds` name in `s`. -/
def SameRegs (s t : State) (ds : List RegNo) : Prop :=
  ∀ p : PhysReg, p.Real → p ≠ .pc → (∀ d ∈ ds, p ≠ s.phys d) → t.readPhys p = s.readPhys p

/-- Every bit of SR but the ones of `bits`. -/
def SameSr (s t : State) (bits : List Nat) : Prop := ∀ n, n < 32 → n ∉ bits → t.srBit n = s.srBit n

/-- Every byte of memory. -/
def SameMem (s t : State) : Prop := ∀ a : Word, t.byteAt a = s.byteAt a

/-- `a` is one of the bytes of the transfers `ps`, each an address and a size. -/
def touches (ps : List (Word × Nat)) (a : Word) : Prop := ∃ p ∈ ps, (a - p.1).toNat < p.2

/-- Every byte of memory outside the transfers `ps`. -/
def SameMemBut (s t : State) (ps : List (Word × Nat)) : Prop := ∀ a : Word, ¬ touches ps a → t.byteAt a = s.byteAt a

/-- Every special register but COPs and debug registers, and the machine's other state: no event has been taken, no bus error noted. -/
def SameSystem (s t : State) : Prop :=
  t.cfg = s.cfg ∧ t.ctl = s.ctl ∧ t.ret = s.ret ∧ t.java = s.java ∧ t.timer = s.timer ∧ t.perf = s.perf ∧ t.mmu = s.mmu ∧ t.mpu = s.mpu ∧
  t.sec = s.sec ∧ t.impl = s.impl ∧ t.cop = s.cop ∧ t.debug = s.debug ∧ t.busErr = s.busErr ∧ t.busErrDue = s.busErrDue ∧ t.sleeping = s.sleeping ∧ t.ocdStopped = s.ocdStopped ∧
  t.hazardLeft = s.hazardLeft ∧ t.hazardFlag = s.hazardFlag ∧ t.now = s.now ∧ t.env = s.env ∧ t.taken = s.taken

/-- The part of `SameSystem` that is no special register: what a system instruction leaves besides the registers it names. -/
def SameCore (s t : State) : Prop :=
  t.cfg = s.cfg ∧ t.busErr = s.busErr ∧ t.busErrDue = s.busErrDue ∧ t.ocdStopped = s.ocdStopped ∧ t.now = s.now ∧ t.env = s.env ∧ t.taken = s.taken

/-! ## What an instruction writes -/

/-- After `i`, R`d` holds `v` and the PC has advanced; with R15 the instruction is a jump to `v` (10_state.md R111). -/
def Writes (i : Instr) (s t : State) (d : RegNo) (v : Word) : Prop :=
  if d = 15#4 then t.pc = v &&& 0xFFFFFFFE#32 else t.getReg d = v ∧ t.pc = s.after i

/-- After `i`, the pair `R[d+1]:R[d]` of an even `d` holds `v`; R15 of the pair R15:R14 is a jump (00_scope.md R29, 10_state.md R111). -/
def WritesPair (i : Instr) (s t : State) (d : RegNo) (v : BitVec 64) : Prop :=
  t.getReg d = v.extractLsb' 0 32 ∧ Writes i s t (d + 1#4) (v.extractLsb' 32 32)

/-- V, N, Z and C of `t`. -/
def Flags (t : State) (v n z c : Prop) : Prop :=
  (t.flagV = true ↔ v) ∧ (t.flagN = true ↔ n) ∧ (t.flagZ = true ↔ z) ∧ (t.flagC = true ↔ c)

/-- The integer fits a signed word of `n` bits. -/
def fitsSigned (n : Nat) (x : Int) : Prop := -2 ^ (n - 1) ≤ x ∧ x < 2 ^ (n - 1)

/-- `i` writes `a + b + c` to R`d`, with the flags of that addition: C the carry out, V that the signed sum does not fit, Z sticky where the
instruction takes C as an input (40_arithmetic.md R450). -/
def Adds (i : Instr) (s : State) (d : RegNo) (a b : Word) (c sticky : Bool) : Prop :=
  Gives (exec i s) fun t =>
    Writes i s t d (BitVec.ofNat 32 (a.toNat + b.toNat + c.toNat)) ∧
    Flags t (¬ fitsSigned 32 (a.toInt + b.toInt + c.toNat)) (2 ^ 31 ≤ (a.toNat + b.toNat + c.toNat) % 2 ^ 32)
      ((a.toNat + b.toNat + c.toNat) % 2 ^ 32 = 0 ∧ (sticky = true → s.flagZ = true)) (2 ^ 32 ≤ a.toNat + b.toNat + c.toNat)

/-- The flags of `a - b - c` on `n` bits: C the borrow (40_arithmetic.md R450). -/
def DifferenceFlags {n : Nat} (s t : State) (a b : BitVec n) (c sticky : Bool) : Prop :=
  Flags t (¬ fitsSigned n (a.toInt - b.toInt - c.toNat)) (2 ^ (n - 1) ≤ (a - b - BitVec.ofNat n c.toNat).toNat)
    (a - b - BitVec.ofNat n c.toNat = 0 ∧ (sticky = true → s.flagZ = true)) (a.toNat < b.toNat + c.toNat)

/-- `i` writes `a - b - c` to R`d`, with the flags of that subtraction. -/
def Subtracts (i : Instr) (s : State) (d : RegNo) (a b : Word) (c sticky : Bool) : Prop :=
  Gives (exec i s) fun t => Writes i s t d (a - b - BitVec.ofNat 32 c.toNat) ∧ DifferenceFlags s t a b c sticky

/-- `i` sets the flags of `a - b - c` and writes no register. -/
def Compares {n : Nat} (i : Instr) (s : State) (a b : BitVec n) (c sticky : Bool) : Prop :=
  Gives (exec i s) fun t => t.pc = s.after i ∧ DifferenceFlags s t a b c sticky

/-- `i` gives the value `v` to R`d`. -/
def Sets (i : Instr) (s : State) (d : RegNo) (v : Word) : Prop := Gives (exec i s) fun t => Writes i s t d v

/-- `i` gives R`d` a value of which `P` holds (R15 receives it without its bit 0). -/
def SetsTo (i : Instr) (s : State) (d : RegNo) (P : Word → Prop) : Prop := ∃ v, P v ∧ Sets i s d v

/-- `i` gives the even pair `R[d+1]:R[d]` a value of which `P` holds. -/
def SetsPairTo (i : Instr) (s : State) (d : RegNo) (P : BitVec 64 → Prop) : Prop :=
  evenNo d = true → ∃ v, P v ∧ Gives (exec i s) fun t => WritesPair i s t d v

/-- Where `ok`, `P`; elsewhere `i` only advances the PC. -/
def Conditionally (ok : Bool) (i : Instr) (s : State) (P : Prop) : Prop :=
  if ok then P else exec i s = .next (s.advance (BitVec.ofNat 32 (instrLength i)))

/-! ## The instructions that write only registers and arithmetic flags: the destination registers and the bits of SR -/

/-- V, N, Z and C. -/
def vnzc : List Nat := [3, 2, 1, 0]

/-- Their frame: every other register, every other bit of SR, memory, the system registers, and the PC unless R15 is a destination. -/
def KeepsRest (frame : Instr → Option (List RegNo × List Nat)) (present : Instr → Params → Bool) : Prop :=
  ∀ (i : Instr) (ds : List RegNo) (bits : List Nat), frame i = some (ds, bits) → ∀ s : State, present i s.cfg = true →
    Gives (exec i s) fun t =>
      SameRegs s t ds ∧ SameSr s t bits ∧ SameMem s t ∧ SameSystem s t ∧ (15#4 ∉ ds → t.pc = s.after i)

/-- 40_arithmetic.md and 41_multiplication.md. -/
def arithmeticFrame : Instr → Option (List RegNo × List Nat)
  | .abs rd => some ([rd], [1])
  | .acr rd => some ([rd], vnzc)
  | .adc rd _ _ => some ([rd], vnzc)
  | .add (.formI rd _) => some ([rd], vnzc)
  | .add (.formII rd _ _ _) => some ([rd], vnzc)
  | .addCond _ rd _ _ => some ([rd], [])
  | .addabs rd _ _ => some ([rd], [1])
  | .cpB _ _ => some ([], vnzc)
  | .cpH _ _ => some ([], vnzc)
  | .cpW _ => some ([], vnzc)
  | .cpc _ => some ([], vnzc)
  | .max rd _ _ => some ([rd], [])
  | .min rd _ _ => some ([rd], [])
  | .neg rd => some ([rd], vnzc)
  | .rsub (.formI rd _) => some ([rd], vnzc)
  | .rsub (.formII rd _ _) => some ([rd], vnzc)
  | .rsubCond _ rd _ => some ([rd], [])
  | .sbc rd _ _ => some ([rd], vnzc)
  | .scr rd => some ([rd], vnzc)
  | .sub (.formI rd _) => some ([rd], vnzc)
  | .sub (.formII rd _ _ _) => some ([rd], vnzc)
  | .sub (.formIII rd _) => some ([rd], vnzc)
  | .sub (.formIV rd _) => some ([rd], vnzc)
  | .sub (.formV rd _ _) => some ([rd], vnzc)
  | .subCond (.formI _ rd f _) => some ([rd], if f = 0#1 then vnzc else [])
  | .subCond (.formII _ rd _ _) => some ([rd], [])
  | .tnbz _ => some ([], [1])
  | .divs rd _ _ => some ([rd, rd + 1#4], [])
  | .divu rd _ _ => some ([rd, rd + 1#4], [])
  | .mac rd _ _ => some ([rd], [])
  | .macsD rd _ _ => some ([rd, rd + 1#4], [])
  | .macuD rd _ _ => some ([rd, rd + 1#4], [])
  | .mul (.formI rd _) => some ([rd], [])
  | .mul (.formII rd _ _) => some ([rd], [])
  | .mul (.formIII rd _ _) => some ([rd], [])
  | .mulsD rd _ _ => some ([rd, rd + 1#4], [])
  | .muluD rd _ _ => some ([rd, rd + 1#4], [])
  | _ => none

/-- 42_dsp.md. Q is bit 4. -/
def dspFrame : Instr → Option (List RegNo × List Nat)
  | .addhhW rd _ _ _ _ => some ([rd], vnzc)
  | .subhhW rd _ _ _ _ => some ([rd], vnzc)
  | .machhD rd _ _ _ _ => some ([rd, rd + 1#4], [])
  | .machhW rd _ _ _ _ => some ([rd], [])
  | .macwhD rd _ _ _ => some ([rd, rd + 1#4], [])
  | .mulhhW rd _ _ _ _ => some ([rd], [])
  | .mulwhD rd _ _ _ => some ([rd, rd + 1#4], [])
  | .mulnhhW rd _ _ _ _ => some ([rd], [])
  | .mulnwhD rd _ _ _ => some ([rd, rd + 1#4], [])
  | .sataddH rd _ _ => some ([rd], [4, 3, 2, 1, 0])
  | .sataddW rd _ _ => some ([rd], [4, 3, 2, 1, 0])
  | .satsubH rd _ _ => some ([rd], [4, 3, 2, 1, 0])
  | .satsubW (.formI rd _ _) => some ([rd], [4, 3, 2, 1, 0])
  | .satsubW (.formII rd _ _) => some ([rd], [4, 3, 2, 1, 0])
  | .satrnds rd _ _ => some ([rd], [4])
  | .satrndu rd _ _ => some ([rd], [4])
  | .sats rd _ _ => some ([rd], [4])
  | .satu rd _ _ => some ([rd], [4])
  | .mulsathhH rd _ _ _ _ => some ([rd], [4])
  | .mulsathhW rd _ _ _ _ => some ([rd], [4])
  | .mulsatrndhhH rd _ _ _ _ => some ([rd], [4])
  | .mulsatrndwhW rd _ _ _ => some ([rd], [4])
  | .mulsatwhW rd _ _ _ => some ([rd], [4])
  | .macsathhW rd _ _ _ _ => some ([rd], [4])
  | _ => none

/-- N and Z. -/
def nz : List Nat := [2, 1]

/-- N, Z and C. -/
def nzc : List Nat := [2, 1, 0]

/-- 43_logic_bit.md and 44_shift.md. -/
def logicFrame : Instr → Option (List RegNo × List Nat)
  | .and (.formI rd _) => some ([rd], nz)
  | .and (.formII rd _ _ _) => some ([rd], nz)
  | .and (.formIII rd _ _ _) => some ([rd], nz)
  | .andCond _ rd _ _ => some ([rd], [])
  | .eor (.formI rd _) => some ([rd], nz)
  | .eor (.formII rd _ _ _) => some ([rd], nz)
  | .eor (.formIII rd _ _ _) => some ([rd], nz)
  | .eorCond _ rd _ _ => some ([rd], [])
  | .or (.formI rd _) => some ([rd], nz)
  | .or (.formII rd _ _ _) => some ([rd], nz)
  | .or (.formIII rd _ _ _) => some ([rd], nz)
  | .orCond _ rd _ _ => some ([rd], [])
  | .andn rd _ => some ([rd], nz)
  | .andh rd _ _ => some ([rd], nz)
  | .andl rd _ _ => some ([rd], nz)
  | .com rd => some ([rd], [1])
  | .eorh rd _ => some ([rd], nz)
  | .eorl rd _ => some ([rd], nz)
  | .orh rd _ => some ([rd], nz)
  | .orl rd _ => some ([rd], nz)
  | .tst _ _ => some ([], nz)
  | .bfexts rd _ _ _ => some ([rd], nzc)
  | .bfextu rd _ _ _ => some ([rd], nzc)
  | .bfins rd _ _ _ => some ([rd], nzc)
  | .bld _ _ => some ([], [1, 0])
  | .brev rd => some ([rd], [1])
  | .bst rd _ => some ([rd], [])
  | .castsB rd => some ([rd], nzc)
  | .castsH rd => some ([rd], nzc)
  | .castuB rd => some ([rd], nzc)
  | .castuH rd => some ([rd], nzc)
  | .cbr rd _ => some ([rd], [1])
  | .clz rd _ => some ([rd], [1, 0])
  | .sbr rd _ => some ([rd], [1])
  | .swapB rd => some ([rd], [])
  | .swapBh rd => some ([rd], [])
  | .swapH rd => some ([rd], [])
  | .asr (.formI rd _ _) => some ([rd], nzc)
  | .asr (.formII rd _) => some ([rd], nzc)
  | .asr (.formIII rd _ _) => some ([rd], nzc)
  | .lsl (.formI rd _ _) => some ([rd], nzc)
  | .lsl (.formII rd _) => some ([rd], nzc)
  | .lsl (.formIII rd _ _) => some ([rd], nzc)
  | .lsr (.formI rd _ _) => some ([rd], nzc)
  | .lsr (.formII rd _) => some ([rd], nzc)
  | .lsr (.formIII rd _ _) => some ([rd], nzc)
  | .rol rd => some ([rd], nzc)
  | .ror rd => some ([rd], nzc)
  | _ => none

/-- The moves between registers and of flags (46_data_transfer.md R741 to R743, 48_system_coprocessor_java.md R917, R918, R927), and the
instructions that change nothing in a machine without cache and return stack (R903, R907, R919). -/
def moveFrame : Instr → Option (List RegNo × List Nat)
  | .mov (.formI rd _) => some ([rd], [])
  | .mov (.formII rd _) => some ([rd], [])
  | .mov (.formIII rd _) => some ([rd], [])
  | .movCond (.formI _ rd _) => some ([rd], [])
  | .movCond (.formII _ rd _) => some ([rd], [])
  | .movh rd _ => some ([rd], [])
  | .musfr _ => some ([], vnzc)
  | .mustr rd => some ([rd], [])
  | .srCond _ rd => some ([rd], [])
  | .nop => some ([], [])
  | .frs => some ([], [])
  | .pref _ _ => some ([], [])
  | _ => none

/-- The packed instructions of 49_simd_rmw.md. -/
def packedFrame : Instr → Option (List RegNo × List Nat)
  | .pabsSb rd _ => some ([rd], [])
  | .pabsSh rd _ => some ([rd], [])
  | .packshUb rd _ _ => some ([rd], [4])
  | .packshSb rd _ _ => some ([rd], [4])
  | .packwSh rd _ _ => some ([rd], [4])
  | .paddB rd _ _ => some ([rd], [])
  | .paddH rd _ _ => some ([rd], [])
  | .paddhUb rd _ _ => some ([rd], [])
  | .paddhSh rd _ _ => some ([rd], [])
  | .paddsUb rd _ _ => some ([rd], [4])
  | .paddsSb rd _ _ => some ([rd], [4])
  | .paddsUh rd _ _ => some ([rd], [4])
  | .paddsSh rd _ _ => some ([rd], [4])
  | .paddsubH rd _ _ _ _ => some ([rd], [])
  | .paddsubhSh rd _ _ _ _ => some ([rd], [])
  | .paddsubsUh rd _ _ _ _ => some ([rd], [4])
  | .paddsubsSh rd _ _ _ _ => some ([rd], [4])
  | .paddxH rd _ _ => some ([rd], [])
  | .paddxhSh rd _ _ => some ([rd], [])
  | .paddxsUh rd _ _ => some ([rd], [4])
  | .paddxsSh rd _ _ => some ([rd], [4])
  | .pasrB rd _ _ => some ([rd], [])
  | .pasrH rd _ _ => some ([rd], [])
  | .pavgUb rd _ _ => some ([rd], [])
  | .pavgSh rd _ _ => some ([rd], [])
  | .plslB rd _ _ => some ([rd], [])
  | .plslH rd _ _ => some ([rd], [])
  | .plsrB rd _ _ => some ([rd], [])
  | .plsrH rd _ _ => some ([rd], [])
  | .pmaxUb rd _ _ => some ([rd], vnzc)
  | .pmaxSh rd _ _ => some ([rd], [1, 0])
  | .pminUb rd _ _ => some ([rd], vnzc)
  | .pminSh rd _ _ => some ([rd], [1, 0])
  | .psad rd _ _ => some ([rd], [])
  | .psubB rd _ _ => some ([rd], [])
  | .psubH rd _ _ => some ([rd], [])
  | .psubaddH rd _ _ _ _ => some ([rd], [])
  | .psubaddhSh rd _ _ _ _ => some ([rd], [])
  | .psubaddsUh rd _ _ _ _ => some ([rd], [4])
  | .psubaddsSh rd _ _ _ _ => some ([rd], [4])
  | .psubhUb rd _ _ => some ([rd], [])
  | .psubhSh rd _ _ => some ([rd], [])
  | .psubsUb rd _ _ => some ([rd], [4])
  | .psubsSb rd _ _ => some ([rd], [4])
  | .psubsUh rd _ _ => some ([rd], [4])
  | .psubsSh rd _ _ => some ([rd], [4])
  | .psubxH rd _ _ => some ([rd], [])
  | .psubxhSh rd _ _ => some ([rd], [])
  | .psubxsUh rd _ _ => some ([rd], [4])
  | .psubxsSh rd _ _ => some ([rd], [4])
  | .punpckubH rd _ _ => some ([rd], [])
  | .punpcksbH rd _ _ => some ([rd], [])
  | _ => none

/-! ## Units and privilege -/

/-- The optional unit or the revision that the instruction belongs to is there (30_encoding.md R411, R415). -/
def unitPresent (i : Instr) (cfg : Params) : Bool :=
  match i with
  | .addCond _ _ _ _ => hasRev cfg 2
  | .rsubCond _ _ _ => hasRev cfg 2
  | .subCond (.formII _ _ _ _) => hasRev cfg 2
  | .andCond _ _ _ _ => hasRev cfg 2
  | .eorCond _ _ _ _ => hasRev cfg 2
  | .orCond _ _ _ _ => hasRev cfg 2
  | .movh _ _ => hasRev cfg 2
  | .ldUbCond _ _ _ _ => hasRev cfg 2
  | .ldSbCond _ _ _ _ => hasRev cfg 2
  | .ldUhCond _ _ _ _ => hasRev cfg 2
  | .ldShCond _ _ _ _ => hasRev cfg 2
  | .ldWCond _ _ _ _ => hasRev cfg 2
  | .stBCond _ _ _ _ => hasRev cfg 2
  | .stHCond _ _ _ _ => hasRev cfg 2
  | .stWCond _ _ _ _ => hasRev cfg 2
  | .sscall => hasSecure cfg
  | .retss => hasSecure cfg
  | .tlbr => hasMmu cfg
  | .tlbs => hasMmu cfg
  | .tlbw => hasMmu cfg
  | .incjosp _ => cfg.hasJava
  | .popjc => cfg.hasJava
  | .pushjc => cfg.hasJava
  | .retj => cfg.hasJava
  | .memc _ _ => cfg.hasRmw
  | .mems _ _ => cfg.hasRmw
  | .memt _ _ => cfg.hasRmw
  | i => if (dspFrame i).isSome then cfg.hasDsp else if (packedFrame i).isSome then cfg.hasSimd else true

/-- The privileged instructions, with the operands that make them so (48_system_coprocessor_java.md R890 (b), 30_encoding.md R412). -/
def needsPrivilege : Instr → Bool
  | .csrf bp => 15 < bp.toNat
  | .csrfcz bp => 15 < bp.toNat
  | .ssrf bp => 15 < bp.toNat
  | .mfsr _ n => n != 21#8 && n != 22#8
  | .mtsr _ n => n != 21#8 && n != 22#8
  | .mfdr _ _ => true
  | .mtdr _ _ => true
  | .cache _ _ _ => true
  | .tlbr => true
  | .tlbs => true
  | .tlbw => true
  | .retd => true
  | .sleep _ => true
  | _ => false

/-- The coprocessor an instruction is for (48_system_coprocessor_java.md R960). -/
def coprocessorOf : Instr → Option (BitVec 3)
  | .cop cp _ _ _ _ => some cp
  | .ldcD (.formI cp _ _ _) => some cp
  | .ldcD (.formII cp _ _) => some cp
  | .ldcD (.formIII cp _ _ _ _) => some cp
  | .ldcW (.formI cp _ _ _) => some cp
  | .ldcW (.formII cp _ _) => some cp
  | .ldcW (.formIII cp _ _ _ _) => some cp
  | .ldc0D _ _ _ => some 0#3
  | .ldc0W _ _ _ => some 0#3
  | .ldcmD cp _ _ _ => some cp
  | .ldcmW (.formHigh cp _ _ _) => some cp
  | .ldcmW (.formLow cp _ _ _) => some cp
  | .mvcrD cp _ _ => some cp
  | .mvcrW cp _ _ => some cp
  | .mvrcD cp _ _ => some cp
  | .mvrcW cp _ _ => some cp
  | .stcD (.formI cp _ _ _) => some cp
  | .stcD (.formII cp _ _) => some cp
  | .stcD (.formIII cp _ _ _ _) => some cp
  | .stcW (.formI cp _ _ _) => some cp
  | .stcW (.formII cp _ _) => some cp
  | .stcW (.formIII cp _ _ _ _) => some cp
  | .stc0D _ _ _ => some 0#3
  | .stc0W _ _ _ => some 0#3
  | .stcmD cp _ _ _ => some cp
  | .stcmW (.formHigh cp _ _ _) => some cp
  | .stcmW (.formLow cp _ _ _) => some cp
  | _ => none

/-! ## Accesses -/

/-- What the checks of an access may leave in the state: Accessed bits of the TLB cleared, free values drawn. -/
def OnlyChecked (s s1 : State) : Prop :=
  ∃ itlb dtlb n, s1 = { s with mmu := { s.mmu with itlb := itlb, dtlb := dtlb }, freeIdx := n } ∧
    (∀ k (h : k < 64), itlb[k] = s.mmu.itlb[k] ∨ itlb[k] = { s.mmu.itlb[k] with a := false }) ∧
    (∀ k (h : k < 64), dtlb[k] = s.mmu.dtlb[k] ∨ dtlb[k] = { s.mmu.dtlb[k] with a := false })

/-- No other agent acts between the transfers that the instruction still makes (20_memory.md R208). -/
def Undisturbed (s : State) : Prop := s.now.busBetween = []

/-- The machine after the other agents have acted `k` times. -/
def State.turns (s : State) : Nat → State
  | 0 => s
  | k + 1 => (s.turns k).busTurn

/-- The load of `n` bytes at `va` passes its checks and the bus: it reads the bytes `bs`, and `s1` is `s` with what the checks leave in it. It is
one transfer, or nothing comes between its transfers. -/
def Reads (s : State) (kind : LsKind) (n : Nat) (va : Word) (bs : List Byte) (s1 : State) : Prop :=
  ∃ ps, checkAccess .read s.privileged kind n va s = .ok ps s1 ∧ s1.busErrorIn .read ps = none ∧ bs = readTransfers s.mem ps ∧
    (ps.length ≤ 1 ∨ Undisturbed s)

/-- The store of `n` bytes at `va` passes its checks and the bus: it makes the transfers `ps` of physical memory. It is one transfer, or nothing
comes between its transfers. -/
def Reaches (s : State) (kind : LsKind) (n : Nat) (va : Word) (ps : List (Word × Nat)) (s1 : State) : Prop :=
  checkAccess .write s.privileged kind n va s = .ok ps s1 ∧ s1.busErrorIn .write ps = none ∧ (ps.length ≤ 1 ∨ Undisturbed s)

/-- What a load changes: its registers, the PC, and what the checks change (`s1` is the state they leave). -/
def LoadFrame (s s1 t : State) (ds : List RegNo) : Prop :=
  OnlyChecked s s1 ∧ SameRegs s t ds ∧ SameSr s t [] ∧ SameMem s t ∧ SameSystem s1 t

/-- What a store changes: the bytes of its transfers, a moved pointer, the PC, and what the checks change. -/
def StoreFrame (s s1 t : State) (ds : List RegNo) (ps : List (Word × Nat)) : Prop :=
  OnlyChecked s s1 ∧ SameRegs s t ds ∧ SameSr s t [] ∧ (Memory.wf s.mem = true → SameMemBut s t ps) ∧ SameSystem s1 t

/-- `i` loads R`d` with `value` of the `n` bytes at `va`. -/
def Loads (i : Instr) (s : State) (kind : LsKind) (n : Nat) (va : Word) (d : RegNo) (value : List Byte → Word) : Prop :=
  ∀ bs s1, Reads s kind n va bs s1 → Gives (exec i s) fun t => Writes i s t d (value bs) ∧ LoadFrame s s1 t [d]

/-- `i` loads R`d` and moves the pointer R`p` to `ptr`; with `d = p` the register holds any value (46_data_transfer.md R745). -/
def LoadsMoving (i : Instr) (s : State) (kind : LsKind) (n : Nat) (va : Word) (d p : RegNo) (ptr : Word) (value : List Byte → Word) : Prop :=
  ∀ bs s1, Reads s kind n va bs s1 → Gives (exec i s) fun t =>
    LoadFrame s s1 t [d, p] ∧
    (d ≠ p → (d ≠ 15#4 → t.getReg d = value bs) ∧ (p ≠ 15#4 → t.getReg p = ptr) ∧
      t.pc = if p = 15#4 then ptr &&& 0xFFFFFFFE#32 else if d = 15#4 then value bs &&& 0xFFFFFFFE#32 else s.after i)

/-- The doubleword of eight bytes. -/
def doubleOfBytes (bs : List Byte) : BitVec 64 := wordOfBytes (bs.take 4) ++ wordOfBytes (bs.drop 4)

/-- `i` loads the pair `R[d+1]:R[d]` with the eight bytes at `va`; an odd `d` leaves any values (00_scope.md R29). -/
def LoadsPair (i : Instr) (s : State) (kind : LsKind) (va : Word) (d : RegNo) : Prop :=
  ∀ bs s1, Reads s kind 8 va bs s1 → Gives (exec i s) fun t =>
    LoadFrame s s1 t [d, d + 1#4] ∧ (d ≠ 14#4 → d ≠ 15#4 → t.pc = s.after i) ∧
    (evenNo d = true → WritesPair i s t d (doubleOfBytes bs))

/-- `i` loads the even pair and moves the pointer R`p` to `ptr`, a register outside the pair and not just below it. -/
def LoadsPairMoving (i : Instr) (s : State) (kind : LsKind) (va : Word) (d p : RegNo) (ptr : Word) : Prop :=
  ∀ bs s1, Reads s kind 8 va bs s1 → Gives (exec i s) fun t =>
    LoadFrame s s1 t [d, d + 1#4, p] ∧ (d ≠ 14#4 → d ≠ 15#4 → p ≠ 15#4 → t.pc = s.after i) ∧
    (evenNo d = true → d ≠ p → d + 1#4 ≠ p → d.toNat ≠ p.toNat + 1 →
      t.getReg d = (doubleOfBytes bs).extractLsb' 0 32 ∧
      (d ≠ 14#4 → t.getReg (d + 1#4) = (doubleOfBytes bs).extractLsb' 32 32) ∧ (p ≠ 15#4 → t.getReg p = ptr))

/-- `i` stores `bytes` at `va`. -/
def Stores (i : Instr) (s : State) (kind : LsKind) (va : Word) (bytes : List Byte) : Prop :=
  ∀ ps s1, Reaches s kind bytes.length va ps s1 → Gives (exec i s) fun t =>
    t.mem = writeTransfers s.mem ps bytes ∧ StoreFrame s s1 t [] ps ∧ t.pc = s.after i

/-- `i` stores `bytes` at `va` and moves the pointer R`p` to `ptr`. -/
def StoresMoving (i : Instr) (s : State) (kind : LsKind) (va : Word) (bytes : List Byte) (p : RegNo) (ptr : Word) : Prop :=
  ∀ ps s1, Reaches s kind bytes.length va ps s1 → Gives (exec i s) fun t =>
    t.mem = writeTransfers s.mem ps bytes ∧ StoreFrame s s1 t [p] ps ∧ Writes i s t p ptr

/-- `i` stores any `n` bytes at `va` and leaves any value in R`p` (47_data_transfer_stores_multiple.md R822); `s0` is `s` with the free values
drawn. -/
def StoresAnything (i : Instr) (s s0 : State) (kind : LsKind) (n : Nat) (va : Word) (p : RegNo) : Prop :=
  ∀ ps s1, Reaches s0 kind n va ps s1 → Gives (exec i s) fun t =>
    (∃ bytes, bytes.length = n ∧ t.mem = writeTransfers s.mem ps bytes) ∧ StoreFrame s s1 t [p] ps

/-- The addresses of `n` words from `va` upwards. -/
def wordsFrom (va : Word) (n : Nat) : List Word := (List.range n).map fun k => va + BitVec.ofNat 32 (4 * k)

/-- The word loads from the addresses pass their checks and the bus, one after the other, and nothing comes between them: they read the words
`vs`, and leave `s1`. -/
def ReadsAll (kind : LsKind) : List Word → State → List Word → State → Prop
  | [], s, vs, s1 => vs = [] ∧ s1 = s
  | va :: vas, s, vs, s1 => ∃ bs rest s0, Reads s kind 4 va bs s0 ∧ (vas = [] ∨ Undisturbed s) ∧
    vs = wordOfBytes bs :: rest ∧ ReadsAll kind vas s0 rest s1

/-- The word stores `ws` pass their checks and the bus, one after the other, and nothing comes between them: they make the transfers `ps`, and
leave `s1`. -/
def ReachesAll (kind : LsKind) : List (Word × Word) → State → List (Word × Nat) → State → Prop
  | [], s, ps, s1 => ps = [] ∧ s1 = s
  | (va, v) :: ws, s, ps, s1 =>
    ∃ qs rest s0, Reaches s kind 4 va qs s0 ∧ (ws = [] ∨ Undisturbed s) ∧ ps = qs ++ rest ∧
      ReachesAll kind ws { s0 with mem := writeTransfers s0.mem qs (bytesOfWord v 4) } rest s1

/-- The read and the write of the word at `va` both pass their checks and the bus: the word is `w`, and the write makes the transfers `ws`. -/
def Swaps (s : State) (kind : LsKind) (va w : Word) (ws : List (Word × Nat)) (s2 : State) : Prop :=
  ∃ rs s1, checkAccess .read s.privileged kind 4 va s = .ok rs s1 ∧ checkAccess .write s1.privileged kind 4 va s1 = .ok ws s2 ∧
    s2.busErrorIn .read rs = none ∧ s2.busErrorIn .write ws = none ∧ w = wordOfBytes (readTransfers s.mem rs)

/-- Addresses are physical, and no part of memory is secure. -/
def Direct (s : State) : Prop := s.cfg.mmut = .none ∧ hasSecure s.cfg = false

/-- The `k`-th word of the block at `va`, as a transfer of its own finds it: the other agents have acted between the words before it
(20_memory.md R208, R850). -/
def State.wordInTurn (s : State) (va : Word) (k : Nat) : Word :=
  wordOfBytes (readBytes (s.turns k).mem (va + BitVec.ofNat 32 (4 * k)) 4)

/-- The platform backs the `n` bytes at `va`. -/
def Backed (s : State) (va : Word) (n : Nat) : Prop := ∀ k, k < n → backedAt s.cfg (va + BitVec.ofNat 32 k) = true

/-! ## The invariant -/

/-- What holds at reset and every step keeps: the canonical form of memory, the fixed bits of registers, and the bounds of the model's own
fields. -/
structure State.Inv (s : State) : Prop where
  memory : Memory.wf s.mem = true
  /-- 10_state.md R110. -/
  pc : s.pc.getLsbD 0 = false
  /-- 92_eei_decisions.md D10. -/
  reserved : s.sr &&& ~~~srImplemented = 0#32
  /-- 10_state.md R118. -/
  secure : s.srBit bitSS = true → hasSecure s.cfg = true
  boot : s.cfg.resetSS = true → hasSecure s.cfg = true
  /-- MMUCR[I] and its reserved bits (20_memory.md R245, R258). -/
  mmucr : s.mmu.mmucr &&& 0x000000E4#32 = 0#32
  /-- 20_memory.md R285, R288. -/
  regions : ∀ n (h : n < 8), s.mpu.ar[n] &&& 0x00000FC0#32 = 0#32 ∧ s.mpu.psr[n] &&& 0xFFFF0000#32 = 0#32
  /-- MPUCRA, MPUCRB, MPUBRA and MPUBRB (20_memory.md R293, R294); that their reserved bits read 0 is the model's choice,
  notes/assumptions/6.md. -/
  caching : (s.mpu.cra ||| s.mpu.crb ||| s.mpu.bra ||| s.mpu.brb) &&& 0xFFFFFF00#32 = 0#32
  /-- 20_memory.md R284. -/
  mpucr : s.mpu.cr &&& 0xFFFFFFFE#32 = 0#32
  /-- 61_timers_counters_secure_state.md R1163. -/
  pccr : s.perf.pccr &&& ~~~pccrStored = 0#32
  /-- The bits of a TLB entry that the ITLB or the DTLB does not implement (20_memory.md R240). -/
  tlbs : s.cfg.mmut = .split → ∀ n (h : n < 64),
    (s.mmu.itlb[n].d = false ∧ s.mmu.itlb[n].w = false ∧ s.mmu.itlb[n].ap.getLsbD 1 = false) ∧ s.mmu.dtlb[n].ap.getLsbD 0 = false
  /-- 61_timers_counters_secure_state.md R1180. -/
  asleep : ∀ op, s.sleeping = some op → s.cfg.sleepNop.contains op = false
  /-- 70_reset_and_hazards.md R1223. -/
  hazard : s.hazardLeft ≤ s.cfg.jospHazard

end Sys2Proof.Machine
end

