-- ==== Sys2Proof/Certificates/Slice0/Obligations.lean ====
section
/-! DEFINITION. The statements for the provers: what the numbered rules of spec/ say an instruction or the machine does. OBLIGATIONS.json lists them. -/

open Sys2Proof Sys2Proof.Machine

/-! ## Decoding and the step -/

/-- At a boundary that nothing interrupts, a step runs the instruction that is decoded from the code fetched at the PC, and then counts its
time (60_exceptions.md R1101). `s1` is the state after the fetch. That revision 0 of the architecture has no instruction, so that each raises
Unimplemented Instruction there, is the model's reading, notes/assumptions/32.md. -/
def Obligations.StepRunsDecodedInstruction : Prop :=
  ∀ (s s1 : State) (code : Code) (i : Instr),
    s.sample.now.reset = false → s.sample.ocdStopped = false → (s.sample.cfg.hasOcd && s.sample.now.ocdStop) = false →
    s.sample.pendingEvent = none → s.sample.breakAccepted = false → s.sample.sleeping = none → s.sample.srBit bitJ = false →
    fetchCode s.sample = .ok code s1 → decodeCode code = some i → (s1.srBit bitR = true → ignoresRemap i = true) →
    step s = onNext (fun t => (t.hazard i s1).clock s1 (completes i s1))
      (if hasRev s.cfg 1 then exec i s1 else raiseEvent .unimplemented s1)

/-- The same from the bytes in memory, on a machine without translation and without an input asserted: where the bytes at the PC are those of
a well-formed instruction, the step runs it (at revision 0 as above, notes/assumptions/32.md). -/
def Obligations.StepRunsBytesAtPc : Prop :=
  ∀ (s : State) (i : Instr), WellFormed i = true → Direct s → s.pc.getLsbD 0 = false → Backed s s.pc (instrLength i) →
    readBytes s.mem s.pc (instrLength i) = encode i →
    s.env.headD Sample.quiet = Sample.quiet → s.busErr = [] → s.sleeping = none → s.ocdStopped = false →
    s.srBit bitJ = false → s.srBit bitR = false →
    step s = onNext (fun t => (t.hazard i s.sample).clock s.sample (completes i s.sample))
      (if hasRev s.cfg 1 then exec i s.sample else raiseEvent .unimplemented s.sample)

/-- Words written out from the encodings of the spec decode to the instructions they stand for. -/
def Obligations.DecodeSampleWords : Prop :=
  decodeBytes [0x5C#8, 0x43#8] = .ok (.abs 3#4) [] ∧
  decodeBytes [0x00#8, 0x04#8] = .ok (.add (.formI 4#4 0#4)) [] ∧
  decodeBytes [0xD0#8, 0x20#8] = .ok (.acall 2#8) [] ∧
  decodeBytes [0xC0#8, 0x20#8] = .ok (.brCond3 0#3 2#8) [] ∧
  decodeBytes [0xD4#8, 0x11#8] = .ok (.pushm 0x41#8) [] ∧
  decodeBytes [0xD7#8, 0x33#8] = .ok .scall [] ∧
  decodeBytes [0xE1#8, 0xB1#8, 0x00#8, 0x42#8] = .ok (.mfsr 1#4 66#8) [] ∧
  decodeBytes [0xE2#8, 0xA0#8, 0x00#8, 0x00#8] = .ok (.rcall (.formII 0x20000#21)) [] ∧
  decodeBytes [0xE3#8, 0x70#8, 0x00#8, 0x00#8] = .ok (.stcond 1#4 0#4 0#16) [] ∧
  decodeBytes [0xEB#8, 0xCD#8, 0x40#8, 0x0F#8] = .ok (.stm 13#4 1#1 0x400F#16) []

/-- Decoding the bytes of a well-formed instruction gives it back, and leaves what follows them. -/
def Obligations.DecodeOfEncode : Prop :=
  ∀ (i : Instr) (rest : List Byte), WellFormed i = true → decodeBytes (encode i ++ rest) = .ok i rest

/-- What the decoder answers is a well-formed instruction whose code is the one decoded: no two codes are one instruction, and no bit of a code
is ignored. -/
def Obligations.EncodeOfDecode : Prop :=
  ∀ (code : Code) (i : Instr), decodeCode code = some i → WellFormed i = true ∧ encodeCode i = code

/-! ## Reset and the invariant -/

/-- The state that reset leaves: what the spec gives a value (10_state.md R160, 70_reset_and_hazards.md R1200), and the flags Q, V, N, Z and C,
whose 0 is the model's choice (notes/assumptions/4.md). -/
def AtReset (s : State) : Prop :=
  s.pc = (if s.cfg.archB then 0xA0000000#32 else 0x80000000#32) ∧ s.mode = 1#3 ∧ s.srBit bitEM = true ∧ s.srBit bitGM = true ∧
  s.srBit bitSS = s.cfg.resetSS ∧
  (∀ n ∈ [bitI0M, bitI1M, bitI2M, bitI3M, bitH, bitJ, bitDM, bitD, bitR, bitT, bitL, bitQ, bitV, bitN, bitZ, bitC], s.srBit n = false) ∧
  s.java.josp = 0#32 ∧ s.timer.count = 0#32 ∧ s.timer.compare = 0#32 ∧ s.timer.compareIrq = false ∧
  s.perf.pccr = 0#32 ∧ s.perf.pccnt = 0#32 ∧ s.perf.pcnt0 = 0#32 ∧ s.perf.pcnt1 = 0#32 ∧
  s.mmu.mmucr.getLsbD 4 = true ∧ s.mmu.mmucr.getLsbD 0 = false ∧ s.mmu.tlbehi.getLsbD 9 = false ∧
  (∀ n (h : n < 64), s.mmu.itlb[n].v = false ∧ s.mmu.dtlb[n].v = false) ∧
  s.mpu.cr = 0#32 ∧ (∀ n (h : n < 8), s.mpu.ar[n].getLsbD 0 = false) ∧
  s.mpu.cra = 0#32 ∧ s.mpu.crb = 0#32 ∧ s.mpu.bra = 0#32 ∧ s.mpu.brb = 0#32 ∧ s.mpu.apra = 0#32 ∧ s.mpu.aprb = 0#32

/-- The initial state, and the state a step leaves while the reset line is asserted, are the state of reset; the line is not masked. That the
flags are 0, that memory keeps what the surroundings leave in it and that the step takes no cycle, so that COUNT is 0 after it, are the model's
choices, notes/assumptions/4.md and 30.md. -/
def Obligations.ResetLeavesResetState : Prop :=
  (∀ cfg : Params, AtReset (State.resetOf cfg)) ∧
  ∀ s : State, (s.env.headD Sample.quiet).reset = true → Gives (step s) fun t => AtReset t ∧ t.cfg = s.cfg ∧ t.mem = s.sample.mem

/-- The invariant holds at reset, in every configuration that boots into the secure state only where it has one. That the reserved bits of MPUCRA,
MPUCRB, MPUBRA and MPUBRB are among its zero bits is the model's choice, notes/assumptions/6.md. -/
def Obligations.ResetMeetsInvariant : Prop :=
  State.reset.Inv ∧ ∀ cfg : Params, (cfg.resetSS = true → hasSecure cfg = true) → (State.resetOf cfg).Inv

/-- Every step keeps the invariant, and the configuration. That the reserved bits of MPUCRA, MPUCRB, MPUBRA and MPUBRB stay 0 is the model's choice,
notes/assumptions/6.md. -/
def Obligations.StepKeepsInvariant : Prop :=
  ∀ s t : State, s.Inv → step s = .next t → t.Inv ∧ t.cfg = s.cfg

/-! ## Rules of the whole machine -/

/-- Only sscall and retss change SR[SS]: no other instruction, and no event (10_state.md R118). -/
def Obligations.SecureBitOnlyBySecureCalls : Prop :=
  (∀ (i : Instr) (s t : State), exec i s = .next t → i ≠ .sscall → i ≠ .retss → t.srBit bitSS = s.srBit bitSS) ∧
  (∀ (e : Event) (ra : Word) (s t : State), takeEvent e ra s = .next t → t.srBit bitSS = s.srBit bitSS) ∧
  (∀ (ra : Word) (s : State), (s.enterDebug ra).srBit bitSS = s.srBit bitSS)

/-- SR[T] is clear at reset, and no instruction changes it but csrf and ssrf of bit 14 and those that load the whole of SR; csrfcz reads it, and
no event changes it (10_state.md R126). -/
def Obligations.ScratchBitOnlyExplicit : Prop :=
  (∀ (i : Instr) (s t : State), exec i s = .next t → t.srBit bitT ≠ s.srBit bitT →
    i = .csrf 14#5 ∨ i = .ssrf 14#5 ∨ (∃ rs, i = .mtsr rs 0#8) ∨ i = .rete ∨ i = .rets ∨ i = .retd ∨ i = .retss) ∧
  (∀ (e : Event) (ra : Word) (s t : State), takeEvent e ra s = .next t → t.srBit bitT = s.srBit bitT) ∧
  (∀ cfg : Params, (State.resetOf cfg).srBit bitT = false) ∧
  (∀ s : State, Gives (exec (.csrf 14#5) s) (fun t => t.srBit bitT = false ∧ SameSr s t [bitT]) ∧
    Gives (exec (.ssrf 14#5) s) (fun t => t.srBit bitT = true ∧ SameSr s t [bitT]) ∧
    Gives (exec (.csrfcz 14#5) s) (fun t => t.flagC = s.srBit bitT ∧ t.flagZ = s.srBit bitT ∧ SameSr s t [1, 0]))

/-- The instructions by which an application leaves its own context without an exception: the calls into the system and the return from the
secure state, a breakpoint, and the return into Java state. -/
def leavesApplication : Instr → Bool
  | .scall => true
  | .sscall => true
  | .retss => true
  | .breakpoint => true
  | .retj => true
  | _ => false

/-- In Application mode, an instruction that takes no exception and is no call into the system leaves the upper half of SR, every system
register but the Java registers, the debug registers, the stack pointers of the other contexts and the shadow registers as they are
(60_exceptions.md R1120, R1121). -/
def Obligations.ApplicationKeepsSystemState : Prop :=
  ∀ (i : Instr) (s t : State), s.inApplication = true → s.taken = none → leavesApplication i = false →
    exec i s = .next t → t.taken = none →
    (∀ n, 16 ≤ n → n < 32 → t.srBit n = s.srBit n) ∧ t.ctl = s.ctl ∧ t.ret = s.ret ∧ t.timer = s.timer ∧ t.perf = s.perf ∧ t.mpu = s.mpu ∧
    t.sec = s.sec ∧ t.impl = s.impl ∧ t.debug = s.debug ∧ t.mmu.tlbehi = s.mmu.tlbehi ∧ t.mmu.tlbelo = s.mmu.tlbelo ∧ t.mmu.ptbr = s.mmu.ptbr ∧
    t.mmu.tlbear = s.mmu.tlbear ∧ t.mmu.mmucr = s.mmu.mmucr ∧ t.spSys = s.spSys ∧ (s.srBit bitSS = false → t.spSec = s.spSec) ∧
    t.int0 = s.int0 ∧ t.int1 = s.int1 ∧ t.int2 = s.int2 ∧ t.int3 = s.int3 ∧ t.sleeping = s.sleeping

/-- Privileged instructions raise Privilege Violation in Application mode; rete does in Supervisor mode too, rets by the mode bits alone, and
retss outside the secure state (48_system_coprocessor_java.md R890 (b), R922, R923, R926). -/
def Obligations.PrivilegedInstructionsTrap : Prop :=
  (∀ (i : Instr) (s : State), s.inApplication = true → needsPrivilege i = true → unitPresent i s.cfg = true →
    exec i s = raiseEvent .privilegeViolation s) ∧
  (∀ s : State, s.mode = 0#3 ∨ s.mode = 1#3 → exec .rete s = raiseEvent .privilegeViolation s) ∧
  (∀ s : State, s.mode = 0#3 → exec .rets s = raiseEvent .privilegeViolation s) ∧
  (∀ s : State, unitPresent .retss s.cfg = true → s.srBit bitSS = false → exec .retss s = raiseEvent .privilegeViolation s)

/-- Nothing interrupts the boundary, and what follows it is a fetch. -/
def Uninterrupted (s : State) : Prop :=
  s.inputs.reset = false ∧ s.ocdStopped = false ∧ (s.cfg.hasOcd && s.inputs.ocdStop) = false ∧ s.sample.pendingEvent = none ∧
  s.sample.breakAccepted = false ∧ s.sleeping = none ∧ s.srBit bitJ = false

/-- What stops an instruction before its operation. An instruction of a unit or revision that is not there raises Unimplemented Instruction (at
revision 0 every one does, the model's reading, notes/assumptions/32.md); a coprocessor instruction raises Floating-point where the hardware
signals it, and Coprocessor Absent where its coprocessor is absent. A fetched code that decodes to nothing raises Illegal Opcode; a halfword
whose fetch finds an odd address, an event of the translation or a bus error raises that event, the second halfword of an extended instruction
too; the return address is the instruction's own (30_encoding.md R410, R411, 48_system_coprocessor_java.md R960, 60_exceptions.md R1064, R1067,
R1071 to R1073). -/
def Obligations.MissingUnitsTrap : Prop :=
  (∀ (i : Instr) (s : State), unitPresent i s.cfg = false → exec i s = raiseEvent .unimplemented s) ∧
  (∀ (i : Instr) (cp : BitVec 3) (s : State), coprocessorOf i = some cp → (s.now.fpSignal && s.cfg.hasFpu) = true →
    exec i s = raiseEvent .floatingPoint s) ∧
  (∀ (i : Instr) (cp : BitVec 3) (s : State), coprocessorOf i = some cp → (s.now.fpSignal && s.cfg.hasFpu) = false →
    s.cfg.cops.getLsbD cp.toNat = false → exec i s = raiseEvent .coprocessorAbsent s) ∧
  (∀ (i : Instr) (s : State), hasRev s.cfg 1 = false → perform i s = raiseEvent .unimplemented s) ∧
  (∀ (s s1 : State) (code : Code), Uninterrupted s → fetchCode s.sample = .ok code s1 → decodeCode code = none →
    step s = onNext (fun t => (t.windowPast s1 code.bytes.length false).clock s1 false) (takeEvent .illegalOpcode s.pc s1)) ∧
  (∀ (s : State) (va : Word), va.toNat % 2 = 1 → fetchHalf va s = .raise (.instructionAddress va) s) ∧
  (∀ (s s1 : State) (va : Word) (e : Event), va.toNat % 2 = 0 → translate .fetch s.privileged va s = .raise e s1 →
    fetchHalf va s = .raise e s1) ∧
  (∀ (s s1 : State) (va : Word) (r : Translated), va.toNat % 2 = 0 → translate .fetch s.privileged va s = .ok r s1 →
    (s1.busAnswers .fetch r.pa = false ∨ s1.busAnswers .fetch (r.pa + 1#32) = false) → fetchHalf va s = .raise .busErrorFetch s1) ∧
  (∀ (s s1 : State) (e : Event), Uninterrupted s →
    fetchHalf s.pc s.sample = .raise e s1 ∨
      (∃ h s0, fetchHalf s.pc s.sample = .ok h s0 ∧ isExtended h = true ∧ fetchHalf (s.pc + 2#32) s0 = .raise e s1) →
    step s = onNext (fun t => t.clock s1 false) (takeEvent e s.pc s1))

/-- The second class never stops with a fault: its entries touch no memory (60_exceptions.md R1058). And no instruction is refused but an
incjosp that would trap to Java software (48_system_coprocessor_java.md R990). -/
def Obligations.StopsAreRare : Prop :=
  (∀ s : State, s.cfg.archB = true → Safe (step s)) ∧
  (∀ (i : Instr) (s : State) (r : Refusal), exec i s = .refused r →
    ∃ imm, i = .incjosp imm ∧ s.cfg.hasJava = true ∧
      ((((s.java.josp.extractLsb' 0 4).toNat : Int) + jospStep imm < 0 ∧ r = .javaTrap 4) ∨
       (8 < ((s.java.josp.extractLsb' 0 4).toNat : Int) + jospStep imm ∧ r = .javaTrap 3)))

/-! ## The instructions that write registers and flags: they complete, and what they leave -/

/-- add to divu, the moves, and sync, which changes nothing but that every bus error still pending is due (20_memory.md R312). -/
def Obligations.ArithmeticAndMoveFrame : Prop :=
  KeepsRest arithmeticFrame unitPresent ∧ KeepsRest moveFrame unitPresent ∧
  ∀ (s : State) (op : BitVec 8), exec (.sync op) s = .next { s with pc := s.pc + 4#32, busErrDue := s.busErr.length }

/-- and to ror. -/
def Obligations.LogicBitShiftFrame : Prop := KeepsRest logicFrame unitPresent

/-- The DSP and the packed instructions. -/
def Obligations.DspAndPackedFrame : Prop := KeepsRest dspFrame unitPresent ∧ KeepsRest packedFrame unitPresent

/-! ## Arithmetic -/

/-- add, adc and acr: the exact sum kept to 32 bits, C its carry, V its signed overflow, Z sticky with a carry in (40_arithmetic.md R450). -/
def Obligations.AdditionExact : Prop :=
  ∀ s : State,
    (∀ rd rs, Adds (.add (.formI rd rs)) s rd (s.getReg rd) (s.getReg rs) false false) ∧
    (∀ rd rx ry sa, Adds (.add (.formII rd rx ry sa)) s rd (s.getReg rx) (s.getReg ry <<< sa.toNat) false false) ∧
    (∀ rd rx ry, Adds (.adc rd rx ry) s rd (s.getReg rx) (s.getReg ry) s.flagC true) ∧
    (∀ rd, Adds (.acr rd) s rd (s.getReg rd) 0#32 s.flagC true)

/-- The subtractions and comparisons: C is the borrow, V the signed overflow of the exact difference (40_arithmetic.md R450). -/
def Obligations.SubtractionExact : Prop :=
  ∀ s : State,
    (∀ rd rs, Subtracts (.sub (.formI rd rs)) s rd (s.getReg rd) (s.getReg rs) false false) ∧
    (∀ rd rx ry sa, Subtracts (.sub (.formII rd rx ry sa)) s rd (s.getReg rx) (s.getReg ry <<< sa.toNat) false false) ∧
    (∀ rd imm, rd ≠ 13#4 → Subtracts (.sub (.formIII rd imm)) s rd (s.getReg rd) (imm.signExtend 32) false false) ∧
    (∀ imm, Subtracts (.sub (.formIII 13#4 imm)) s 13#4 (s.getReg 13#4) (imm.signExtend 32 <<< 2) false false) ∧
    (∀ rd imm, Subtracts (.sub (.formIV rd imm)) s rd (s.getReg rd) (imm.signExtend 32) false false) ∧
    (∀ rd rs imm, Subtracts (.sub (.formV rd rs imm)) s rd (s.getReg rs) (imm.signExtend 32) false false) ∧
    (∀ c rd imm, s.cond c = true → Subtracts (.subCond (.formI c rd 0#1 imm)) s rd (s.getReg rd) (imm.signExtend 32) false false) ∧
    (∀ rd rs, Subtracts (.rsub (.formI rd rs)) s rd (s.getReg rs) (s.getReg rd) false false) ∧
    (∀ rd rs imm, Subtracts (.rsub (.formII rd rs imm)) s rd (imm.signExtend 32) (s.getReg rs) false false) ∧
    (∀ rd, Subtracts (.neg rd) s rd 0#32 (s.getReg rd) false false) ∧
    (∀ rd rx ry, Subtracts (.sbc rd rx ry) s rd (s.getReg rx) (s.getReg ry) s.flagC true) ∧
    (∀ rd, Subtracts (.scr rd) s rd (s.getReg rd) 0#32 s.flagC true) ∧
    (∀ rd rs, Compares (.cpB rd rs) s ((s.getReg rd).setWidth 8) ((s.getReg rs).setWidth 8) false false) ∧
    (∀ rd rs, Compares (.cpH rd rs) s ((s.getReg rd).setWidth 16) ((s.getReg rs).setWidth 16) false false) ∧
    (∀ rd rs, Compares (.cpW (.formI rd rs)) s (s.getReg rd) (s.getReg rs) false false) ∧
    (∀ rd imm, Compares (.cpW (.formII rd imm)) s (s.getReg rd) (imm.signExtend 32) false false) ∧
    (∀ rd imm, Compares (.cpW (.formIII rd imm)) s (s.getReg rd) (imm.signExtend 32) false false) ∧
    (∀ rd rs, Compares (.cpc (.formI rd rs)) s (s.getReg rd) (s.getReg rs) s.flagC true) ∧
    (∀ rd, Compares (.cpc (.formII rd)) s (s.getReg rd) 0#32 s.flagC true)

/-- abs and addabs on exact integers, and the conditional forms, which change no flag and nothing where the condition fails
(40_arithmetic.md R451, R455, R456, R465, R471). -/
def Obligations.AbsoluteAndConditional : Prop :=
  ∀ s : State,
    (∀ rd, Gives (exec (.abs rd) s) fun t =>
      Writes (.abs rd) s t rd (BitVec.ofNat 32 (s.getReg rd).toInt.natAbs) ∧ (t.flagZ = true ↔ s.getReg rd = 0#32)) ∧
    (∀ rd rx ry, Gives (exec (.addabs rd rx ry) s) fun t =>
      Writes (.addabs rd rx ry) s t rd (BitVec.ofNat 32 ((s.getReg rx).toNat + (s.getReg ry).toInt.natAbs)) ∧
      (t.flagZ = true ↔ ((s.getReg rx).toNat + (s.getReg ry).toInt.natAbs) % 2 ^ 32 = 0)) ∧
    (∀ c rd rx ry, hasRev s.cfg 2 = true → Conditionally (s.cond c) (.addCond c rd rx ry) s
      (Sets (.addCond c rd rx ry) s rd (s.getReg rx + s.getReg ry))) ∧
    (∀ c rd imm, hasRev s.cfg 2 = true → Conditionally (s.cond c) (.rsubCond c rd imm) s
      (Sets (.rsubCond c rd imm) s rd (imm.signExtend 32 - s.getReg rd))) ∧
    (∀ c rd rx ry, hasRev s.cfg 2 = true → Conditionally (s.cond c) (.subCond (.formII c rd rx ry)) s
      (Sets (.subCond (.formII c rd rx ry)) s rd (s.getReg rx - s.getReg ry))) ∧
    (∀ c rd f imm, Conditionally (s.cond c) (.subCond (.formI c rd f imm)) s
      (Sets (.subCond (.formI c rd f imm)) s rd (s.getReg rd - imm.signExtend 32)))

/-- max, min and tnbz with their encodings, their results, and all they leave unchanged (40_arithmetic.md R461, R462, R472). -/
def Obligations.MaximumMinimumZeroByte : Prop :=
  (∀ rd rx ry : RegNo, decodeCode (.word (cat 32 (0b111#3 ++ rx ++ 0b00000#5) (ry ++ 0b000011000100#12 ++ rd))) = some (.max rd rx ry)) ∧
  (∀ rd rx ry : RegNo, decodeCode (.word (cat 32 (0b111#3 ++ rx ++ 0b00000#5) (ry ++ 0b000011010100#12 ++ rd))) = some (.min rd rx ry)) ∧
  (∀ rd : RegNo, decodeCode (.half (0b010111001110#12 ++ rd)) = some (.tnbz rd)) ∧
  ∀ s : State,
    (∀ rd rx ry, Gives (exec (.max rd rx ry) s) fun t =>
      Writes (.max rd rx ry) s t rd (if (s.getReg rx).toInt > (s.getReg ry).toInt then s.getReg rx else s.getReg ry) ∧
      SameRegs s t [rd] ∧ SameSr s t [] ∧ SameMem s t ∧ SameSystem s t) ∧
    (∀ rd rx ry, Gives (exec (.min rd rx ry) s) fun t =>
      Writes (.min rd rx ry) s t rd (if (s.getReg rx).toInt < (s.getReg ry).toInt then s.getReg rx else s.getReg ry) ∧
      SameRegs s t [rd] ∧ SameSr s t [] ∧ SameMem s t ∧ SameSystem s t) ∧
    (∀ rd, Gives (exec (.tnbz rd) s) fun t =>
      (t.flagZ = true ↔ ∃ k, k < 4 ∧ (s.getReg rd).toNat / 2 ^ (8 * k) % 256 = 0) ∧ t.pc = s.pc + 2#32 ∧
      SameRegs s t [] ∧ SameSr s t [1] ∧ SameMem s t ∧ SameSystem s t)

/-- The multiplications: the low 32 bits, or the exact 64-bit product, and the sum with the accumulator (41_multiplication.md R503 to R508). -/
def Obligations.MultiplicationExact : Prop :=
  ∀ s : State,
    (∀ rd rs, SetsTo (.mul (.formI rd rs)) s rd fun v => v.toNat = (s.getReg rd).toNat * (s.getReg rs).toNat % 2 ^ 32) ∧
    (∀ rd rx ry, SetsTo (.mul (.formII rd rx ry)) s rd fun v => v.toNat = (s.getReg rx).toNat * (s.getReg ry).toNat % 2 ^ 32) ∧
    (∀ rd rs imm, SetsTo (.mul (.formIII rd rs imm)) s rd fun v => v = BitVec.ofInt 32 ((s.getReg rs).toInt * imm.toInt)) ∧
    (∀ rd rx ry, SetsTo (.mac rd rx ry) s rd fun v =>
      v.toNat = ((s.getReg rx).toNat * (s.getReg ry).toNat + (s.getReg rd).toNat) % 2 ^ 32) ∧
    (∀ rd rx ry, SetsPairTo (.mulsD rd rx ry) s rd fun v => v.toInt = (s.getReg rx).toInt * (s.getReg ry).toInt) ∧
    (∀ rd rx ry, SetsPairTo (.muluD rd rx ry) s rd fun v => v.toNat = (s.getReg rx).toNat * (s.getReg ry).toNat) ∧
    (∀ rd rx ry, SetsPairTo (.macsD rd rx ry) s rd fun v =>
      v = BitVec.ofInt 64 ((s.getReg rx).toInt * (s.getReg ry).toInt + (s.getPair rd).toInt)) ∧
    (∀ rd rx ry, SetsPairTo (.macuD rd rx ry) s rd fun v =>
      v.toNat = ((s.getReg rx).toNat * (s.getReg ry).toNat + (s.getPair rd).toNat) % 2 ^ 64)

/-- The divisions, where they are defined: the quotient goes to Rd and the remainder to Rd+1; the signed one truncates, so that the remainder
has the sign of the dividend (41_multiplication.md R501, R502). -/
def Obligations.DivisionExact : Prop :=
  ∀ s : State,
    (∀ rd rx ry, s.getReg ry ≠ 0#32 → ¬ (s.getReg rx = 0x80000000#32 ∧ s.getReg ry = 0xFFFFFFFF#32) →
      SetsPairTo (.divs rd rx ry) s rd fun v =>
        let q := (v.extractLsb' 0 32).toInt
        let r := (v.extractLsb' 32 32).toInt
        (s.getReg rx).toInt = q * (s.getReg ry).toInt + r ∧ r.natAbs < (s.getReg ry).toInt.natAbs ∧
          (r ≠ 0 → (r < 0 ↔ (s.getReg rx).toInt < 0))) ∧
    (∀ rd rx ry, s.getReg ry ≠ 0#32 →
      SetsPairTo (.divu rd rx ry) s rd fun v =>
        let q := (v.extractLsb' 0 32).toNat
        let r := (v.extractLsb' 32 32).toNat
        (s.getReg rx).toNat = q * (s.getReg ry).toNat + r ∧ r < (s.getReg ry).toNat)

/-! ## DSP -/

/-- The products of selected halfwords and of a word with a halfword, the sums into a word and into the 48-bit accumulator in the high bits of
a pair (42_dsp.md R541 to R548, R557). -/
def Obligations.DspProducts : Prop :=
  ∀ s : State, s.cfg.hasDsp = true →
    (∀ rd rx xp ry yp, Adds (.addhhW rd rx xp ry yp) s rd (half (s.getReg rx) xp) (half (s.getReg ry) yp) false false) ∧
    (∀ rd rx xp ry yp, Subtracts (.subhhW rd rx xp ry yp) s rd (half (s.getReg rx) xp) (half (s.getReg ry) yp) false false) ∧
    (∀ rd rx xp ry yp, SetsTo (.mulhhW rd rx xp ry yp) s rd fun v =>
      v.toInt = (half (s.getReg rx) xp).toInt * (half (s.getReg ry) yp).toInt) ∧
    (∀ rd rx xp ry yp, SetsTo (.mulnhhW rd rx xp ry yp) s rd fun v =>
      v.toInt = -((half (s.getReg rx) xp).toInt * (half (s.getReg ry) yp).toInt)) ∧
    (∀ rd rx xp ry yp, SetsTo (.machhW rd rx xp ry yp) s rd fun v =>
      v = BitVec.ofInt 32 ((half (s.getReg rx) xp).toInt * (half (s.getReg ry) yp).toInt + (s.getReg rd).toInt)) ∧
    (∀ rd rx xp ry yp, SetsPairTo (.machhD rd rx xp ry yp) s rd fun v =>
      v.extractLsb' 0 16 = 0#16 ∧ v.extractLsb' 16 48 =
        BitVec.ofInt 48 ((half (s.getReg rx) xp).toInt * (half (s.getReg ry) yp).toInt + ((s.getPair rd).extractLsb' 16 48).toInt)) ∧
    (∀ rd rx ry yp, SetsPairTo (.macwhD rd rx ry yp) s rd fun v =>
      v.extractLsb' 0 16 = 0#16 ∧ v.extractLsb' 16 48 =
        BitVec.ofInt 48 ((s.getReg rx).toInt * (half (s.getReg ry) yp).toInt + ((s.getPair rd).extractLsb' 16 48).toInt)) ∧
    (∀ rd rx ry yp, SetsPairTo (.mulwhD rd rx ry yp) s rd fun v =>
      v.extractLsb' 0 16 = 0#16 ∧ (v.extractLsb' 16 48).toInt = (s.getReg rx).toInt * (half (s.getReg ry) yp).toInt) ∧
    (∀ rd rx ry yp, SetsPairTo (.mulnwhD rd rx ry yp) s rd fun v =>
      v.extractLsb' 0 16 = 0#16 ∧ (v.extractLsb' 16 48).toInt = -((s.getReg rx).toInt * (half (s.getReg ry) yp).toInt))

/-- `i` writes to R`d` the signed word nearest to the exact value `x` among those of `n` bits, and Q records a saturation (42_dsp.md R540 (c)). -/
def SaturatesTo (i : Instr) (s : State) (d : RegNo) (n : Nat) (x : Int) : Prop :=
  ∃ v : Word, v.toInt = satS n x ∧ Gives (exec i s) fun t => Writes i s t d v ∧ (t.flagQ = true ↔ s.flagQ = true ∨ satS n x ≠ x)

/-- The same with V, N, Z and C (42_dsp.md R549 to R552). -/
def SaturatesWithFlags (i : Instr) (s : State) (d : RegNo) (n : Nat) (x : Int) : Prop :=
  ∃ v : Word, v.toInt = satS n x ∧ Gives (exec i s) fun t =>
    Writes i s t d v ∧ (t.flagQ = true ↔ s.flagQ = true ∨ satS n x ≠ x) ∧ Flags t (satS n x ≠ x) (satS n x < 0) (satS n x = 0) False

/-- `x` shifted right by `n`, half a unit of the last place added before (42_dsp.md R553). -/
def roundedShift (x : Int) (n : Nat) : Int := if n = 0 then x else (x + 2 ^ (n - 1)) / 2 ^ n

/-- `i` writes to R`d` what `sat` makes of `x` for the width `bp`, a width of 0 changing nothing, and Q records a change (42_dsp.md R555). -/
def ClampsTo (i : Instr) (s : State) (d : RegNo) (sat : Nat → Int → Int) (bp : BitVec 5) (x : Int) : Prop :=
  let y := if bp = 0#5 then x else sat bp.toNat x
  ∃ v : Word, v.toInt = y ∧ Gives (exec i s) fun t => Writes i s t d v ∧ (t.flagQ = true ↔ s.flagQ = true ∨ y ≠ x)

/-- The saturating additions, subtractions, products and shifts, on exact integers; a rounding adds half a unit of the last place
(42_dsp.md R549 to R556, R558 to R563). -/
def Obligations.DspSaturation : Prop :=
  ∀ s : State, s.cfg.hasDsp = true →
    (∀ rd rx ry, SaturatesWithFlags (.sataddW rd rx ry) s rd 32 ((s.getReg rx).toInt + (s.getReg ry).toInt)) ∧
    (∀ rd rx ry, SaturatesWithFlags (.satsubW (.formI rd rx ry)) s rd 32 ((s.getReg rx).toInt - (s.getReg ry).toInt)) ∧
    (∀ rd rs imm, SaturatesWithFlags (.satsubW (.formII rd rs imm)) s rd 32 ((s.getReg rs).toInt - imm.toInt)) ∧
    (∀ rd rx ry, SaturatesWithFlags (.sataddH rd rx ry) s rd 16
      (((s.getReg rx).setWidth 16).toInt + ((s.getReg ry).setWidth 16).toInt)) ∧
    (∀ rd rx ry, SaturatesWithFlags (.satsubH rd rx ry) s rd 16
      (((s.getReg rx).setWidth 16).toInt - ((s.getReg ry).setWidth 16).toInt)) ∧
    (∀ rd sa bp,
      ClampsTo (.sats rd sa bp) s rd satS bp ((s.getReg rd).toInt / 2 ^ sa.toNat) ∧
      ClampsTo (.satu rd sa bp) s rd satSU bp ((s.getReg rd).toInt / 2 ^ sa.toNat) ∧
      ClampsTo (.satrnds rd sa bp) s rd satS bp (roundedShift (s.getReg rd).toInt sa.toNat) ∧
      ClampsTo (.satrndu rd sa bp) s rd satSU bp (roundedShift (s.getReg rd).toInt sa.toNat)) ∧
    (∀ rd rx xp ry yp, SaturatesTo (.mulsathhH rd rx xp ry yp) s rd 16
      ((half (s.getReg rx) xp).toInt * (half (s.getReg ry) yp).toInt / 2 ^ 15)) ∧
    (∀ rd rx xp ry yp, SaturatesTo (.mulsathhW rd rx xp ry yp) s rd 32
      ((half (s.getReg rx) xp).toInt * (half (s.getReg ry) yp).toInt * 2)) ∧
    (∀ rd rx xp ry yp, SaturatesTo (.mulsatrndhhH rd rx xp ry yp) s rd 16
      (((half (s.getReg rx) xp).toInt * (half (s.getReg ry) yp).toInt + 2 ^ 14) / 2 ^ 15)) ∧
    (∀ rd rx ry yp, SaturatesTo (.mulsatrndwhW rd rx ry yp) s rd 32
      (((s.getReg rx).toInt * (half (s.getReg ry) yp).toInt + 2 ^ 14) / 2 ^ 15)) ∧
    (∀ rd rx ry yp, SaturatesTo (.mulsatwhW rd rx ry yp) s rd 32 ((s.getReg rx).toInt * (half (s.getReg ry) yp).toInt / 2 ^ 15)) ∧
    (∀ rd rx xp ry yp,
      let p := (half (s.getReg rx) xp).toInt * (half (s.getReg ry) yp).toInt * 2
      ∃ v : Word, v.toInt = satS 32 (satS 32 p + (s.getReg rd).toInt) ∧
        Gives (exec (.macsathhW rd rx xp ry yp) s) fun t => Writes (.macsathhW rd rx xp ry yp) s t rd v ∧
          (t.flagQ = true ↔ s.flagQ = true ∨ satS 32 p ≠ p ∨ v.toInt ≠ satS 32 p + (s.getReg rd).toInt))

/-! ## Logic, bits and shifts -/

/-- `i` writes to R`d` the word whose bit `k` is `f k`. -/
def SetsBits (i : Instr) (s : State) (d : RegNo) (f : Nat → Bool) : Prop :=
  ∃ v : Word, (∀ k, k < 32 → v.getLsbD k = f k) ∧ Gives (exec i s) fun t => Writes i s t d v

/-- The same with N the sign of the word and Z whether it is zero. -/
def SetsLogic (i : Instr) (s : State) (d : RegNo) (f : Nat → Bool) : Prop :=
  ∃ v : Word, (∀ k, k < 32 → v.getLsbD k = f k) ∧ Gives (exec i s) fun t =>
    Writes i s t d v ∧ (t.flagN = true ↔ f 31 = true) ∧ (t.flagZ = true ↔ ∀ k, k < 32 → f k = false)

/-- The word with Z whether it is zero. -/
def SetsZero (i : Instr) (s : State) (d : RegNo) (f : Nat → Bool) : Prop :=
  ∃ v : Word, (∀ k, k < 32 → v.getLsbD k = f k) ∧ Gives (exec i s) fun t =>
    Writes i s t d v ∧ (t.flagZ = true ↔ ∀ k, k < 32 → f k = false)

/-- The word with N and C its sign, and Z whether it is zero. -/
def SetsField (i : Instr) (s : State) (d : RegNo) (f : Nat → Bool) : Prop :=
  ∃ v : Word, (∀ k, k < 32 → v.getLsbD k = f k) ∧ Gives (exec i s) fun t =>
    Writes i s t d v ∧ (t.flagN = true ↔ f 31 = true) ∧ (t.flagZ = true ↔ ∀ k, k < 32 → f k = false) ∧ (t.flagC = true ↔ f 31 = true)

/-- The three formats of and, eor and or. -/
def LogicForms (s : State) (mk : LogicForm → Instr) (op : Bool → Bool → Bool) : Prop :=
  (∀ rd rs, SetsLogic (mk (.formI rd rs)) s rd fun k => op ((s.getReg rd).getLsbD k) ((s.getReg rs).getLsbD k)) ∧
  (∀ rd rx ry (sa : BitVec 5), SetsLogic (mk (.formII rd rx ry sa)) s rd fun k =>
    op ((s.getReg rx).getLsbD k) (decide (sa.toNat ≤ k) && (s.getReg ry).getLsbD (k - sa.toNat))) ∧
  (∀ rd rx ry (sa : BitVec 5), SetsLogic (mk (.formIII rd rx ry sa)) s rd fun k =>
    op ((s.getReg rx).getLsbD k) ((s.getReg ry).getLsbD (k + sa.toNat)))

/-- The logic instructions, bit by bit (43_logic_bit.md R601 to R615). -/
def Obligations.LogicBitwise : Prop :=
  ∀ s : State,
    LogicForms s .and and ∧ LogicForms s .eor xor ∧ LogicForms s .or or ∧
    (∀ c rd rx ry, hasRev s.cfg 2 = true → Conditionally (s.cond c) (.andCond c rd rx ry) s
      (SetsBits (.andCond c rd rx ry) s rd fun k => (s.getReg rx).getLsbD k && (s.getReg ry).getLsbD k)) ∧
    (∀ c rd rx ry, hasRev s.cfg 2 = true → Conditionally (s.cond c) (.eorCond c rd rx ry) s
      (SetsBits (.eorCond c rd rx ry) s rd fun k => xor ((s.getReg rx).getLsbD k) ((s.getReg ry).getLsbD k))) ∧
    (∀ c rd rx ry, hasRev s.cfg 2 = true → Conditionally (s.cond c) (.orCond c rd rx ry) s
      (SetsBits (.orCond c rd rx ry) s rd fun k => (s.getReg rx).getLsbD k || (s.getReg ry).getLsbD k)) ∧
    (∀ rd rs, SetsLogic (.andn rd rs) s rd fun k => (s.getReg rd).getLsbD k && !(s.getReg rs).getLsbD k) ∧
    (∀ rd coh (imm : BitVec 16), SetsLogic (.andh rd coh imm) s rd fun k =>
      if k < 16 then decide (coh = 0#1) && (s.getReg rd).getLsbD k else (s.getReg rd).getLsbD k && imm.getLsbD (k - 16)) ∧
    (∀ rd coh (imm : BitVec 16), SetsLogic (.andl rd coh imm) s rd fun k =>
      if k < 16 then (s.getReg rd).getLsbD k && imm.getLsbD k else decide (coh = 0#1) && (s.getReg rd).getLsbD k) ∧
    (∀ rd, SetsZero (.com rd) s rd fun k => !(s.getReg rd).getLsbD k) ∧
    (∀ rd (imm : BitVec 16), SetsLogic (.eorh rd imm) s rd fun k =>
      xor ((s.getReg rd).getLsbD k) (decide (16 ≤ k) && imm.getLsbD (k - 16))) ∧
    (∀ rd (imm : BitVec 16), SetsLogic (.eorl rd imm) s rd fun k => xor ((s.getReg rd).getLsbD k) (imm.getLsbD k)) ∧
    (∀ rd (imm : BitVec 16), SetsLogic (.orh rd imm) s rd fun k => (s.getReg rd).getLsbD k || (decide (16 ≤ k) && imm.getLsbD (k - 16))) ∧
    (∀ rd (imm : BitVec 16), SetsLogic (.orl rd imm) s rd fun k => (s.getReg rd).getLsbD k || imm.getLsbD k) ∧
    (∀ rd rs, Gives (exec (.tst rd rs) s) fun t =>
      (t.flagN = true ↔ (s.getReg rd).getLsbD 31 = true ∧ (s.getReg rs).getLsbD 31 = true) ∧
      (t.flagZ = true ↔ ∀ k, k < 32 → ¬ ((s.getReg rd).getLsbD k = true ∧ (s.getReg rs).getLsbD k = true)))

/-- The bit field instructions where the field lies inside the word, and the single-bit instructions, bit by bit (43_logic_bit.md R630 to R633,
R635, R640 to R642). -/
def Obligations.FieldsAndBits : Prop :=
  ∀ s : State,
    (∀ rd rs (bp wd : BitVec 5), 0 < wd.toNat → bp.toNat + wd.toNat ≤ 32 →
      SetsField (.bfextu rd rs bp wd) s rd (fun k => decide (k < wd.toNat) && (s.getReg rs).getLsbD (bp.toNat + k)) ∧
      SetsField (.bfexts rd rs bp wd) s rd (fun k => (s.getReg rs).getLsbD (bp.toNat + min k (wd.toNat - 1))) ∧
      SetsField (.bfins rd rs bp wd) s rd (fun k =>
        if bp.toNat ≤ k ∧ k < bp.toNat + wd.toNat then (s.getReg rs).getLsbD (k - bp.toNat) else (s.getReg rd).getLsbD k)) ∧
    (∀ rd (bp : BitVec 5), Gives (exec (.bld rd bp) s) fun t =>
      t.flagC = (s.getReg rd).getLsbD bp.toNat ∧ t.flagZ = (s.getReg rd).getLsbD bp.toNat) ∧
    (∀ rd (bp : BitVec 5), SetsBits (.bst rd bp) s rd fun k => if k = bp.toNat then s.flagC else (s.getReg rd).getLsbD k) ∧
    (∀ rd (bp : BitVec 5), SetsZero (.cbr rd bp) s rd fun k => decide (k ≠ bp.toNat) && (s.getReg rd).getLsbD k) ∧
    (∀ rd (bp : BitVec 5), SetsZero (.sbr rd bp) s rd fun k => decide (k = bp.toNat) || (s.getReg rd).getLsbD k) ∧
    (∀ rd rs, ∃ n, n ≤ 32 ∧ (∀ k, k < 32 → 32 - n ≤ k → (s.getReg rs).getLsbD k = false) ∧
      (n < 32 → (s.getReg rs).getLsbD (31 - n) = true) ∧
      Gives (exec (.clz rd rs) s) fun t =>
        Writes (.clz rd rs) s t rd (BitVec.ofNat 32 n) ∧ (t.flagZ = true ↔ n = 0) ∧ (t.flagC = true ↔ n = 32))

/-- The reorderings of bits, bytes and halfwords, and the casts (43_logic_bit.md R634, R636 to R639, R643 to R645). -/
def Obligations.ReorderingsAndCasts : Prop :=
  ∀ (s : State) (rd : RegNo),
    SetsZero (.brev rd) s rd (fun k => (s.getReg rd).getLsbD (31 - k)) ∧
    SetsBits (.swapB rd) s rd (fun k => (s.getReg rd).getLsbD (8 * (3 - k / 8) + k % 8)) ∧
    SetsBits (.swapBh rd) s rd (fun k => (s.getReg rd).getLsbD (16 * (k / 16) + (k % 16 + 8) % 16)) ∧
    SetsBits (.swapH rd) s rd (fun k => (s.getReg rd).getLsbD ((k + 16) % 32)) ∧
    SetsField (.castsB rd) s rd (fun k => (s.getReg rd).getLsbD (min k 7)) ∧
    SetsField (.castsH rd) s rd (fun k => (s.getReg rd).getLsbD (min k 15)) ∧
    SetsField (.castuB rd) s rd (fun k => decide (k < 8) && (s.getReg rd).getLsbD k) ∧
    SetsField (.castuH rd) s rd (fun k => decide (k < 16) && (s.getReg rd).getLsbD k)

/-- The three formats of a shift: `f` gives the result from operand and amount, C is bit `last` of the operand, and 0 for an amount of 0. -/
def ShiftForms (s : State) (mk : ShiftForm → Instr) (f : Word → Nat → Word → Prop) (last : Nat → Nat) : Prop :=
  let shifts (i : Instr) (d : RegNo) (a : Word) (n : Nat) : Prop :=
    ∃ v : Word, f a n v ∧ Gives (exec i s) fun t => Writes i s t d v ∧ (t.flagN = true ↔ v.toInt < 0) ∧ (t.flagZ = true ↔ v = 0#32) ∧
      (t.flagC = true ↔ n ≠ 0 ∧ a.getLsbD (last n) = true)
  (∀ rd rx ry, shifts (mk (.formI rd rx ry)) rd (s.getReg rx) ((s.getReg ry).toNat % 32)) ∧
  (∀ rd (sa : BitVec 5), shifts (mk (.formII rd sa)) rd (s.getReg rd) sa.toNat) ∧
  (∀ rd rs (sa : BitVec 5), shifts (mk (.formIII rd rs sa)) rd (s.getReg rs) sa.toNat)

/-- The shifts as arithmetic, and the rotations through C (44_shift.md R670 to R675). -/
def Obligations.ShiftsExact : Prop :=
  ∀ s : State,
    ShiftForms s .lsl (fun a n v => v.toNat = a.toNat * 2 ^ n % 2 ^ 32) (fun n => 32 - n) ∧
    ShiftForms s .lsr (fun a n v => v.toNat = a.toNat / 2 ^ n) (fun n => n - 1) ∧
    ShiftForms s .asr (fun a n v => v.toInt = a.toInt / 2 ^ n) (fun n => n - 1) ∧
    (∀ rd, SetsLogic (.rol rd) s rd (fun k => if k = 0 then s.flagC else (s.getReg rd).getLsbD (k - 1)) ∧
      Gives (exec (.rol rd) s) fun t => t.flagC = (s.getReg rd).getLsbD 31) ∧
    (∀ rd, SetsLogic (.ror rd) s rd (fun k => if k = 31 then s.flagC else (s.getReg rd).getLsbD (k + 1)) ∧
      Gives (exec (.ror rd) s) fun t => t.flagC = (s.getReg rd).getLsbD 0)

/-! ## Conditions, moves and flow -/

/-- What the sixteen conditions say of the two operands after cp.w (30_encoding.md R370, 40_arithmetic.md R459). -/
def Obligations.ConditionsAfterCompare : Prop :=
  ∀ (s : State) (rd rs : RegNo), Gives (exec (.cpW (.formI rd rs)) s) fun t =>
    let a := s.getReg rd
    let b := s.getReg rs
    (t.cond 0#4 = true ↔ a = b) ∧ (t.cond 1#4 = true ↔ a ≠ b) ∧ (t.cond 2#4 = true ↔ b.toNat ≤ a.toNat) ∧
    (t.cond 3#4 = true ↔ a.toNat < b.toNat) ∧ (t.cond 4#4 = true ↔ b.toInt ≤ a.toInt) ∧ (t.cond 5#4 = true ↔ a.toInt < b.toInt) ∧
    (t.cond 6#4 = true ↔ (a - b).toInt < 0) ∧ (t.cond 7#4 = true ↔ 0 ≤ (a - b).toInt) ∧ (t.cond 8#4 = true ↔ a.toNat ≤ b.toNat) ∧
    (t.cond 9#4 = true ↔ b.toInt < a.toInt) ∧ (t.cond 10#4 = true ↔ a.toInt ≤ b.toInt) ∧ (t.cond 11#4 = true ↔ b.toNat < a.toNat) ∧
    (t.cond 12#4 = true ↔ ¬ fitsSigned 32 (a.toInt - b.toInt)) ∧ (t.cond 13#4 = true ↔ fitsSigned 32 (a.toInt - b.toInt)) ∧
    (t.cond 14#4 = true ↔ s.flagQ = true) ∧ t.cond 15#4 = true

/-- mov, its conditional forms and movh (46_data_transfer.md R741 to R743). -/
def Obligations.Moves : Prop :=
  ∀ s : State,
    (∀ rd imm, SetsTo (.mov (.formI rd imm)) s rd fun v => v.toInt = imm.toInt) ∧
    (∀ rd imm, SetsTo (.mov (.formII rd imm)) s rd fun v => v.toInt = imm.toInt) ∧
    (∀ rd rs, Sets (.mov (.formIII rd rs)) s rd (s.getReg rs)) ∧
    (∀ c rd rs, Conditionally (s.cond c) (.movCond (.formI c rd rs)) s (Sets (.movCond (.formI c rd rs)) s rd (s.getReg rs))) ∧
    (∀ c rd imm, Conditionally (s.cond c) (.movCond (.formII c rd imm)) s
      (SetsTo (.movCond (.formII c rd imm)) s rd fun v => v.toInt = imm.toInt)) ∧
    (∀ rd imm, hasRev s.cfg 2 = true → SetsTo (.movh rd imm) s rd fun v => v.toNat = imm.toNat * 2 ^ 16)

/-- musfr, mustr, sr{cond4} and nop with their encodings, and all they leave unchanged (48_system_coprocessor_java.md R917 to R919, R927). -/
def Obligations.FlagMovesAndNop : Prop :=
  (∀ rs : RegNo, decodeCode (.half (0b010111010011#12 ++ rs)) = some (.musfr rs)) ∧
  (∀ rd : RegNo, decodeCode (.half (0b010111010010#12 ++ rd)) = some (.mustr rd)) ∧
  (∀ (c : Cond) (rd : RegNo), decodeCode (.half (0b01011111#8 ++ c ++ rd)) = some (.srCond c rd)) ∧
  decodeCode (.half 0xD703#16) = some .nop ∧
  ∀ s : State,
    (∀ rs, Gives (exec (.musfr rs) s) fun t =>
      t.flagV = (s.getReg rs).getLsbD 3 ∧ t.flagN = (s.getReg rs).getLsbD 2 ∧ t.flagZ = (s.getReg rs).getLsbD 1 ∧
      t.flagC = (s.getReg rs).getLsbD 0 ∧ t.pc = s.pc + 2#32 ∧
      SameRegs s t [] ∧ SameSr s t [3, 2, 1, 0] ∧ SameMem s t ∧ SameSystem s t) ∧
    (∀ rd, ∃ v : Word, (∀ k, k < 32 → v.getLsbD k = (decide (k < 4) && s.srBit k)) ∧ Gives (exec (.mustr rd) s) fun t =>
      Writes (.mustr rd) s t rd v ∧ SameRegs s t [rd] ∧ SameSr s t [] ∧ SameMem s t ∧ SameSystem s t) ∧
    (∀ c rd, Gives (exec (.srCond c rd) s) fun t =>
      Writes (.srCond c rd) s t rd (if s.cond c then 1#32 else 0#32) ∧
      SameRegs s t [rd] ∧ SameSr s t [] ∧ SameMem s t ∧ SameSystem s t) ∧
    exec .nop s = .next { s with pc := s.pc + 2#32 }

/-- The PC is at `target` (its bit 0 discarded), and the instruction has changed nothing else. -/
def GoesTo (s t : State) (target : Word) : Prop :=
  t.pc = target &&& 0xFFFFFFFE#32 ∧ SameRegs s t [] ∧ SameSr s t [] ∧ SameMem s t ∧ SameSystem s t

/-- Branches and relative jumps: a displacement in halfwords from the instruction itself (45_flow.md R701, R705). -/
def Obligations.Branches : Prop :=
  ∀ s : State, s.pc.getLsbD 0 = false →
    (∀ c disp, Gives (exec (.brCond3 c disp) s) fun t =>
      GoesTo s t (if s.cond (c.setWidth 4) then s.pc + BitVec.ofInt 32 (2 * disp.toInt) else s.pc + 2#32)) ∧
    (∀ c disp, Gives (exec (.brCond4 c disp) s) fun t =>
      GoesTo s t (if s.cond c then s.pc + BitVec.ofInt 32 (2 * disp.toInt) else s.pc + 4#32)) ∧
    (∀ disp, Gives (exec (.rjmp disp) s) fun t => GoesTo s t (s.pc + BitVec.ofInt 32 (2 * disp.toInt)))

/-- The call `i` has gone to `target`, with the address after it in LR; `s1` is `s` with what the checks of its access leave. -/
def Called (i : Instr) (s s1 t : State) (target : Word) : Prop :=
  t.pc = target &&& 0xFFFFFFFE#32 ∧ t.getReg 14#4 = s.after i ∧ LoadFrame s s1 t [14#4]

/-- The calls, direct and through memory, and the conditional return with its value and its test (45_flow.md R700, R702 to R704, R716). -/
def Obligations.CallsAndReturns : Prop :=
  ∀ s : State,
    (∀ disp, Gives (exec (.rcall (.formI disp)) s) fun t =>
      Called (.rcall (.formI disp)) s s t (s.pc + BitVec.ofInt 32 (2 * disp.toInt))) ∧
    (∀ disp, Gives (exec (.rcall (.formII disp)) s) fun t =>
      Called (.rcall (.formII disp)) s s t (s.pc + BitVec.ofInt 32 (2 * disp.toInt))) ∧
    (∀ rd, Gives (exec (.icall rd) s) fun t => Called (.icall rd) s s t (s.getReg rd)) ∧
    (∀ disp bs s1, Reads s .acall 4 (s.ctl.acba + (zext disp <<< 2)) bs s1 →
      Gives (exec (.acall disp) s) fun t => Called (.acall disp) s s1 t (wordOfBytes bs)) ∧
    (∀ rp disp bs s1, Reads s .mcall 4 (s.wordBase rp + (sext disp <<< 2)) bs s1 →
      Gives (exec (.mcall rp disp) s) fun t => Called (.mcall rp disp) s s1 t (wordOfBytes bs)) ∧
    (∀ c rs,
      let v := if rs = 14#4 then 0xFFFFFFFF#32 else if rs = 13#4 then 0#32 else if rs = 15#4 then 1#32 else s.getReg rs
      Conditionally (s.cond c) (.retCond c rs) s (Gives (exec (.retCond c rs) s) fun t =>
        t.pc = s.getReg 14#4 &&& 0xFFFFFFFE#32 ∧ t.getReg 12#4 = v ∧ Flags t False (v.toInt < 0) (v = 0#32) False ∧
        SameRegs s t [12#4] ∧ SameSr s t [3, 2, 1, 0] ∧ SameMem s t ∧ SameSystem s t))

/-! ## Loads and stores -/

/-- The word at `a`. -/
def wordAt (s : State) (a : Word) : Word := wordOfBytes (readBytes s.mem a 4)

/-- Every load of a byte, a halfword or a word without a moved pointer: the address of its form, the big-endian value extended, inserted or
swapped as it says, in every form; a conditional form whose condition fails does nothing (46_data_transfer.md R750 to R767). A misaligned access
that the implementation makes byte by byte is taken with no other agent between the bytes (`Reads`). -/
def Obligations.SingleLoads : Prop :=
  ∀ s : State,
    (∀ rd rp disp, Loads (.ldUb (.formIII rd rp disp)) s .byte 1 (s.dispZ rp disp 0) rd wordOfBytes) ∧
    (∀ rd rp disp, Loads (.ldUb (.formIV rd rp disp)) s .byte 1 (s.dispS rp disp 0) rd wordOfBytes) ∧
    (∀ rd rb ri sa, Loads (.ldUb (.formV rd rb ri sa)) s .byte 1 (s.indexed rb ri sa) rd wordOfBytes) ∧
    (∀ rd rp disp, Loads (.ldSb (.formI rd rp disp)) s .byte 1 (s.dispS rp disp 0) rd
      fun bs => ((wordOfBytes bs).setWidth 8).signExtend 32) ∧
    (∀ rd rb ri sa, Loads (.ldSb (.formII rd rb ri sa)) s .byte 1 (s.indexed rb ri sa) rd
      fun bs => ((wordOfBytes bs).setWidth 8).signExtend 32) ∧
    (∀ rd rp disp, Loads (.ldUh (.formIII rd rp disp)) s .ldUh 2 (s.dispZ rp disp 1) rd wordOfBytes) ∧
    (∀ rd rp disp, Loads (.ldUh (.formIV rd rp disp)) s .ldUh 2 (s.dispS rp disp 0) rd wordOfBytes) ∧
    (∀ rd rb ri sa, Loads (.ldUh (.formV rd rb ri sa)) s .ldUh 2 (s.indexed rb ri sa) rd wordOfBytes) ∧
    (∀ rd rp disp, Loads (.ldSh (.formIII rd rp disp)) s .ldSh 2 (s.dispZ rp disp 1) rd
      fun bs => ((wordOfBytes bs).setWidth 16).signExtend 32) ∧
    (∀ rd rp disp, Loads (.ldSh (.formIV rd rp disp)) s .ldSh 2 (s.dispS rp disp 0) rd
      fun bs => ((wordOfBytes bs).setWidth 16).signExtend 32) ∧
    (∀ rd rb ri sa, Loads (.ldSh (.formV rd rb ri sa)) s .ldSh 2 (s.indexed rb ri sa) rd
      fun bs => ((wordOfBytes bs).setWidth 16).signExtend 32) ∧
    (∀ rd rp disp, Loads (.ldW (.formIII rd rp disp)) s .ldW 4 (s.dispZ rp disp 2) rd wordOfBytes) ∧
    (∀ rd rp disp, Loads (.ldW (.formIV rd rp disp)) s .ldW 4 (s.dispS rp disp 0) rd wordOfBytes) ∧
    (∀ rd rb ri sa, Loads (.ldW (.formV rd rb ri sa)) s .ldW 4 (s.indexed rb ri sa) rd wordOfBytes) ∧
    (∀ rd (xp yp : BitVec 1) rb ri, Loads (.ldW (.formVI rd xp yp rb ri)) s .ldW 4
      (s.getReg rb + (((s.getReg ri).extractLsb' (8 * (xp ++ yp).toNat) 8).setWidth 32 <<< 2)) rd wordOfBytes) ∧
    (∀ rd rp (part : BitVec 2) disp, Loads (.ldinsB rd rp part disp) s .byte 1 (s.dispS rp disp 0) rd
      fun bs => insertField (s.getReg rd) (8 * part.toNat) 8 (wordOfBytes bs)) ∧
    (∀ rd rp (part : BitVec 1) disp, Loads (.ldinsH rd rp part disp) s .ldinsH 2 (s.dispS rp disp 1) rd
      fun bs => insertField (s.getReg rd) (16 * part.toNat) 16 (wordOfBytes bs)) ∧
    (∀ rd rp disp, Loads (.ldswpSh rd rp disp) s .ldswpSh 2 (s.dispS rp disp 1) rd
      fun bs => ((wordOfBytes bs.reverse).setWidth 16).signExtend 32) ∧
    (∀ rd rp disp, Loads (.ldswpUh rd rp disp) s .ldswpUh 2 (s.dispS rp disp 1) rd fun bs => wordOfBytes bs.reverse) ∧
    (∀ rd rp disp, Loads (.ldswpW rd rp disp) s .ldswpW 4 (s.dispS rp disp 2) rd fun bs => wordOfBytes bs.reverse) ∧
    (∀ rd (disp : BitVec 7), Loads (.lddpc rd disp) s .lddpc 4 ((s.pc &&& 0xFFFFFFFC#32) + (disp.setWidth 32 <<< 2)) rd wordOfBytes) ∧
    (∀ rd (disp : BitVec 7), Loads (.lddsp rd disp) s .lddsp 4 ((s.getReg 13#4 &&& 0xFFFFFFFC#32) + (disp.setWidth 32 <<< 2)) rd
      wordOfBytes) ∧
    (∀ c rd rp disp, hasRev s.cfg 2 = true →
      Conditionally (s.cond c) (.ldUbCond c rd rp disp) s
        (Loads (.ldUbCond c rd rp disp) s .byte 1 (s.dispZ rp disp 0) rd wordOfBytes) ∧
      Conditionally (s.cond c) (.ldSbCond c rd rp disp) s
        (Loads (.ldSbCond c rd rp disp) s .byte 1 (s.dispZ rp disp 0) rd fun bs => ((wordOfBytes bs).setWidth 8).signExtend 32) ∧
      Conditionally (s.cond c) (.ldUhCond c rd rp disp) s
        (Loads (.ldUhCond c rd rp disp) s .ldUhCond 2 (s.dispZ rp disp 1) rd wordOfBytes) ∧
      Conditionally (s.cond c) (.ldShCond c rd rp disp) s
        (Loads (.ldShCond c rd rp disp) s .ldShCond 2 (s.dispZ rp disp 1) rd fun bs => ((wordOfBytes bs).setWidth 16).signExtend 32) ∧
      Conditionally (s.cond c) (.ldWCond c rd rp disp) s
        (Loads (.ldWCond c rd rp disp) s .ldWCond 4 (s.dispZ rp disp 2) rd wordOfBytes))

/-- The loads that move their pointer, after the access or before it, and the doubleword loads (46_data_transfer.md R745, R750, R754, R756, R758,
R760). An access of several transfers is taken with no other agent between them (`Reads`); and whatever other agents do between the two words of an aligned ld.d, on a machine of physical addresses the odd register is the word at the
lower address before they act, the even one the word above it after they have, and they act once (20_memory.md R208). -/
def Obligations.PointerAndDoubleLoads : Prop :=
  ∀ (s : State) (rd rp : RegNo),
    (evenNo rd = true → Direct s → (s.getReg rp).toNat % 4 = 0 → Backed s (s.getReg rp) 8 →
      Gives (exec (.ldD (.formIII rd rp)) s) fun t =>
        WritesPair (.ldD (.formIII rd rp)) s t rd (wordAt s (s.getReg rp) ++ wordAt s.busTurn (s.getReg rp + 4#32)) ∧
        t.mem = s.busTurn.mem ∧ SameRegs s t [rd, rd + 1#4] ∧ SameSr s t [] ∧ SameSystem s.busTurn t) ∧
    LoadsMoving (.ldUb (.formI rd rp)) s .byte 1 (s.getReg rp) rd rp (s.getReg rp + 1#32) wordOfBytes ∧
    LoadsMoving (.ldUb (.formII rd rp)) s .byte 1 (s.getReg rp - 1#32) rd rp (s.getReg rp - 1#32) wordOfBytes ∧
    LoadsMoving (.ldUh (.formI rd rp)) s .ldUh 2 (s.getReg rp) rd rp (s.getReg rp + 2#32) wordOfBytes ∧
    LoadsMoving (.ldUh (.formII rd rp)) s .ldUh 2 (s.getReg rp - 2#32) rd rp (s.getReg rp - 2#32) wordOfBytes ∧
    LoadsMoving (.ldSh (.formI rd rp)) s .ldSh 2 (s.getReg rp) rd rp (s.getReg rp + 2#32)
      (fun bs => ((wordOfBytes bs).setWidth 16).signExtend 32) ∧
    LoadsMoving (.ldSh (.formII rd rp)) s .ldSh 2 (s.getReg rp - 2#32) rd rp (s.getReg rp - 2#32)
      (fun bs => ((wordOfBytes bs).setWidth 16).signExtend 32) ∧
    LoadsMoving (.ldW (.formI rd rp)) s .ldW 4 (s.getReg rp) rd rp (s.getReg rp + 4#32) wordOfBytes ∧
    LoadsMoving (.ldW (.formII rd rp)) s .ldW 4 (s.getReg rp - 4#32) rd rp (s.getReg rp - 4#32) wordOfBytes ∧
    LoadsPairMoving (.ldD (.formI rd rp)) s .ldD (s.getReg rp) rd rp (s.getReg rp + 8#32) ∧
    LoadsPairMoving (.ldD (.formII rd rp)) s .ldD (s.getReg rp - 8#32) rd rp (s.getReg rp - 8#32) ∧
    LoadsPair (.ldD (.formIII rd rp)) s .ldD (s.getReg rp) rd ∧
    (∀ disp, LoadsPair (.ldD (.formIV rd rp disp)) s .ldD (s.dispS rp disp 0) rd) ∧
    (∀ ri sa, LoadsPair (.ldD (.formV rd rp ri sa)) s .ldD (s.indexed rp ri sa) rd)

/-- Every store without a moved pointer: the big-endian bytes of the register, or those its rule assembles, and no others; a conditional form
whose condition fails stores nothing, and stcond stores where L is set and reports L in Z (47_data_transfer_stores_multiple.md R811 to R821,
R846). A misaligned access that the implementation makes byte by byte is taken with no other agent between the bytes (`Reaches`). -/
def Obligations.SingleStores : Prop :=
  ∀ s : State,
    (∀ rp rs disp, Stores (.stB (.formIII rp rs disp)) s .byte (s.dispZ rp disp 0) (bytesOfWord (s.getReg rs) 1)) ∧
    (∀ rp rs disp, Stores (.stB (.formIV rp rs disp)) s .byte (s.dispS rp disp 0) (bytesOfWord (s.getReg rs) 1)) ∧
    (∀ rb ri rs sa, Stores (.stB (.formV rb ri rs sa)) s .byte (s.indexed rb ri sa) (bytesOfWord (s.getReg rs) 1)) ∧
    (∀ rp rs disp, Stores (.stH (.formIII rp rs disp)) s .stH (s.dispZ rp disp 1) (bytesOfWord (s.getReg rs) 2)) ∧
    (∀ rp rs disp, Stores (.stH (.formIV rp rs disp)) s .stH (s.dispS rp disp 0) (bytesOfWord (s.getReg rs) 2)) ∧
    (∀ rb ri rs sa, Stores (.stH (.formV rb ri rs sa)) s .stH (s.indexed rb ri sa) (bytesOfWord (s.getReg rs) 2)) ∧
    (∀ rp rs disp, Stores (.stW (.formIII rp rs disp)) s .stW (s.dispZ rp disp 2) (bytesOfWord (s.getReg rs) 4)) ∧
    (∀ rp rs disp, Stores (.stW (.formIV rp rs disp)) s .stW (s.dispS rp disp 0) (bytesOfWord (s.getReg rs) 4)) ∧
    (∀ rb ri rs sa, Stores (.stW (.formV rb ri rs sa)) s .stW (s.indexed rb ri sa) (bytesOfWord (s.getReg rs) 4)) ∧
    (∀ rs (disp : BitVec 7), Stores (.stdsp rs disp) s .stdsp ((s.getReg 13#4 &&& 0xFFFFFFFC#32) + (disp.setWidth 32 <<< 2))
      (bytesOfWord (s.getReg rs) 4)) ∧
    (∀ rx xp ry yp rp disp, Stores (.sthhW (.formI rx xp ry yp rp disp)) s .sthhW (s.dispZ rp disp 2)
      (bytesOfWord (half (s.getReg rx) xp) 2 ++ bytesOfWord (half (s.getReg ry) yp) 2)) ∧
    (∀ rx xp ry yp rb ri sa, Stores (.sthhW (.formII rx xp ry yp rb ri sa)) s .sthhW (s.indexed rb ri sa)
      (bytesOfWord (half (s.getReg rx) xp) 2 ++ bytesOfWord (half (s.getReg ry) yp) 2)) ∧
    (∀ rp rs disp, Stores (.stswpH rp rs disp) s .stswpH (s.dispS rp disp 1) (bytesOfWord (s.getReg rs) 2).reverse) ∧
    (∀ rp rs disp, Stores (.stswpW rp rs disp) s .stswpW (s.dispS rp disp 2) (bytesOfWord (s.getReg rs) 4).reverse) ∧
    (∀ c rp rs disp, hasRev s.cfg 2 = true →
      Conditionally (s.cond c) (.stBCond c rp rs disp) s
        (Stores (.stBCond c rp rs disp) s .byte (s.dispZ rp disp 0) (bytesOfWord (s.getReg rs) 1)) ∧
      Conditionally (s.cond c) (.stHCond c rp rs disp) s
        (Stores (.stHCond c rp rs disp) s .stHCond (s.dispZ rp disp 1) (bytesOfWord (s.getReg rs) 2)) ∧
      Conditionally (s.cond c) (.stWCond c rp rs disp) s
        (Stores (.stWCond c rp rs disp) s .stWCond (s.dispZ rp disp 2) (bytesOfWord (s.getReg rs) 4))) ∧
    (∀ rp rs disp, s.flagL = true → ∀ ps s1, Reaches s .stcond 4 (s.dispS rp disp 0) ps s1 →
      Gives (exec (.stcond rp rs disp) s) fun t =>
        t.mem = writeTransfers s.mem ps (bytesOfWord (s.getReg rs) 4) ∧ (Memory.wf s.mem = true → SameMemBut s t ps) ∧ t.flagZ = true ∧
        t.pc = s.after (.stcond rp rs disp) ∧ OnlyChecked s s1 ∧ SameRegs s t [] ∧ SameSr s t [1] ∧ SameSystem s1 t) ∧
    (∀ rp rs disp, s.flagL = false → Gives (exec (.stcond rp rs disp) s) fun t =>
      t.flagZ = false ∧ t.pc = s.after (.stcond rp rs disp) ∧ SameRegs s t [] ∧ SameSr s t [1] ∧ SameMem s t ∧ SameSystem s t)

/-- The stores that move their pointer, and the doubleword stores, whose word at the lower address is the odd register
(47_data_transfer_stores_multiple.md R811, R813, R814, R816, R822). An access of several transfers is taken with no other agent between them
(`Reaches`); and whatever other agents do between the two words of an aligned st.d, on a machine of physical addresses, they find the word at the lower address stored and the one above it not yet (20_memory.md R208). -/
def Obligations.PointerAndDoubleStores : Prop :=
  ∀ (s : State) (rp rs : RegNo),
    (evenNo rs = true → Direct s → (s.getReg rp).toNat % 4 = 0 → Backed s (s.getReg rp) 8 →
      let u := State.busTurn { s with mem := writeBytes s.mem (s.getReg rp) (bytesOfWord (s.getReg (rs + 1#4)) 4) }
      Gives (exec (.stD (.formIII rp rs)) s) fun t =>
        t.mem = writeBytes u.mem (s.getReg rp + 4#32) (bytesOfWord (s.getReg rs) 4) ∧ SameRegs s t [] ∧ SameSr s t [] ∧
        t.pc = s.after (.stD (.formIII rp rs)) ∧ SameSystem u t) ∧
    (rp ≠ rs →
      StoresMoving (.stB (.formI rp rs)) s .byte (s.getReg rp) (bytesOfWord (s.getReg rs) 1) rp (s.getReg rp + 1#32) ∧
      StoresMoving (.stB (.formII rp rs)) s .byte (s.getReg rp - 1#32) (bytesOfWord (s.getReg rs) 1) rp (s.getReg rp - 1#32) ∧
      StoresMoving (.stH (.formI rp rs)) s .stH (s.getReg rp) (bytesOfWord (s.getReg rs) 2) rp (s.getReg rp + 2#32) ∧
      StoresMoving (.stH (.formII rp rs)) s .stH (s.getReg rp - 2#32) (bytesOfWord (s.getReg rs) 2) rp (s.getReg rp - 2#32) ∧
      StoresMoving (.stW (.formI rp rs)) s .stW (s.getReg rp) (bytesOfWord (s.getReg rs) 4) rp (s.getReg rp + 4#32) ∧
      StoresMoving (.stW (.formII rp rs)) s .stW (s.getReg rp - 4#32) (bytesOfWord (s.getReg rs) 4) rp (s.getReg rp - 4#32)) ∧
    StoresAnything (.stB (.formI rp rp)) s (s.drawFree 2) .byte 1 (s.getReg rp) rp ∧
    StoresAnything (.stB (.formII rp rp)) s (s.drawFree 2) .byte 1 (s.getReg rp - 1#32) rp ∧
    StoresAnything (.stH (.formI rp rp)) s (s.drawFree 2) .stH 2 (s.getReg rp) rp ∧
    StoresAnything (.stH (.formII rp rp)) s (s.drawFree 2) .stH 2 (s.getReg rp - 2#32) rp ∧
    StoresAnything (.stW (.formI rp rp)) s (s.drawFree 2) .stW 4 (s.getReg rp) rp ∧
    StoresAnything (.stW (.formII rp rp)) s (s.drawFree 2) .stW 4 (s.getReg rp - 4#32) rp ∧
    (evenNo rs = true → rp ≠ rs → rp ≠ rs + 1#4 →
      StoresMoving (.stD (.formI rp rs)) s .stD (s.getReg rp) (bytesOfWord (s.getReg (rs + 1#4)) 4 ++ bytesOfWord (s.getReg rs) 4) rp
        (s.getReg rp + 8#32) ∧
      StoresMoving (.stD (.formII rp rs)) s .stD (s.getReg rp - 8#32) (bytesOfWord (s.getReg (rs + 1#4)) 4 ++ bytesOfWord (s.getReg rs) 4) rp
        (s.getReg rp - 8#32)) ∧
    (rp = rs ∨ rp = rs + 1#4 →
      StoresAnything (.stD (.formI rp rs)) s (s.drawFree 3) .stD 8 (s.getReg rp) rp ∧
      StoresAnything (.stD (.formII rp rs)) s (s.drawFree 3) .stD 8 (s.getReg rp - 8#32) rp) ∧
    (evenNo rs = true →
      Stores (.stD (.formIII rp rs)) s .stD (s.getReg rp) (bytesOfWord (s.getReg (rs + 1#4)) 4 ++ bytesOfWord (s.getReg rs) 4) ∧
      (∀ disp, Stores (.stD (.formIV rp rs disp)) s .stD (s.dispS rp disp 0)
        (bytesOfWord (s.getReg (rs + 1#4)) 4 ++ bytesOfWord (s.getReg rs) 4)) ∧
      (∀ ri sa, Stores (.stD (.formV rp ri rs sa)) s .stD (s.indexed rp ri sa)
        (bytesOfWord (s.getReg (rs + 1#4)) 4 ++ bytesOfWord (s.getReg rs) 4))) ∧
    (evenNo rs = false → ∀ ri sa ps s1, Reaches (s.drawFree 2) .stD 8 (s.indexed rp ri sa) ps s1 →
      Gives (exec (.stD (.formV rp ri rs sa)) s) fun t =>
        (∃ bytes, bytes.length = 8 ∧ t.mem = writeTransfers s.mem ps bytes) ∧ StoreFrame s s1 t [] ps)

/-- memc, mems, memt and xchg: one word read and written back (49_simd_rmw.md R1034 to R1037, R1040). -/
def Obligations.ReadModifyWrite : Prop :=
  ∀ (s : State) (w : Word) (ws : List (Word × Nat)) (s2 : State),
    (∀ (bp : BitVec 5) imm, s.cfg.hasRmw = true →
      (Swaps s .memc (rmwAddress imm) w ws s2 → ∃ v : Word, (∀ k, k < 32 → v.getLsbD k = (decide (k ≠ bp.toNat) && w.getLsbD k)) ∧
        Gives (exec (.memc bp imm) s) fun t =>
          t.mem = writeTransfers s.mem ws (bytesOfWord v 4) ∧ StoreFrame s s2 t [] ws ∧ t.pc = s.pc + 4#32) ∧
      (Swaps s .mems (rmwAddress imm) w ws s2 → ∃ v : Word, (∀ k, k < 32 → v.getLsbD k = (decide (k = bp.toNat) || w.getLsbD k)) ∧
        Gives (exec (.mems bp imm) s) fun t =>
          t.mem = writeTransfers s.mem ws (bytesOfWord v 4) ∧ StoreFrame s s2 t [] ws ∧ t.pc = s.pc + 4#32) ∧
      (Swaps s .memt (rmwAddress imm) w ws s2 → ∃ v : Word, (∀ k, k < 32 → v.getLsbD k = (decide (k = bp.toNat) != w.getLsbD k)) ∧
        Gives (exec (.memt bp imm) s) fun t =>
          t.mem = writeTransfers s.mem ws (bytesOfWord v 4) ∧ StoreFrame s s2 t [] ws ∧ t.pc = s.pc + 4#32)) ∧
    (∀ rd rx ry, rd ≠ 15#4 → rx ≠ 15#4 → ry ≠ 15#4 → rd ≠ rx → rd ≠ ry → Swaps s .xchg (s.getReg rx) w ws s2 →
      Gives (exec (.xchg rd rx ry) s) fun t =>
        t.mem = writeTransfers s.mem ws (bytesOfWord (s.getReg ry) 4) ∧ StoreFrame s s2 t [rd] ws ∧ t.getReg rd = w ∧ t.pc = s.pc + 4#32) ∧
    (∀ rd rx ry, xchgUndefined rd rx ry = true → Swaps (s.drawFree 2) .xchg (s.getReg rx) w ws s2 →
      Gives (exec (.xchg rd rx ry) s) fun t =>
        (∃ bytes, bytes.length = 4 ∧ t.mem = writeTransfers s.mem ws bytes) ∧ StoreFrame s s2 t [rd] ws)

/-- A pop has ended: each register of `regs` holds its word, the pointer and R12 what `ptr` and `r12` say, and with R15 among them the PC holds
its word and the flags are those of a test of the final R12 (47_data_transfer_stores_multiple.md R851, R862, R866). -/
def Popped (i : Instr) (s s1 t : State) (regs : List (RegNo × Word)) (ptr : Option (RegNo × Word)) (r12 : Option Word) : Prop :=
  let tested := t.getReg 12#4
  (∀ p ∈ regs, p.1 ≠ 15#4 → (∀ q, ptr = some q → p.1 ≠ q.1) → t.getReg p.1 = p.2) ∧
  (∀ q, ptr = some q → t.getReg q.1 = q.2) ∧ (∀ v, r12 = some v → t.getReg 12#4 = v) ∧
  t.pc = ((regs.lookup 15#4).map (· &&& 0xFFFFFFFE#32)).getD (s.after i) ∧
  (if (regs.lookup 15#4).isSome then Flags t False (tested.toInt < 0) (tested = 0#32) False ∧ SameSr s t [3, 2, 1, 0] else SameSr s t []) ∧
  SameRegs s t (regs.map Prod.fst ++ (ptr.map Prod.fst).toList ++ (if r12.isSome then [12#4] else [])) ∧ SameMem s t ∧ SameSystem s1 t

/-- The value that the R12 option of popm and ldm encodes in the bits of LR and R12. -/
def optionValue (list : BitVec 16) : Word :=
  if list.getLsbD 14 then 0xFFFFFFFF#32 else if list.getLsbD 12 then 1#32 else 0#32

/-- The register that number `i` names in the application context (10_state.md R108). -/
def appReg (i : RegNo) : PhysReg := if i = 13#4 then .spApp else .bank .shared i

/-- popm, ldm and ldmts: the highest register from the lowest address, then the pointer; an empty list leaves any value in the registers that the
instruction could write, the pointer among them, and all else as it was (47_data_transfer_stores_multiple.md R850, R862, R866, R870). That R12 is
tested after the pointer has moved follows R851, where the order of R866 could be read otherwise, notes/assumptions/37.md. The words are
read with no other agent between them (`ReadsAll`); and whatever other agents do between the words of an ldm, on a machine of physical addresses, each register holds its word as it is when its turn comes (20_memory.md
R208). -/
def Obligations.MultipleLoads : Prop :=
  ∀ s : State,
    (∀ rp list, list ≠ 0#16 → list.getLsbD 15 = false → Direct s → (s.getReg rp).toNat % 4 = 0 →
      Backed s (s.getReg rp) (4 * (listAscending list).length) → Gives (exec (.ldm rp 0#1 list) s) fun t =>
        (∀ p ∈ (listAscending list).reverse.zipIdx, t.getReg p.1 = s.wordInTurn (s.getReg rp) p.2) ∧
        t.mem = (s.turns ((listAscending list).length - 1)).mem ∧ SameRegs s t (listAscending list) ∧ SameSr s t [] ∧
        t.pc = s.after (.ldm rp 0#1 list)) ∧
    (∀ k list vs s1, list ≠ 0#8 →
      let l := reglist8 list
      let option := k = 1#1 ∧ list.getLsbD 7 = true
      let l1 := if option then l &&& 0xAFFF#16 else l
      let n := (listAscending l1).length
      ReadsAll .popm (wordsFrom (s.getReg 13#4) n) s vs s1 →
      Gives (exec (.popm k list) s) fun t =>
        Popped (.popm k list) s s1 t ((listAscending l1).reverse.zip vs) (some (13#4, s.getReg 13#4 + BitVec.ofNat 32 (4 * n)))
          (if option then some (optionValue l) else none)) ∧
    (∀ rp wb list vs s1, list ≠ 0#16 → ¬ (rp = 15#4 ∧ list.getLsbD 15 = true) →
      ReadsAll .ldm (wordsFrom (s.getReg rp) (listAscending list).length) s vs s1 →
      Gives (exec (.ldm rp wb list) s) fun t =>
        ∃ v, Popped (.ldm rp wb list) s s1 t ((listAscending list).reverse.zip vs)
          (if wb = 1#1 then some (if rp = 15#4 then 13#4 else rp, v) else none) none ∧
          (list.getLsbD rp.toNat = false ∨ rp = 15#4 → v = s.getReg rp + BitVec.ofNat 32 (4 * (listAscending list).length))) ∧
    (∀ wb list vs s1, list.getLsbD 15 = true →
      let l1 := list &&& 0x8FFF#16
      ReadsAll .ldm (wordsFrom (s.getReg 13#4) (listAscending l1).length) s vs s1 →
      Gives (exec (.ldm 15#4 wb list) s) fun t =>
        Popped (.ldm 15#4 wb list) s s1 t ((listAscending l1).reverse.zip vs)
          (if wb = 1#1 then some (13#4, s.getReg 13#4 + BitVec.ofNat 32 (4 * (listAscending l1).length)) else none)
          (some (optionValue list))) ∧
    (∀ rp wb list vs s1, list ≠ 0#16 → ReadsAll .ldmts (wordsFrom (s.getReg rp) (listAscending list).length) s vs s1 →
      Gives (exec (.ldmts rp wb list) s) fun t =>
        (list.getLsbD 15 = false → ∀ q ∈ (listAscending list).reverse.zip vs, (wb = 1#1 → appReg q.1 ≠ s.phys rp) →
          t.readPhys (appReg q.1) = q.2) ∧
        (list.getLsbD 15 = false → wb = 1#1 → rp ≠ 15#4 →
          t.getReg rp = s.getReg rp + BitVec.ofNat 32 (4 * (listAscending list).length)) ∧
        (∀ p : PhysReg, p.Real → p ≠ .pc → (∀ i ∈ listAscending list, p ≠ appReg i) → (wb = 1#1 → p ≠ s.phys rp) →
          t.readPhys p = s.readPhys p) ∧
        (wb = 0#1 ∨ rp ≠ 15#4 → t.pc = s.pc + 4#32) ∧ SameSr s t [] ∧ SameMem s t ∧ SameSystem s1 t) ∧
    (∀ k, Gives (exec (.popm k 0#8) s) fun t => SameRegs s t (listAscending 0xFFFF#16) ∧ SameSr s t [] ∧ SameMem s t ∧ SameSystem s t) ∧
    (∀ rp wb, Gives (exec (.ldm rp wb 0#16) s) fun t =>
      SameRegs s t (listAscending 0xFFFF#16) ∧ SameSr s t [] ∧ SameMem s t ∧ SameSystem s t) ∧
    (∀ rp wb, Gives (exec (.ldmts rp wb 0#16) s) fun t =>
      (∀ p : PhysReg, p.Real → p ≠ .pc → (∀ i, i ≠ 15#4 → p ≠ appReg i) → p ≠ s.phys rp → t.readPhys p = s.readPhys p) ∧
      (rp ≠ 15#4 → t.pc = s.pc + 4#32) ∧ SameSr s t [] ∧ SameMem s t ∧ SameSystem s t)

/-- A push has ended: the words of `ws` lie at their addresses, and nothing else has changed but the registers `ds` and the PC. -/
def Pushed (i : Instr) (kind : LsKind) (s s0 : State) (ws : List (Word × Word)) (ds : List RegNo) (P : State → Prop) : Prop :=
  ∀ ps s1, ReachesAll kind ws s0 ps s1 → Gives (exec i s) fun t =>
    t.mem = s1.mem ∧ (Memory.wf s.mem = true → SameMemBut s t ps) ∧ SameRegs s t ds ∧ SameSr s t [] ∧ SameSystem s1 t ∧ P t

/-- The words that a list of registers stores: with write-back downwards below `a`, the lowest register first; without it upwards from `a`, the
highest register first (47_data_transfer_stores_multiple.md R868, R872). -/
def listStores (a : Word) (wb : BitVec 1) (list : BitVec 16) (value : RegNo → Word) : List (Word × Word) :=
  let regs := if wb = 1#1 then listAscending list else (listAscending list).reverse
  regs.zipIdx.map fun p =>
    (if wb = 1#1 then a - BitVec.ofNat 32 (4 * (p.2 + 1)) else a + BitVec.ofNat 32 (4 * p.2), value p.1)

/-- The machine after word stores with the other agents' turns between them. -/
def StoredInTurn (s : State) : List (Word × Word) → State
  | [] => s
  | [(a, v)] => { s with mem := writeBytes s.mem a (bytesOfWord v 4) }
  | (a, v) :: w :: ws => StoredInTurn (State.busTurn { s with mem := writeBytes s.mem a (bytesOfWord v 4) }) (w :: ws)

/-- pushm, stm and stmts: the lowest register at the highest address, the pointer moved only with write-back; an empty list leaves any
value in the pointer, with write-back or without, and all else as it was (47_data_transfer_stores_multiple.md R850, R860, R868, R872). The
words are written with no other agent between them (`ReachesAll`); and whatever other agents do between the words of an stm, on a machine of physical
addresses, they find the words before stored and the ones behind not yet
(20_memory.md R208). -/
def Obligations.MultipleStores : Prop :=
  ∀ s : State,
    (∀ rp list, list ≠ 0#16 → Direct s → (s.getReg rp).toNat % 4 = 0 → Backed s (s.getReg rp) (4 * (listAscending list).length) →
      Gives (exec (.stm rp 0#1 list) s) fun t =>
        t.mem = (StoredInTurn s (listStores (s.getReg rp) 0#1 list s.getReg)).mem ∧ SameRegs s t [] ∧ SameSr s t [] ∧
        t.pc = s.after (.stm rp 0#1 list)) ∧
    (∀ list, list ≠ 0#8 → Pushed (.pushm list) .pushm s s (listStores (s.getReg 13#4) 1#1 (reglist8 list) s.getReg) [13#4] fun t =>
      t.getReg 13#4 = s.getReg 13#4 - BitVec.ofNat 32 (4 * (listAscending (reglist8 list)).length) ∧ t.pc = s.pc + 2#32) ∧
    (∀ rp list, list ≠ 0#16 → Pushed (.stm rp 0#1 list) .stm s s (listStores (s.getReg rp) 0#1 list s.getReg) [] fun t =>
      t.pc = s.pc + 4#32) ∧
    (∀ rp list, list ≠ 0#16 → list.getLsbD rp.toNat = false →
      Pushed (.stm rp 1#1 list) .stm s s (listStores (s.getReg rp) 1#1 list s.getReg) [rp] fun t =>
        Writes (.stm rp 1#1 list) s t rp (s.getReg rp - BitVec.ofNat 32 (4 * (listAscending list).length))) ∧
    (∀ rp list, list.getLsbD rp.toNat = true →
      Pushed (.stm rp 1#1 list) .stm s (s.drawFree 2) (listStores (s.getReg rp) 1#1 list fun i => if i = rp then s.free else s.getReg i)
        [rp] fun _ => True) ∧
    (∀ rp list, list ≠ 0#16 → list.getLsbD 15 = false →
      Pushed (.stmts rp 0#1 list) .stmts s s (listStores (s.getReg rp) 0#1 list fun i => s.readPhys (appReg i)) [] fun t =>
        t.pc = s.pc + 4#32) ∧
    (∀ rp list, list ≠ 0#16 → list.getLsbD 15 = false →
      Pushed (.stmts rp 1#1 list) .stmts s s (listStores (s.getReg rp) 1#1 list fun i => s.readPhys (appReg i)) [rp] fun t =>
        Writes (.stmts rp 1#1 list) s t rp (s.getReg rp - BitVec.ofNat 32 (4 * (listAscending list).length))) ∧
    (∀ rp wb list, list.getLsbD 15 = true →
      Pushed (.stmts rp wb list) .stmts s (s.drawFree (listAscending list).length)
        (listStores (s.getReg rp) wb list fun i => s.freeAt ((listAscending list).idxOf i)) (if wb = 1#1 then [rp] else []) fun _ => True) ∧
    (Gives (exec (.pushm 0#8) s) fun t => SameRegs s t [13#4] ∧ SameSr s t [] ∧ SameMem s t ∧ SameSystem s t) ∧
    (∀ rp wb, Gives (exec (.stm rp wb 0#16) s) fun t => SameRegs s t [rp] ∧ SameSr s t [] ∧ SameMem s t ∧ SameSystem s t) ∧
    (∀ rp wb, Gives (exec (.stmts rp wb 0#16) s) fun t => SameRegs s t [rp] ∧ SameSr s t [] ∧ SameMem s t ∧ SameSystem s t)

/-- The coprocessor is there, and the hardware signals no floating-point exception (48_system_coprocessor_java.md R960). -/
def copReady (s : State) (cp : BitVec 3) : Prop := (s.now.fpSignal && s.cfg.hasFpu) = false ∧ s.cfg.cops.getLsbD cp.toNat = true

/-- `i` raises `e` at a misaligned address `va`, one that `n` does not divide, unless the implementation lets the access be misaligned; `s0` is
`s` with the free values drawn that the operands ask for. -/
def Misaligned (i : Instr) (s s0 : State) (kind : LsKind) (n : Nat) (va : Word) (e : Word → Event) : Prop :=
  s.cfg.unalignedOk.contains kind = false → va.toNat % n ≠ 0 → exec i s = raiseEvent (e va) s0

/-- The load `i` raises Data Address (Read). -/
def MisalignedLoad (i : Instr) (s : State) (kind : LsKind) (n : Nat) (va : Word) : Prop := Misaligned i s s kind n va .dataAddressRead

/-- The store `i` raises Data Address (Write). -/
def MisalignedStore (i : Instr) (s s0 : State) (kind : LsKind) (n : Nat) (va : Word) : Prop := Misaligned i s s0 kind n va .dataAddressWrite

/-- The state in which a store of the pair of `d` is checked: an odd number draws the values stored. -/
def pairDrawn (s : State) (d : RegNo) : State := if evenNo d then s else s.drawFree 2

/-- The address of the first word of a multiple store. -/
def firstStored (a : Word) (wb : BitVec 1) : Word := if wb = 1#1 then a - 4#32 else a

/-- A misaligned access of an instruction that the implementation does not let be misaligned raises Data Address, at the address of its form:
halfwords need an even address, words and doublewords one that 4 divides. So every form of every load and store of more than a byte; those
whose address is a multiple of 4 by its form never are misaligned. A conditional form traps where its condition holds, stcond where L is set, a
multiple transfer at its first word (20_memory.md R205, 46_data_transfer.md R744, 60_exceptions.md R1074). -/
def Obligations.MisalignedAccessesTrap : Prop :=
  ∀ (s : State) (d p i : RegNo) (sa : BitVec 2),
    (∀ mk kind, (mk, kind) ∈ [(Instr.ldUh, LsKind.ldUh), (Instr.ldSh, LsKind.ldSh)] →
      MisalignedLoad (mk (.formI d p)) s kind 2 (s.getReg p) ∧ MisalignedLoad (mk (.formII d p)) s kind 2 (s.getReg p - 2#32) ∧
      (∀ disp, MisalignedLoad (mk (.formIII d p disp)) s kind 2 (s.dispZ p disp 1)) ∧
      (∀ disp, MisalignedLoad (mk (.formIV d p disp)) s kind 2 (s.dispS p disp 0)) ∧
      MisalignedLoad (mk (.formV d p i sa)) s kind 2 (s.indexed p i sa)) ∧
    (MisalignedLoad (.ldW (.formI d p)) s .ldW 4 (s.getReg p) ∧ MisalignedLoad (.ldW (.formII d p)) s .ldW 4 (s.getReg p - 4#32) ∧
      (∀ disp, MisalignedLoad (.ldW (.formIII d p disp)) s .ldW 4 (s.dispZ p disp 2)) ∧
      (∀ disp, MisalignedLoad (.ldW (.formIV d p disp)) s .ldW 4 (s.dispS p disp 0)) ∧
      MisalignedLoad (.ldW (.formV d p i sa)) s .ldW 4 (s.indexed p i sa) ∧
      ∀ (xp yp : BitVec 1), MisalignedLoad (.ldW (.formVI d xp yp p i)) s .ldW 4
        (s.getReg p + (((s.getReg i).extractLsb' (8 * (xp ++ yp).toNat) 8).setWidth 32 <<< 2))) ∧
    (MisalignedLoad (.ldD (.formI d p)) s .ldD 4 (s.getReg p) ∧ MisalignedLoad (.ldD (.formII d p)) s .ldD 4 (s.getReg p - 8#32) ∧
      MisalignedLoad (.ldD (.formIII d p)) s .ldD 4 (s.getReg p) ∧
      (∀ disp, MisalignedLoad (.ldD (.formIV d p disp)) s .ldD 4 (s.dispS p disp 0)) ∧
      MisalignedLoad (.ldD (.formV d p i sa)) s .ldD 4 (s.indexed p i sa)) ∧
    (∀ c disp, hasRev s.cfg 2 = true → s.cond c = true →
      MisalignedLoad (.ldUhCond c d p disp) s .ldUhCond 2 (s.dispZ p disp 1) ∧
      MisalignedLoad (.ldShCond c d p disp) s .ldShCond 2 (s.dispZ p disp 1) ∧
      MisalignedLoad (.ldWCond c d p disp) s .ldWCond 4 (s.dispZ p disp 2) ∧
      MisalignedStore (.stHCond c p d disp) s s .stHCond 2 (s.dispZ p disp 1) ∧
      MisalignedStore (.stWCond c p d disp) s s .stWCond 4 (s.dispZ p disp 2)) ∧
    (∀ disp : BitVec 12, (∀ part, MisalignedLoad (.ldinsH d p part disp) s .ldinsH 2 (s.dispS p disp 1)) ∧
      MisalignedLoad (.ldswpSh d p disp) s .ldswpSh 2 (s.dispS p disp 1) ∧ MisalignedLoad (.ldswpUh d p disp) s .ldswpUh 2 (s.dispS p disp 1) ∧
      MisalignedLoad (.ldswpW d p disp) s .ldswpW 4 (s.dispS p disp 2) ∧
      MisalignedStore (.stswpH p d disp) s s .stswpH 2 (s.dispS p disp 1) ∧
      MisalignedStore (.stswpW p d disp) s s .stswpW 4 (s.dispS p disp 2)) ∧
    (let s0 := if p = d then s.drawFree 2 else s;
      MisalignedStore (.stH (.formI p d)) s s0 .stH 2 (s.getReg p) ∧ MisalignedStore (.stH (.formII p d)) s s0 .stH 2 (s.getReg p - 2#32) ∧
      (∀ disp, MisalignedStore (.stH (.formIII p d disp)) s s .stH 2 (s.dispZ p disp 1)) ∧
      (∀ disp, MisalignedStore (.stH (.formIV p d disp)) s s .stH 2 (s.dispS p disp 0)) ∧
      MisalignedStore (.stH (.formV p i d sa)) s s .stH 2 (s.indexed p i sa) ∧
      MisalignedStore (.stW (.formI p d)) s s0 .stW 4 (s.getReg p) ∧ MisalignedStore (.stW (.formII p d)) s s0 .stW 4 (s.getReg p - 4#32) ∧
      (∀ disp, MisalignedStore (.stW (.formIII p d disp)) s s .stW 4 (s.dispZ p disp 2)) ∧
      (∀ disp, MisalignedStore (.stW (.formIV p d disp)) s s .stW 4 (s.dispS p disp 0)) ∧
      MisalignedStore (.stW (.formV p i d sa)) s s .stW 4 (s.indexed p i sa)) ∧
    (let s0 := if p = d ∨ p = d + 1#4 then s.drawFree 3 else pairDrawn s d;
      MisalignedStore (.stD (.formI p d)) s s0 .stD 4 (s.getReg p) ∧ MisalignedStore (.stD (.formII p d)) s s0 .stD 4 (s.getReg p - 8#32) ∧
      MisalignedStore (.stD (.formIII p d)) s (pairDrawn s d) .stD 4 (s.getReg p) ∧
      (∀ disp, MisalignedStore (.stD (.formIV p d disp)) s (pairDrawn s d) .stD 4 (s.dispS p disp 0)) ∧
      MisalignedStore (.stD (.formV p i d sa)) s (pairDrawn s d) .stD 4 (s.indexed p i sa)) ∧
    (∀ xp ry yp, (∀ disp, MisalignedStore (.sthhW (.formI d xp ry yp p disp)) s s .sthhW 4 (s.dispZ p disp 2)) ∧
      MisalignedStore (.sthhW (.formII d xp ry yp p i sa)) s s .sthhW 4 (s.indexed p i sa)) ∧
    (∀ disp, s.flagL = true → MisalignedStore (.stcond p d disp) s s .stcond 4 (s.dispS p disp 0)) ∧
    Misaligned (.xchg d p i) s (if xchgUndefined d p i then s.drawFree 2 else s) .xchg 4 (s.getReg p) .dataAddressRead ∧
    (∀ disp : BitVec 8, MisalignedLoad (.acall disp) s .acall 4 (s.ctl.acba + (zext disp <<< 2))) ∧
    (∀ k list, list ≠ 0#8 → MisalignedLoad (.popm k list) s .popm 4 (s.getReg 13#4)) ∧
    (∀ wb list, list ≠ 0#16 →
      MisalignedLoad (.ldm p wb list) s .ldm 4 (if p = 15#4 ∧ list.getLsbD 15 = true then s.getReg 13#4 else s.getReg p) ∧
      MisalignedLoad (.ldmts p wb list) s .ldmts 4 (s.getReg p) ∧
      MisalignedStore (.stm p wb list) s (if wb = 1#1 ∧ list.getLsbD p.toNat = true then s.drawFree 2 else s) .stm 4
        (firstStored (s.getReg p) wb) ∧
      MisalignedStore (.stmts p wb list) s (if list.getLsbD 15 then s.drawFree (listAscending list).length else s) .stmts 4
        (firstStored (s.getReg p) wb)) ∧
    (∀ list, list ≠ 0#8 → MisalignedStore (.pushm list) s s .pushm 4 (s.getReg 13#4 - 4#32)) ∧
    (s.cfg.hasJava = true → MisalignedLoad .popjc s .popjc 4 (s.getReg 9#4) ∧ MisalignedStore .pushjc s s .pushjc 4 (s.getReg 9#4)) ∧
    (s.cfg.archB = false →
      (s.mode = 1#3 → MisalignedLoad .rets s .rets 4 s.systemSp) ∧
      (s.mode ≠ 0#3 → s.mode ≠ 1#3 → MisalignedLoad .rete s .rete 4 s.systemSp) ∧
      (s.mode = 0#3 ∨ s.mode = 1#3 → MisalignedStore .scall s s .scall 4 (s.systemSp - 4#32))) ∧
    (∀ cp, copReady s cp →
      (∀ disp, MisalignedLoad (.ldcW (.formI cp d p disp)) s .ldcW 4 (s.dispZ p disp 2) ∧
        MisalignedLoad (.ldcD (.formI cp d p disp)) s .ldcD 4 (s.dispZ p disp 2) ∧
        MisalignedStore (.stcW (.formI cp p d disp)) s s .stcW 4 (s.dispZ p disp 2) ∧
        MisalignedStore (.stcD (.formI cp p d disp)) s (pairDrawn s d) .stcD 4 (s.dispZ p disp 2)) ∧
      MisalignedLoad (.ldcW (.formII cp d p)) s .ldcW 4 (s.getReg p - 4#32) ∧
      MisalignedLoad (.ldcD (.formII cp d p)) s .ldcD 4 (s.getReg p - 8#32) ∧
      MisalignedStore (.stcW (.formII cp p d)) s s .stcW 4 (s.getReg p) ∧
      MisalignedStore (.stcD (.formII cp p d)) s (pairDrawn s d) .stcD 4 (s.getReg p) ∧
      MisalignedLoad (.ldcW (.formIII cp d p i sa)) s .ldcW 4 (s.indexed p i sa) ∧
      MisalignedLoad (.ldcD (.formIII cp d p i sa)) s .ldcD 4 (s.indexed p i sa) ∧
      MisalignedStore (.stcW (.formIII cp p i d sa)) s s .stcW 4 (s.indexed p i sa) ∧
      MisalignedStore (.stcD (.formIII cp p i d sa)) s (pairDrawn s d) .stcD 4 (s.indexed p i sa) ∧
      (cp = 0#3 → ∀ disp, MisalignedLoad (.ldc0W d p disp) s .ldc0W 4 (s.dispZ p disp 2) ∧
        MisalignedLoad (.ldc0D d p disp) s .ldc0D 4 (s.dispZ p disp 2) ∧
        MisalignedStore (.stc0W p d disp) s s .stc0W 4 (s.dispZ p disp 2) ∧
        MisalignedStore (.stc0D p d disp) s (pairDrawn s d) .stc0D 4 (s.dispZ p disp 2)) ∧
      ∀ wb list, list ≠ 0#8 →
        MisalignedLoad (.ldcmD cp p wb list) s .ldcmD 4 (s.getReg p) ∧
        MisalignedLoad (.ldcmW (.formHigh cp p wb list)) s .ldcmW 4 (s.getReg p) ∧
        MisalignedLoad (.ldcmW (.formLow cp p wb list)) s .ldcmW 4 (s.getReg p) ∧
        MisalignedStore (.stcmD cp p wb list) s s .stcmD 4 (firstStored (s.getReg p) wb) ∧
        MisalignedStore (.stcmW (.formHigh cp p wb list)) s s .stcmW 4 (firstStored (s.getReg p) wb) ∧
        MisalignedStore (.stcmW (.formLow cp p wb list)) s s .stcmW 4 (firstStored (s.getReg p) wb)) ∧
    (∀ (disp : BitVec 16) (short : BitVec 7) (imm : BitVec 15),
      (s.wordBase p + (sext disp <<< 2)).toNat % 4 = 0 ∧ (s.wordBase 15#4 + (zext short <<< 2)).toNat % 4 = 0 ∧
      (s.wordBase 13#4 + (zext short <<< 2)).toNat % 4 = 0 ∧ (rmwAddress imm).toNat % 4 = 0)

/-- On a machine without translation, what a word store puts at an aligned address is what a word load finds there, byte by byte with the most
significant byte at the lowest address, and a load of another word finds what it held (20_memory.md R202, R210). -/
def Obligations.StoreThenLoad : Prop :=
  ∀ (s t : State) (rp rs : RegNo) (disp : BitVec 16),
    let a := s.dispS rp disp 0
    Direct s → Memory.wf s.mem = true → a.toNat % 4 = 0 → Backed s a 4 → exec (.stW (.formIV rp rs disp)) s = .next t →
    loadWord .ldW a t = .ok (s.getReg rs) t ∧
    (∀ k, k < 4 → t.byteAt (a + BitVec.ofNat 32 k) = (s.getReg rs).extractLsb' (8 * (3 - k)) 8) ∧
    (∀ b, b ≠ a → b.toNat % 4 = 0 → Backed s b 4 → ∃ w, loadWord .ldW b s = .ok w s ∧ loadWord .ldW b t = .ok w t)

/-! ## Translation -/

/-- The attributes of an access without a page; that it is bufferable as the platform says is the model's choice, notes/assumptions/33.md. -/
def plainAccess (cfg : Params) (pa : Word) (cached : Bool) : Translated := ⟨pa, ⟨cached, cfg.directAttrs.bufferable, false⟩⟩

/-- The MPU region `n` is implemented and valid, and holds `va` (20_memory.md R282, R285, R287, R292). -/
def RegionHolds (s : State) (n : Nat) (va : Word) : Prop :=
  ∃ h : n < 8, n < s.cfg.dmmuSz.toNat ∧ s.mpu.ar[n].getLsbD 0 = true ∧
    s.mpu.ar[n].toNat / 4096 * 4096 ≤ va.toNat ∧ va.toNat < s.mpu.ar[n].toNat / 4096 * 4096 + 2 ^ (s.mpu.ar[n].toNat / 2 % 32 + 1)

/-- Every region that is implemented and valid has a size that is not too small, and a start that its size divides (20_memory.md R283, R286,
R287). -/
def RegionsDefined (s : State) : Prop :=
  ∀ n (h : n < 8), n < s.cfg.dmmuSz.toNat → s.mpu.ar[n].getLsbD 0 = true →
    s.cfg.mpuMinRegion.toNat ≤ s.mpu.ar[n].toNat / 2 % 32 ∧ s.mpu.ar[n].toNat / 4096 * 4096 % 2 ^ (s.mpu.ar[n].toNat / 2 % 32 + 1) = 0

/-- Table 6-3: what a permission code allows in a privileged mode and in Application mode, where it is defined (20_memory.md R291). -/
def mpuRights (ap : Nat) : Option (List Access × List Access) :=
  match ap with
  | 0 => some ([.read], [])
  | 1 => some ([.read, .fetch], [])
  | 2 => some ([.read, .write], [])
  | 3 => some ([.read, .write, .fetch], [])
  | 4 => some ([.read], [.read])
  | 5 => some ([.read, .fetch], [.read, .fetch])
  | 6 => some ([.read, .write], [.read, .write])
  | 7 => some ([.read, .write, .fetch], [.read, .write, .fetch])
  | 8 => some ([.read, .write], [.read])
  | 9 => some ([.read, .write], [.read, .fetch])
  | 10 => some ([], [])
  | _ => none

/-- Translation and protection: for a machine with a TLB, segments, pages and their permissions (20_memory.md R231 to R235, R249 to R251): the
physical address as a number, the page's frame with the offset in the page; the attributes (R236); each event; and the Accessed bit of the entry
that hits. For a machine with an MPU (R282 to R296): no check while it is disabled; a miss, a multiple hit, and for one hit the permission and
the attributes of the subregion; any outcome for what the spec leaves undefined (notes/assumptions/16.md; that an MPU access writes nothing
through is notes/assumptions/33.md; that the registers act where SYSREG_IMPLEMENTED does not list them is 38.md). -/
def Obligations.SegmentsAndPages : Prop :=
  ∀ (s : State) (k : Access) (priv : Bool) (va : Word),
    let seg := va.toNat / 2 ^ 29
    let S := s.mmu.mmucr.getLsbD 4 = true
    let E := s.mmu.mmucr.getLsbD 0 = true
    let paged := E ∧ (¬ S ∨ seg < 4 ∨ seg = 6)
    (s.cfg.mmut = .none → translate k priv va s = .ok ⟨va, s.cfg.directAttrs⟩ s) ∧
    (s.cfg.mmut = .split ∨ s.cfg.mmut = .shared →
      (S → priv = false → 4 ≤ seg → translate k priv va s = .raise (protectionEvent k va) s) ∧
      (¬ S → ¬ E → translate k priv va s = .ok (plainAccess s.cfg va true) s) ∧
      (S → (priv = true ∨ seg < 4) → ¬ paged →
        translate k priv va s = .ok (plainAccess s.cfg (BitVec.ofNat 32 (if 4 ≤ seg ∧ seg < 7 then va.toNat % 2 ^ 29 else va.toNat))
          (decide (seg ≠ 5 ∧ seg ≠ 7))) s) ∧
      (paged → (¬ S ∨ priv = true ∨ seg < 4) →
        (s.tlbHits (k == .fetch) va = [] → translate k priv va s = .raise (missEvent k va) s) ∧
        (1 < (s.tlbHits (k == .fetch) va).length → translate k priv va s = .raise (.tlbMultipleHit va (k == .fetch)) s) ∧
        (∀ e i, s.tlbHits (k == .fetch) va = [(e, i)] →
          let size := 2 ^ (if e.sz = 0#2 then 10 else if e.sz = 1#2 then 12 else if e.sz = 2#2 then 16 else 20)
          let s1 := s.setTlbEntry (k == .fetch) i { e with a := false }
          let pa := BitVec.ofNat 32 (e.pfn.toNat * 1024 / size * size + va.toNat % size)
          let allowed := (priv = true ∨ e.ap.getLsbD 2 = true) ∧ (k = .write → e.ap.getLsbD 1 = true) ∧ (k = .fetch → e.ap.getLsbD 0 = true)
          (allowed → (k = .write → e.d = true) →
            translate k priv va s = .ok ⟨pa, ⟨e.c, e.b, decide (e.c = true ∧ e.w = true ∧ k ≠ .fetch)⟩⟩ s1) ∧
          (allowed → k = .write → e.d = false → translate k priv va s = .raise (.dtlbModified va) s1) ∧
          (¬ allowed → translate k priv va s = .raise (protectionEvent k va) s1)))) ∧
    (s.cfg.mmut = .mpu →
      (s.mpu.cr.getLsbD 0 = false → translate k priv va s = .ok ⟨va, ⟨false, false, false⟩⟩ s) ∧
      (s.mpu.cr.getLsbD 0 = true → RegionsDefined s → 3 ≤ s.cfg.mpuMinRegion.toNat →
        ((∀ n, ¬ RegionHolds s n va) → translate k priv va s = .raise (missEvent k va) s) ∧
        (∀ n m, n ≠ m → RegionHolds s n va → RegionHolds s m va → translate k priv va s = .raise (.tlbMultipleHit va (k == .fetch)) s) ∧
        (∀ n (h : n < 8), RegionHolds s n va → (∀ m, RegionHolds s m va → m = n) →
          let size := 2 ^ (s.mpu.ar[n].toNat / 2 % 32 + 1)
          let second := s.mpu.psr[n].getLsbD (va.toNat * 16 / size % 16)
          let ap := (if second then s.mpu.aprb else s.mpu.apra).extractLsb' (4 * n) 4
          let cached := if second then s.cfg.sysRegs.contains 97#8 && s.mpu.crb.getLsbD n
                        else s.cfg.sysRegs.contains 96#8 && s.mpu.cra.getLsbD n
          let buffered := if second then s.cfg.sysRegs.contains 99#8 && s.mpu.brb.getLsbD n
                          else s.cfg.sysRegs.contains 98#8 && s.mpu.bra.getLsbD n
          let out : Translated := ⟨va, ⟨cached, buffered, false⟩⟩
          (∀ r, mpuRights ap.toNat = some r → translate k priv va s =
            if k ∈ (if priv then r.1 else r.2) then .ok out s else .raise (protectionEvent k va) s) ∧
          (mpuRights ap.toNat = none → translate k priv va s = .ok out (s.drawFree 1) ∨
            translate k priv va s = .raise (protectionEvent k va) (s.drawFree 1)))) ∧
      (s.mpu.cr.getLsbD 0 = true → ¬ RegionsDefined s →
        (∃ a, translate k priv va s = .ok ⟨va, a⟩ (s.drawFree 1)) ∨ translate k priv va s = .raise (missEvent k va) (s.drawFree 1) ∨
        translate k priv va s = .raise (.tlbMultipleHit va (k == .fetch)) (s.drawFree 1) ∨
        translate k priv va s = .raise (protectionEvent k va) (s.drawFree 1)))

/-! ## Events -/

/-- SR after the entry of `e`, bit by bit: the mode of the event, R and J cleared, the masks of its table set, every other bit as it was
(60_exceptions.md R1050, R1054). -/
def EntrySr (e : Event) (old new : Word) : Prop :=
  ∀ n, n < 32 → new.getLsbD n =
    if n = bitR ∨ n = bitJ then false
    else if 22 ≤ n ∧ n ≤ 24 then
      (match e with
       | .nmi => 7#3
       | .interrupt l _ => BitVec.ofNat 3 (l.toNat + 2)
       | _ => 6#3).getLsbD (n - 22)
    else if (match e with
       | .interrupt l _ => decide (bitI0M ≤ n ∧ n ≤ bitI0M + l.toNat)
       | _ => decide (n = bitEM ∨ n = bitGM)) then true
    else old.getLsbD n

/-- The handler of `e`: EVBA plus the offset of the event, and in the secure state the reset address plus its own (60_exceptions.md R1057,
61_timers_counters_secure_state.md R1175). -/
def HandlerAt (e : Event) (s : State) (pc : Word) : Prop :=
  pc = (if s.srBit bitSS then
      (if s.cfg.archB then 0xA0000000#32 else 0x80000000#32) +
        (match e with
         | .nmi => 0x0C#32
         | .interrupt _ _ => 0x14#32
         | _ => 0x08#32)
    else s.ctl.evba + e.offset) &&& 0xFFFFFFFE#32

/-- Event entry in AVR32B: SR and the return address go to the registers of the event's context and to no other; the registers and memory keep
their values (60_exceptions.md R1050, R1053, R1054, R1057, R1060). -/
def Obligations.EventEntrySavesInRegisters : Prop :=
  ∀ (e : Event) (ra : Word) (s : State), s.cfg.archB = true →
    ∃ t, enterEvent e ra s = .ok () t ∧ t.ret.saved e.mode = (s.sr, ra) ∧
      (∀ m, m ≠ e.mode → t.ret.saved m = s.ret.saved m) ∧ t.ret.rsrDbg = s.ret.rsrDbg ∧ t.ret.rarDbg = s.ret.rarDbg ∧
      EntrySr e s.sr t.sr ∧ HandlerAt e s t.pc ∧ t.ctl.evba = s.ctl.evba ∧ t.ctl.acba = s.ctl.acba ∧
      t.ctl.ecr = (if hasEcr s.cfg then BitVec.ofNat 32 (e.offset.toNat % 512 / 4) else s.ctl.ecr) ∧
      SameRegs s t [] ∧ t.mem = s.mem ∧ t.taken = some e

/-- Event entry in AVR32A, on a machine without translation and with an aligned system stack: an exception pushes the return address and SR, an
interrupt R8 to R12 and LR before them; nothing outside the frame is written, and only the system stack pointer of all registers changes
(60_exceptions.md R1050, R1052, R1054, R1057, R1060). That an interrupt entry with SR[R] set pushes R8 to R12 and LR as they stand, without the
register remap of Java state, is the model's choice (10_state.md R109 gives none), notes/assumptions/13.md. -/
def Obligations.EventEntryPushesFrame : Prop :=
  ∀ (e : Event) (ra : Word) (s : State), s.cfg.archB = false → Direct s → Memory.wf s.mem = true → s.systemSp.toNat % 4 = 0 →
    let interrupt := match e with
      | .interrupt _ _ => true
      | _ => false
    let size := if interrupt then 32 else 8
    let sp := s.systemSp - BitVec.ofNat 32 size
    Backed s sp size →
    ∃ t, enterEvent e ra s = .ok () t ∧ t.systemSp = sp ∧ wordAt t sp = s.sr ∧ wordAt t (sp + 4#32) = ra ∧
      (interrupt = true →
        wordAt t (sp + 8#32) = s.getReg 14#4 ∧ wordAt t (sp + 12#32) = s.getReg 12#4 ∧ wordAt t (sp + 16#32) = s.getReg 11#4 ∧
        wordAt t (sp + 20#32) = s.getReg 10#4 ∧ wordAt t (sp + 24#32) = s.getReg 9#4 ∧ wordAt t (sp + 28#32) = s.getReg 8#4) ∧
      SameMemBut s t [(sp, size)] ∧
      (∀ p : PhysReg, p.Real → p ≠ .pc → p ≠ (if s.srBit bitSS then .spSec else .spSys) → t.readPhys p = s.readPhys p) ∧
      EntrySr e s.sr t.sr ∧ HandlerAt e s t.pc ∧ t.ret = s.ret ∧
      t.ctl.ecr = (if hasEcr s.cfg then BitVec.ofNat 32 (e.offset.toNat % 512 / 4) else s.ctl.ecr) ∧ t.taken = some e

/-- The events that record an address, each with what TLBEHI[I] receives, if anything (60_exceptions.md R1070 to R1078). -/
def addressEvents (va : Word) (b : Bool) : List (Event × Option Bool) :=
  [(.tlbMultipleHit va b, some b), (.instructionAddress va, none), (.itlbMiss va, some true), (.itlbProtection va, some true),
   (.dataAddressRead va, none), (.dataAddressWrite va, none), (.dtlbMissRead va, some false), (.dtlbMissWrite va, some false),
   (.dtlbProtectionRead va, some false), (.dtlbProtectionWrite va, some false), (.dtlbModified va, some false)]

/-- The failure registers are as they were. -/
def RecordsNoAddress (s t : State) : Prop := t.mmu.tlbear = s.mmu.tlbear ∧ t.mmu.tlbehi = s.mmu.tlbehi

/-- Table 8-1's offsets from EVBA, and which events SR[EM] masks: a masked exception becomes the Unrecoverable Exception, with the same return
address, and an unmasked one is taken as itself. What an entry records: TLBEAR, TLBEHI[VPN], TLBEHI[V] and TLBEHI[I] for the address and TLB
events of a machine with a TLB, nothing with the MPU or for a masked exception, BEAR for a data bus error; and the replacement pointer of a TLB
that missed may have moved, to no locked entry. A data access that raises an event raises it with its effective address, whichever part of the
access failed (20_memory.md R259 to R261, 60_exceptions.md R1051, R1056, R1063, R1068, R1070 to R1079, R1090). That an entry records in registers
of the TLB which SYSREG_IMPLEMENTED does not list is the model's choice, notes/assumptions/38.md. -/
def Obligations.EventTableAndMask : Prop :=
  (∀ (k : Access) (priv : Bool) (kind : LsKind) (n : Nat) (va : Word) (s s1 : State) (e : Event),
    checkAccess k priv kind n va s = .raise e s1 → e.failingAddress = some va) ∧
  (∀ va : Word, ∀ e ∈ [Event.instructionAddress va, .itlbMiss va, .itlbProtection va, .illegalOpcode, .unimplemented, .privilegeViolation,
      .floatingPoint, .coprocessorAbsent, .dataAddressRead va, .dataAddressWrite va, .dtlbMissRead va, .dtlbMissWrite va,
      .dtlbProtectionRead va, .dtlbProtectionWrite va, .dtlbModified va],
    ∀ (s : State) (ra : Word), s.srBit bitEM = true → takeEvent e ra s = takeEvent .unrecoverable ra s) ∧
  (∀ (va v : Word) (b : Bool) (l : BitVec 2), ∀ e ∈ [Event.unrecoverable, .tlbMultipleHit va b, .busErrorData va, .busErrorFetch, .nmi,
      .interrupt l v],
    ∀ (s t : State) (ra : Word), enterEvent e ra s = .ok () t → takeEvent e ra s = .next t) ∧
  (∀ (e : Event) (s t : State) (ra : Word), s.srBit bitEM = false → enterEvent e ra s = .ok () t → takeEvent e ra s = .next t) ∧
  (∀ (va v : Word) (b : Bool) (l : BitVec 2), ∀ p ∈ [(Event.unrecoverable, 0x00#32), (.tlbMultipleHit va b, 0x04#32), (.busErrorData va, 0x08#32),
      (.busErrorFetch, 0x0C#32), (.nmi, 0x10#32), (.interrupt l v, v), (.instructionAddress va, 0x14#32), (.itlbMiss va, 0x50#32),
      (.itlbProtection va, 0x18#32), (.illegalOpcode, 0x20#32), (.unimplemented, 0x24#32), (.privilegeViolation, 0x28#32),
      (.floatingPoint, 0x2C#32), (.coprocessorAbsent, 0x30#32), (.dataAddressRead va, 0x34#32), (.dataAddressWrite va, 0x38#32),
      (.dtlbMissRead va, 0x60#32), (.dtlbMissWrite va, 0x70#32), (.dtlbProtectionRead va, 0x3C#32), (.dtlbProtectionWrite va, 0x40#32),
      (.dtlbModified va, 0x44#32)], p.1.offset = p.2) ∧
  (∀ (va : Word) (b : Bool), ∀ p ∈ addressEvents va b, ∀ (s t : State) (ra : Word), enterEvent p.1 ra s = .ok () t →
    (hasMmu s.cfg = true → t.mmu.tlbear = va ∧ ∀ k, k < 32 → t.mmu.tlbehi.getLsbD k =
      if 10 ≤ k then va.getLsbD k else if k = 9 then true else if k = 8 then p.2.getD (s.mmu.tlbehi.getLsbD 8) else s.mmu.tlbehi.getLsbD k) ∧
    (hasMmu s.cfg = false → RecordsNoAddress s t) ∧ t.ctl.bear = s.ctl.bear ∧
    (p.1.maskable = true → s.srBit bitEM = true → ∀ u, enterEvent .unrecoverable ra s = .ok () u →
      takeEvent p.1 ra s = .next u ∧ RecordsNoAddress s u)) ∧
  (∀ (va v : Word) (l : BitVec 2), ∀ e ∈ [Event.unrecoverable, .busErrorData va, .busErrorFetch, .nmi, .interrupt l v, .illegalOpcode,
      .unimplemented, .privilegeViolation, .floatingPoint, .coprocessorAbsent],
    ∀ (s t : State) (ra : Word), enterEvent e ra s = .ok () t →
      RecordsNoAddress s t ∧ t.ctl.bear = if e = .busErrorData va ∧ hasBear s.cfg = true then va else s.ctl.bear) ∧
  (∀ (e : Event) (s t : State) (ra : Word), enterEvent e ra s = .ok () t →
    let itlb := s.cfg.mmut = .split ∧ ∃ va, e = .itlbMiss va
    let missed := hasMmu s.cfg = true ∧ s.cfg.tlbReplace = true ∧ ∃ va, e = .itlbMiss va ∨ e = .dtlbMissRead va ∨ e = .dtlbMissWrite va
    t.mmu.tlbelo = s.mmu.tlbelo ∧ t.mmu.ptbr = s.mmu.ptbr ∧ (¬ missed → t.mmu.mmucr = s.mmu.mmucr) ∧
    (missed → itlb → (∀ k, k < 26 → t.mmu.mmucr.getLsbD k = s.mmu.mmucr.getLsbD k) ∧
      (s.mmu.mmucr.extractLsb' 20 6).toNat ≤ (t.mmu.mmucr.extractLsb' 26 6).toNat) ∧
    (missed → ¬ itlb → (∀ k, k < 32 → k < 14 ∨ 20 ≤ k → t.mmu.mmucr.getLsbD k = s.mmu.mmucr.getLsbD k) ∧
      (s.mmu.mmucr.extractLsb' 8 6).toNat ≤ (t.mmu.mmucr.extractLsb' 14 6).toNat))

/-- The line INT`n` and its mask bit. -/
def interruptLine (s : State) (n : Nat) : Option Word :=
  if n = 0 then s.now.int0 else if n = 1 then s.now.int1 else if n = 2 then s.now.int2 else s.now.int3

/-- How a data bus error comes to the boundary: the access that failed has completed, the load with any value and the store without a change of
memory, and the error waits behind those that wait already, with the physical address of the word, whichever of its bytes has no memory; a
sync makes all of them due, and a boundary reports the oldest. What a boundary accepts: that error first, then NMI outside
mode 111 (and in the secure state only with GM clear), then the highest interrupt line that is asserted and not masked; and the event is taken
with the address of the instruction not yet executed (20_memory.md R312, 60_exceptions.md R1055, R1068, R1091, R1092, 61_timers_counters_secure_state.md R1174; the order
of the reports, and the address an error waits with, are the model's reading, notes/assumptions/12.md, and that a failing load completes, though
R744 of 46_data_transfer.md lists the bus error among its events, 39.md). -/
def Obligations.InterruptAcceptance : Prop :=
  (∀ (s : State) (d r : RegNo) (disp : BitVec 16), Direct s → (s.dispS r disp 0).toNat % 4 = 0 → ¬ Backed s (s.dispS r disp 0) 4 →
    (Gives (exec (.ldW (.formIV d r disp)) s) fun t =>
      t.busErr = s.busErr ++ [s.dispS r disp 0] ∧ SameRegs s t [d] ∧ SameSr s t [] ∧ SameMem s t ∧
      SameSystem { s with busErr := t.busErr } t) ∧
    (Gives (exec (.stW (.formIV r d disp)) s) fun t =>
      t.busErr = s.busErr ++ [s.dispS r disp 0] ∧ t.pc = s.pc + 4#32 ∧ SameRegs s t [] ∧ SameSr s t [] ∧ SameMem s t ∧
      SameSystem { s with busErr := t.busErr } t)) ∧
  (∀ (s : State) (pa : Word), s.pendingEvent = some (.busErrorData pa) ↔
    s.busErr.head? = some pa ∧ (s.now.deferBusError = false ∨ s.busErrDue ≠ 0)) ∧
  (∀ (s : State) (pa : Word), s.clearPending (.busErrorData pa) = { s with busErr := s.busErr.tail, busErrDue := s.busErrDue - 1 }) ∧
  (∀ (s : State) (n : BitVec 2) (v : Word), s.pendingEvent = some (.interrupt n v) ↔
    (s.busErr = [] ∨ (s.now.deferBusError = true ∧ s.busErrDue = 0)) ∧
    ¬ (s.now.nmi = true ∧ s.mode ≠ 7#3 ∧ (s.srBit bitSS = true → s.srBit bitGM = false)) ∧
    s.srBit bitGM = false ∧ interruptLine s n.toNat = some v ∧ s.srBit (bitI0M + n.toNat) = false ∧
    ∀ m, n.toNat < m → m < 4 → interruptLine s m = none ∨ s.srBit (bitI0M + m) = true) ∧
  (∀ s : State, s.pendingEvent = some .nmi ↔
    (s.busErr = [] ∨ (s.now.deferBusError = true ∧ s.busErrDue = 0)) ∧ s.now.nmi = true ∧ s.mode ≠ 7#3 ∧
    (s.srBit bitSS = true → s.srBit bitGM = false)) ∧
  (∀ (s : State) (e : Event), s.sample.now.reset = false → s.sample.ocdStopped = false →
    (s.sample.cfg.hasOcd && s.sample.now.ocdStop) = false → s.sample.pendingEvent = some e →
    step s = onNext (fun t => t.clock s.sample false) (takeEvent e s.pc (s.sample.clearPending e)))

/-! ## Calls into the system and returns from it -/

/-- scall and rets: in AVR32B the pair RSR_SUP, RAR_SUP saves and restores; in AVR32A two words of the system stack do, here on a machine
without translation, with the other agents' turn between them (20_memory.md R208); from the other modes both use LR and leave SR
(48_system_coprocessor_java.md R920, R923). That rets restores no reserved bit
of SR, which reads 0, is the model's choice, D10 and notes/assumptions/6.md. -/
def Obligations.SupervisorCallAndReturn : Prop :=
  (∀ s : State, s.mode = 0#3 ∨ s.mode = 1#3 → s.cfg.archB = true → Gives (exec .scall s) fun t =>
    t.ret.rarSup = s.pc + 2#32 ∧ t.ret.rsrSup = s.sr ∧ t.mode = 1#3 ∧ SameSr s t [22, 23, 24] ∧
    t.pc = (s.ctl.evba + 0x100#32) &&& 0xFFFFFFFE#32 ∧ SameRegs s t [] ∧ SameMem s t ∧ t.ctl = s.ctl) ∧
  (∀ s : State, s.mode = 0#3 ∨ s.mode = 1#3 → s.cfg.archB = false → Direct s → Memory.wf s.mem = true → s.systemSp.toNat % 4 = 0 →
    Backed s (s.systemSp - 8#32) 8 →
    let u := State.busTurn { s with mem := writeBytes s.mem (s.systemSp - 4#32) (bytesOfWord (s.pc + 2#32) 4) }
    Gives (exec .scall s) fun t =>
      t.mem = writeBytes u.mem (s.systemSp - 8#32) (bytesOfWord s.sr 4) ∧
      (Undisturbed s → wordAt t (s.systemSp - 4#32) = s.pc + 2#32 ∧ SameMemBut s t [(s.systemSp - 8#32, 8)]) ∧
      wordAt t (s.systemSp - 8#32) = s.sr ∧ t.systemSp = s.systemSp - 8#32 ∧ t.mode = 1#3 ∧ SameSr s t [22, 23, 24] ∧
      t.pc = (s.ctl.evba + 0x100#32) &&& 0xFFFFFFFE#32 ∧ t.ret = s.ret ∧ t.ctl = s.ctl) ∧
  (∀ s : State, s.mode ≠ 0#3 → s.mode ≠ 1#3 → Gives (exec .scall s) fun t =>
    t.getReg 14#4 = s.pc + 2#32 ∧ t.pc = (s.ctl.evba + 0x100#32) &&& 0xFFFFFFFE#32 ∧ SameRegs s t [14#4] ∧ SameSr s t [] ∧ SameMem s t ∧
    SameSystem s t) ∧
  (∀ s : State, s.mode = 1#3 → s.cfg.archB = true → Gives (exec .rets s) fun t =>
    (∀ n, n < 31 → t.srBit n = (srImplemented.getLsbD n && s.ret.rsrSup.getLsbD n)) ∧ t.srBit bitSS = s.srBit bitSS ∧
    t.pc = s.ret.rarSup &&& 0xFFFFFFFE#32 ∧ SameRegs s t [] ∧ SameMem s t ∧ SameSystem s t) ∧
  (∀ s : State, s.mode = 1#3 → s.cfg.archB = false → Direct s → s.systemSp.toNat % 4 = 0 → Backed s s.systemSp 8 →
    Gives (exec .rets s) fun t =>
      (∀ n, n < 31 → t.srBit n = (srImplemented.getLsbD n && (wordAt s s.systemSp).getLsbD n)) ∧ t.srBit bitSS = s.srBit bitSS ∧
      t.pc = wordAt s.busTurn (s.systemSp + 4#32) &&& 0xFFFFFFFE#32 ∧ t.systemSp = s.systemSp + 8#32 ∧ SameMem s.busTurn t ∧
      SameSystem s.busTurn t) ∧
  (∀ s : State, s.mode ≠ 0#3 → s.mode ≠ 1#3 → Gives (exec .rets s) fun t => GoesTo s t (s.getReg 14#4))

/-- rete in AVR32B: the saved SR and address of the context it leaves, with L cleared and SS kept; in AVR32A, on a machine without translation,
the words of the system stack, and on the way out of an interrupt context LR and R12 to R8 above them, with the other agents' turns between them
(20_memory.md R208, 48_system_coprocessor_java.md R922, 60_exceptions.md R1110). That no reserved bit of SR is restored, and reads 0, is the model's choice, D10 and notes/assumptions/6.md. -/
def Obligations.ReturnFromEvent : Prop :=
  (∀ s : State, s.mode ≠ 0#3 → s.mode ≠ 1#3 → s.cfg.archB = true → Gives (exec .rete s) fun t =>
    (∀ n, n < 31 → t.srBit n = (decide (n ≠ bitL) && srImplemented.getLsbD n && (s.ret.saved s.mode).1.getLsbD n)) ∧
    t.srBit bitSS = s.srBit bitSS ∧ t.pc = (s.ret.saved s.mode).2 &&& 0xFFFFFFFE#32 ∧ SameRegs s t [] ∧ SameMem s t ∧ SameSystem s t) ∧
  (∀ s : State, s.mode ≠ 0#3 → s.mode ≠ 1#3 → s.cfg.archB = false → Direct s → s.systemSp.toNat % 4 = 0 →
    let interrupt := s.mode ≠ 6#3 ∧ s.mode ≠ 7#3
    let size := if interrupt then 32 else 8
    let sp := s.systemSp
    Backed s sp size → Gives (exec .rete s) fun t =>
      (∀ n, n < 31 → t.srBit n = (decide (n ≠ bitL) && srImplemented.getLsbD n && (wordAt s sp).getLsbD n)) ∧
      t.srBit bitSS = s.srBit bitSS ∧ t.pc = s.wordInTurn sp 1 &&& 0xFFFFFFFE#32 ∧ t.systemSp = sp + BitVec.ofNat 32 size ∧
      (interrupt →
        t.getReg 14#4 = s.wordInTurn sp 2 ∧ t.getReg 12#4 = s.wordInTurn sp 3 ∧ t.getReg 11#4 = s.wordInTurn sp 4 ∧
        t.getReg 10#4 = s.wordInTurn sp 5 ∧ t.getReg 9#4 = s.wordInTurn sp 6 ∧ t.getReg 8#4 = s.wordInTurn sp 7) ∧
      (∀ p : PhysReg, p.Real → p ≠ .pc → p ≠ (if s.srBit bitSS then .spSec else .spSys) →
        (interrupt → ∀ i ∈ [8#4, 9#4, 10#4, 11#4, 12#4, 14#4], p ≠ .bank .shared i) → t.readPhys p = s.readPhys p) ∧
      SameMem (s.turns (size / 4 - 1)) t ∧ SameSystem (s.turns (size / 4 - 1)) t)

/-- sscall, retss, retd and breakpoint: what each saves or restores, and where it goes (48_system_coprocessor_java.md R902, R921, R924, R926). That
retss and retd restore no reserved bit of SR, which reads 0, is the model's choice, D10 and notes/assumptions/6.md; that sscall and retss use
SS_RAR and SS_RSR where SYSREG_IMPLEMENTED does not list them is notes/assumptions/38.md. -/
def Obligations.SecureAndDebugTransfers : Prop :=
  ∀ s : State,
    (unitPresent .sscall s.cfg = true → Gives (exec .sscall s) fun t =>
      t.sec.rar = s.pc ∧ t.sec.rsr = s.sr ∧ t.pc = (if s.cfg.archB then 0xA0000004#32 else 0x80000004#32) ∧ t.srBit bitSS = true ∧
      t.srBit bitGM = true ∧ t.mode = (if s.mode = 0#3 then 1#3 else s.mode) ∧ SameSr s t [bitSS, bitGM, 22, 23, 24] ∧ SameRegs s t [] ∧
      SameMem s t ∧ t.ret = s.ret ∧ t.ctl = s.ctl) ∧
    (unitPresent .retss s.cfg = true → s.srBit bitSS = true → Gives (exec .retss s) fun t =>
      (∀ n, n < 32 → t.srBit n = (srImplemented.getLsbD n && s.sec.rsr.getLsbD n)) ∧ t.pc = s.sec.rar &&& 0xFFFFFFFE#32 ∧
      SameRegs s t [] ∧ SameMem s t ∧ SameSystem s t) ∧
    (s.privileged = true → Gives (exec .retd s) fun t =>
      (hasRsrDbg s.cfg = true → ∀ n, n < 31 → t.srBit n = (srImplemented.getLsbD n && s.ret.rsrDbg.getLsbD n)) ∧
      (hasRarDbg s.cfg = true → t.pc = s.ret.rarDbg &&& 0xFFFFFFFE#32) ∧
      t.srBit bitSS = s.srBit bitSS ∧ SameRegs s t [] ∧ SameMem s t ∧ SameSystem s t) ∧
    (s.cfg.hasOcd = true → s.cfg.ocdEnabled = true → s.srBit bitDM = false → Gives (exec .breakpoint s) fun t =>
      t.ret = { s.ret with rsrDbg := if hasRsrDbg s.cfg then s.sr else s.ret.rsrDbg
                           rarDbg := if hasRarDbg s.cfg then s.pc else s.ret.rarDbg } ∧
      (∀ n, n < 32 → t.srBit n = if n = bitR ∨ n = bitJ then false else if n = 22 then false
        else if n ∈ [23, 24, bitD, bitDM, bitEM, bitGM] then true else s.srBit n) ∧
      t.pc = (if s.srBit bitSS then (if s.cfg.archB then 0xA0000010#32 else 0x80000010#32) else s.ctl.evba + 0x1C#32) &&& 0xFFFFFFFE#32 ∧
      SameRegs s t [] ∧ SameMem s t ∧ t.ctl = s.ctl) ∧
    (¬ (s.cfg.hasOcd = true ∧ s.cfg.ocdEnabled = true ∧ s.srBit bitDM = false) → exec .breakpoint s = .next (s.advance 2#32))

/-! ## The status register and the system registers -/

/-- csrf, ssrf and csrfcz with their encodings: one bit cleared or set, or copied to C and Z; the reserved bits and SS do not change, and the
upper half is privileged (48_system_coprocessor_java.md R900, R901, R932). What the reserved bits do, csrfcz reading 0 and csrf and ssrf
changing nothing, is the model's choice, 92_eei_decisions.md D10 and notes/assumptions/6.md. -/
def Obligations.StatusBits : Prop :=
  (∀ bp : BitVec 5, decodeCode (.half (cat 16 (0b1101010#7 ++ bp) 0b0011#4)) = some (.csrf bp) ∧
    decodeCode (.half (cat 16 (0b1101001#7 ++ bp) 0b0011#4)) = some (.ssrf bp) ∧
    decodeCode (.half (cat 16 (0b1101000#7 ++ bp) 0b0011#4)) = some (.csrfcz bp)) ∧
  ∀ (s : State) (bp : BitVec 5),
    (15 < bp.toNat → s.inApplication = true → exec (.csrf bp) s = raiseEvent .privilegeViolation s ∧
      exec (.ssrf bp) s = raiseEvent .privilegeViolation s ∧ exec (.csrfcz bp) s = raiseEvent .privilegeViolation s) ∧
    (bp.toNat ≤ 15 ∨ s.privileged = true →
      let fixed := srImplemented.getLsbD bp.toNat = false ∨ bp = 31#5
      (Gives (exec (.csrf bp) s) fun t => (¬ fixed → t.srBit bp.toNat = false) ∧ SameSr s t (if fixed then [] else [bp.toNat]) ∧
        t.pc = s.pc + 2#32 ∧ SameRegs s t [] ∧ SameMem s t ∧ SameSystem s t) ∧
      (Gives (exec (.ssrf bp) s) fun t => (¬ fixed → t.srBit bp.toNat = true) ∧ SameSr s t (if fixed then [] else [bp.toNat]) ∧
        t.pc = s.pc + 2#32 ∧ SameRegs s t [] ∧ SameMem s t ∧ SameSystem s t) ∧
      (Gives (exec (.csrfcz bp) s) fun t => t.flagC = (srImplemented.getLsbD bp.toNat && s.srBit bp.toNat) ∧ t.flagZ = t.flagC ∧
        SameSr s t [1, 0] ∧ t.pc = s.pc + 2#32 ∧ SameRegs s t [] ∧ SameMem s t ∧ SameSystem s t))

/-- The system registers that are plain storage in some configuration, with what makes them exist. -/
def plainSysReg (cfg : Params) (n : Nat) : Bool :=
  let o := cfg.sysRegs.contains (BitVec.ofNat 8 n)
  n = 1 || n = 2 || (n = 3 && cfg.cpucr == .storage) || (n = 4 && o) || (((5 ≤ n && n ≤ 11) || (13 ≤ n && n ≤ 19)) && cfg.archB) ||
  ((n = 12 || n = 20) && o) || (21 ≤ n && n ≤ 32 && cfg.hasJava && o) || n = 66 || n = 67 ||
  (68 ≤ n && n ≤ 71 && hasMmu cfg && o) || (75 ≤ n && n ≤ 77 && cfg.hasPerf && o) || ((n = 100 || n = 101) && cfg.mmut == .mpu && o)

/-- `new` is `v` with the bits cleared that `stored` does not name. -/
def StoredIn (new v : Word) (stored : Nat → Bool) : Prop := ∀ k, k < 32 → new.getLsbD k = (stored k && v.getLsbD k)

/-- What a write of `v` leaves in the registers that exist and are not plain storage: MMUCR, where I invalidates every entry and is not stored
(20_memory.md R245, R258); PCCR, where F is cleared by ones and C and R reset counters (61_timers_counters_secure_state.md R1163); the MPU's
(20_memory.md R284, R285, R288, R293, R294; that bits 31 to 8 of MPUCRA, MPUCRB, MPUBRA and MPUBRB are not written and read 0 is the model's
choice, notes/assumptions/6.md); the secure registers, written only with SS set (61_timers_counters_secure_state.md R1173); and
CPUCR and the IMPL registers of a core that gives them a behaviour of its own (10_state.md R131, R134). -/
def LeavesWritten (s t : State) (n : BitVec 8) (v : Word) : Prop :=
  (n = 72#8 → StoredIn t.mmu.mmucr v (fun k => k ≠ 2 && k ≠ 5 && k ≠ 6 && k ≠ 7) ∧
    ∀ k (h : k < 64), t.mmu.itlb[k] = { s.mmu.itlb[k] with v := s.mmu.itlb[k].v && !v.getLsbD 2 } ∧
      t.mmu.dtlb[k] = { s.mmu.dtlb[k] with v := s.mmu.dtlb[k].v && !v.getLsbD 2 }) ∧
  (n = 78#8 →
    (∀ k, k < 32 → t.perf.pccr.getLsbD k = if 8 ≤ k ∧ k ≤ 10 then s.perf.pccr.getLsbD k && !v.getLsbD k
      else (k ∈ [0, 3, 4, 5, 6] ∨ (12 ≤ k ∧ k ≤ 23)) && v.getLsbD k) ∧
    t.perf.pccnt = (if v.getLsbD 1 || v.getLsbD 2 then 0#32 else s.perf.pccnt) ∧
    t.perf.pcnt0 = (if v.getLsbD 1 then 0#32 else s.perf.pcnt0) ∧ t.perf.pcnt1 = (if v.getLsbD 1 then 0#32 else s.perf.pcnt1)) ∧
  (∀ i (h : i < 8), n = BitVec.ofNat 8 (80 + i) → StoredIn t.mpu.ar[i] v (fun k => k < 6 || 12 ≤ k)) ∧
  (∀ i (h : i < 8), n = BitVec.ofNat 8 (88 + i) → StoredIn t.mpu.psr[i] v (fun k => k < 16)) ∧
  (n = 96#8 → StoredIn t.mpu.cra v (fun k => k < 8)) ∧ (n = 97#8 → StoredIn t.mpu.crb v (fun k => k < 8)) ∧
  (n = 98#8 → StoredIn t.mpu.bra v (fun k => k < 8)) ∧ (n = 99#8 → StoredIn t.mpu.brb v (fun k => k < 8)) ∧
  (n = 102#8 → StoredIn t.mpu.cr v (fun k => k = 0)) ∧
  (n ∈ [103#8, 104#8, 105#8, 106#8, 107#8, 110#8, 111#8] →
    (s.srBit bitSS = true → t.readSysReg n = some v) ∧ (s.srBit bitSS = false → t = s.advance 4#32)) ∧
  (n = 3#8 → s.cfg.cpucr = .own → t.ctl.cpucr = Config.cpucrStored s.ctl.cpucr v) ∧
  (192 ≤ n.toNat → ∀ old, s.readSysReg n = some old → t.readSysReg n = some (Config.implStored n old v))

/-- The registers that are one field each: the number, what makes the register exist, and the field (10_state.md R130 to R146). -/
def registerFields (s : State) : List (Nat × Bool × Word) :=
  let o (n : Nat) : Bool := s.cfg.sysRegs.contains (BitVec.ofNat 8 n)
  let b := s.cfg.archB
  let java (n : Nat) : Bool := s.cfg.hasJava && o n
  let mmu (n : Nat) : Bool := hasMmu s.cfg && o n
  let perf (n : Nat) : Bool := s.cfg.hasPerf && o n
  let mpu (n : Nat) : Bool := s.cfg.mmut == .mpu && o n
  let sec (n : Nat) : Bool := hasSecure s.cfg && o n
  [(0, true, s.sr), (1, true, s.ctl.evba), (2, true, s.ctl.acba), (3, true, s.ctl.cpucr), (4, o 4, s.ctl.ecr), (79, o 79, s.ctl.bear)] ++
  [(5, b, s.ret.rsrSup), (6, b, s.ret.rsrInt0), (7, b, s.ret.rsrInt1), (8, b, s.ret.rsrInt2), (9, b, s.ret.rsrInt3), (10, b, s.ret.rsrEx),
    (11, b, s.ret.rsrNmi), (12, o 12, s.ret.rsrDbg), (13, b, s.ret.rarSup), (14, b, s.ret.rarInt0), (15, b, s.ret.rarInt1),
    (16, b, s.ret.rarInt2), (17, b, s.ret.rarInt3), (18, b, s.ret.rarEx), (19, b, s.ret.rarNmi), (20, o 20, s.ret.rarDbg)] ++
  [(21, java 21, s.java.jecr), (22, java 22, s.java.josp), (31, java 31, s.java.jtba), (32, java 32, s.java.jbcr)] ++
  [(66, true, s.timer.count), (67, true, s.timer.compare), (75, perf 75, s.perf.pccnt), (76, perf 76, s.perf.pcnt0),
    (77, perf 77, s.perf.pcnt1), (78, perf 78, s.perf.pccr)] ++
  [(68, mmu 68, s.mmu.tlbehi), (69, mmu 69, s.mmu.tlbelo), (70, mmu 70, s.mmu.ptbr), (71, mmu 71, s.mmu.tlbear), (72, mmu 72, s.mmu.mmucr)] ++
  [(96, mpu 96, s.mpu.cra), (97, mpu 97, s.mpu.crb), (98, mpu 98, s.mpu.bra), (99, mpu 99, s.mpu.brb), (100, mpu 100, s.mpu.apra),
    (101, mpu 101, s.mpu.aprb), (102, mpu 102, s.mpu.cr)] ++
  [(103, sec 103, s.sec.status), (104, sec 104, s.sec.adrf), (105, sec 105, s.sec.adrr), (106, sec 106, s.sec.adr0),
    (107, sec 107, s.sec.adr1), (108, sec 108, s.spSys), (109, sec 109, s.spApp), (110, sec 110, s.sec.rar), (111, sec 111, s.sec.rsr)]

/-- Number `n` reads `w` where `exist`, and elsewhere there is no such register. -/
def Reads8 (s : State) (n : Nat) (exist : Bool) (w : Word) : Prop := s.readSysReg (BitVec.ofNat 8 n) = if exist then some w else none

/-- CONFIG0 and CONFIG1 field by field, from the parameters of the implementation (10_state.md R151, R152). -/
def ConfigRead (s : State) : Prop :=
  (∃ w, s.readSysReg 64#8 = some w ∧ w.extractLsb' 24 8 = s.cfg.procId ∧ w.extractLsb' 16 4 = s.cfg.procRev ∧
    w.extractLsb' 13 3 = (if s.cfg.archB then 1#3 else 0#3) ∧ (w.extractLsb' 10 3).toNat = s.cfg.archRev.toNat ∧
    w.extractLsb' 7 3 = (match s.cfg.mmut with | .none => 0#3 | .split => 1#3 | .shared => 2#3 | .mpu => 3#3) ∧
    w.getLsbD 6 = s.cfg.hasFpu ∧ w.getLsbD 5 = s.cfg.hasJava ∧ w.getLsbD 4 = s.cfg.hasPerf ∧ w.getLsbD 3 = s.cfg.hasOcd ∧
    w.getLsbD 2 = s.cfg.hasSimd ∧ w.getLsbD 1 = s.cfg.hasDsp ∧ w.getLsbD 0 = s.cfg.hasRmw) ∧
  ∃ w, s.readSysReg 65#8 = some w ∧ w.extractLsb' 26 6 = s.cfg.immuSz ∧ w.extractLsb' 20 6 = s.cfg.dmmuSz ∧
    w.extractLsb' 0 20 = s.cfg.cacheGeometry

/-- TLBARLO and TLBARHI: the Accessed bits of the TLB that TLBEHI[I] names, of the shared one whatever I holds, the first entry in bit 31, and 0
for an entry that is not there (20_memory.md R246, R247). -/
def AccessedRead (s : State) : Prop :=
  let itlb := s.cfg.mmut = .split ∧ s.mmu.tlbehi.getLsbD 8 = true
  let size := (if itlb then s.cfg.immuSz.toNat else s.cfg.dmmuSz.toNat) + 1
  ∀ half : Nat, half < 2 →
    if hasMmu s.cfg = true ∧ s.cfg.sysRegs.contains (BitVec.ofNat 8 (73 + half)) = true then
      ∃ w, s.readSysReg (BitVec.ofNat 8 (73 + half)) = some w ∧ ∀ i (h : 32 * half + i < 64), i < 32 →
        w.getLsbD (31 - i) = (32 * half + i < size && if itlb then s.mmu.itlb[32 * half + i].a else s.mmu.dtlb[32 * half + i].a)
    else s.readSysReg (BitVec.ofNat 8 (73 + half)) = none

/-- What every number reads: a field of the state, a constant of the implementation, the Accessed bits, or nothing (10_state.md R130 to R146,
R151, R152, 20_memory.md R246, R284 to R294). -/
def RegistersRead (s : State) : Prop :=
  (∀ r ∈ registerFields s, Reads8 s r.1 r.2.1 r.2.2) ∧ ConfigRead s ∧ AccessedRead s ∧
  (∀ i (h : i < 8), Reads8 s (23 + i) (s.cfg.hasJava && s.cfg.sysRegs.contains (BitVec.ofNat 8 (23 + i))) s.java.lv[i]) ∧
  (∀ i (h : i < 8),
    Reads8 s (80 + i) (s.cfg.mmut == .mpu && s.cfg.sysRegs.contains (BitVec.ofNat 8 (80 + i)) && i < s.cfg.dmmuSz.toNat) s.mpu.ar[i] ∧
    Reads8 s (88 + i) (s.cfg.mmut == .mpu && s.cfg.sysRegs.contains (BitVec.ofNat 8 (88 + i)) && i < s.cfg.dmmuSz.toNat) s.mpu.psr[i]) ∧
  (∀ i (h : i < 64), Reads8 s (192 + i) (s.cfg.sysRegs.contains (BitVec.ofNat 8 (192 + i))) s.impl[i]) ∧
  ∀ n, (33 ≤ n ∧ n < 64) ∨ (112 ≤ n ∧ n < 192) → s.readSysReg (BitVec.ofNat 8 n) = none

/-- mfsr and mtsr: a read gives the register, field by field what its rule says, and any value where there is none; a write of a plain register
is read back, and a write of another leaves what its rule says; a write changes no other system register (but a write of PCCR may reset the
counters, and TLBEHI chooses which Accessed bits are read), no general register and no memory; one that does not exist or is read-only is not
written (00_scope.md R16, 10_state.md R130 to R146, R151, R152, 48_system_coprocessor_java.md R910, R914). Five clauses are the model's choice or
deduction and no rule's: what a write leaves in the registers 192 to 255 (Config.implStored of the number, the old value and the written one,
no other register changed), what it leaves in a CPUCR with a behaviour of its own (Config.cpucrStored), and which registers exist, all
notes/assumptions/20.md (of the MPU's, 16.md); that the reserved bits of SR read 0 and are not written, D10 and notes/assumptions/6.md; and that bits
31 to 8 of MPUCRA, MPUCRB, MPUBRA and MPUBRB, which D10 does not name, are not written, notes/assumptions/6.md. -/
def Obligations.SystemRegisters : Prop :=
  (∀ s : State, RegistersRead s) ∧
  ∀ (s : State) (n : BitVec 8), n = 21#8 ∨ n = 22#8 ∨ s.privileged = true →
    (∀ rd, Gives (exec (.mfsr rd n) s) fun t =>
      (∀ v, s.readSysReg n = some v → Writes (.mfsr rd n) s t rd v) ∧ SameRegs s t [rd] ∧ SameSr s t [] ∧ SameMem s t ∧ SameSystem s t) ∧
    (∀ rs, Gives (exec (.mtsr rs n) s) fun t =>
      t.pc = s.pc + 4#32 ∧ SameRegs s t [] ∧ SameMem s t ∧ SameCore s t ∧
      (plainSysReg s.cfg n.toNat = true → t.readSysReg n = some (s.getReg rs)) ∧
      (s.readSysReg n ≠ none → LeavesWritten s t n (s.getReg rs)) ∧
      (n = 0#8 → ∀ k, k < 31 → t.srBit k = (srImplemented.getLsbD k && (s.getReg rs).getLsbD k)) ∧
      (n ≠ 0#8 → SameSr s t []) ∧
      (n = 67#8 → t.timer.compareIrq = false) ∧
      (∀ m, m ≠ n → (n = 78#8 → m ∉ [75#8, 76#8, 77#8]) → (n = 68#8 → m ∉ [73#8, 74#8]) → t.readSysReg m = s.readSysReg m) ∧
      ((s.readSysReg n = none ∨ n ∈ [64#8, 65#8, 73#8, 74#8, 79#8, 108#8, 109#8]) → t = s.advance 4#32))

/-- mfdr, mtdr, cache and sleep in a privileged mode: the debug registers that exist are storage, cache changes nothing without a cache, and
sleep clears GM with bit 7 of its operand and then waits unless its mode is to do nothing (48_system_coprocessor_java.md R905, R912, R916, R925;
that a debug register is plain storage is the model's choice, notes/assumptions/18.md, and so is that mfdr and mtdr act alike with SR[SS] set and
clear, where 61_timers_counters_secure_state.md R1176 leaves open what mfdr returns, notes/assumptions/21.md). -/
def Obligations.DebugRegistersCacheAndSleep : Prop :=
  ∀ s : State, s.privileged = true →
    (∀ rd n, Gives (exec (.mfdr rd n) s) fun t =>
      (n ∈ s.cfg.debugRegs → Writes (.mfdr rd n) s t rd (s.debug[n.toNat]'n.isLt)) ∧ SameRegs s t [rd] ∧ SameSr s t [] ∧ SameMem s t ∧
      SameSystem s t) ∧
    (∀ rs n, Gives (exec (.mtdr rs n) s) fun t =>
      (∀ m : BitVec 8, t.debug[m.toNat]'m.isLt = if m = n ∧ n ∈ s.cfg.debugRegs then s.getReg rs else s.debug[m.toNat]'m.isLt) ∧
      t.pc = s.pc + 4#32 ∧ SameRegs s t [] ∧ SameSr s t [] ∧ SameMem s t ∧ SameSystem { s with debug := t.debug } t) ∧
    (∀ op rp disp, exec (.cache op rp disp) s = .next (s.advance 4#32)) ∧
    (∀ op, Gives (exec (.sleep op) s) fun t =>
      t.sleeping = (if op ∈ s.cfg.sleepNop then s.sleeping else some op) ∧ (op.getLsbD 7 = true → t.srBit bitGM = false) ∧
      SameSr s t (if op.getLsbD 7 then [bitGM] else []) ∧ t.pc = s.pc + 4#32 ∧ SameRegs s t [] ∧ SameMem s t ∧
      SameSystem { s with sleeping := t.sleeping } t)

/-- The entry matches the address `hi` holds, under the entry's own page size (20_memory.md R248, R253, R257). -/
def Matches (e : TlbEntry) (mmucr hi : Word) : Prop :=
  let size := 2 ^ (if e.sz = 0#2 then 10 else if e.sz = 1#2 then 12 else if e.sz = 2#2 then 16 else 20)
  e.v = true ∧ e.vpn.toNat * 1024 / size = hi.toNat / 1024 * 1024 / size ∧
    (mmucr.getLsbD 1 = true ∨ e.g = true ∨ e.asid = hi.extractLsb' 0 8)

/-- The TLB instructions in a privileged mode of a machine with a TLB. tlbw copies every field of TLBEHI and TLBELO into the entry that the
pointer of the addressed TLB names, with the Accessed bit set, and drops the bits that an ITLB or a DTLB does not implement; tlbr copies every
field that is implemented back, and TLBEHI[I] and the entry stay; so on a machine with one shared TLB the two after each other give what was
there. That tlbw with a pointer past the entries writes nothing is in no rule of tlbw: it is 93_implementation_defined.md U11, by R247, and
notes/assumptions/17.md; that they act where SYSREG_IMPLEMENTED does not list the registers is the model's choice, notes/assumptions/38.md. tlbs finds the last entry that matches, and keeps the pointer where none does
(20_memory.md R240 to R242, R247, R254 to R257, 48_system_coprocessor_java.md R940 to R942). -/
def Obligations.TlbInstructions : Prop :=
  ∀ s : State, hasMmu s.cfg = true → s.privileged = true →
    let itlb := s.cfg.mmut == .split && s.mmu.tlbehi.getLsbD 8
    let dtlb := s.cfg.mmut == .split && !s.mmu.tlbehi.getLsbD 8
    let p := (if itlb then s.mmu.mmucr.extractLsb' 26 6 else s.mmu.mmucr.extractLsb' 14 6).toNat
    let count := (if itlb then s.cfg.immuSz.toNat else s.cfg.dmmuSz.toNat) + 1
    let entries (t : State) := if itlb then t.mmu.itlb else t.mmu.dtlb
    let hi := s.mmu.tlbehi
    let lo := s.mmu.tlbelo
    let rest (t : State) := t.pc = s.pc + 2#32 ∧ SameRegs s t [] ∧ SameSr s t [] ∧ SameMem s t ∧ SameSystem { s with mmu := t.mmu } t ∧
      t.mmu.ptbr = s.mmu.ptbr ∧ t.mmu.tlbear = s.mmu.tlbear
    (∀ h : p < 64, p < count → Gives (exec .tlbw s) fun t =>
      let e := (entries t)[p]
      e.a = true ∧ e.vpn = hi.extractLsb' 10 22 ∧ e.v = hi.getLsbD 9 ∧ e.asid = hi.extractLsb' 0 8 ∧
      e.pfn = lo.extractLsb' 10 22 ∧ e.c = lo.getLsbD 9 ∧ e.g = lo.getLsbD 8 ∧ e.b = lo.getLsbD 7 ∧
      e.ap.getLsbD 2 = lo.getLsbD 6 ∧ e.ap.getLsbD 1 = (!itlb && lo.getLsbD 5) ∧ e.ap.getLsbD 0 = (!dtlb && lo.getLsbD 4) ∧
      e.sz = lo.extractLsb' 2 2 ∧ e.d = (!itlb && lo.getLsbD 1) ∧ e.w = (!itlb && lo.getLsbD 0) ∧
      (∀ b n (hn : n < 64), b ≠ itlb ∨ n ≠ p →
        (if b then t.mmu.itlb else t.mmu.dtlb)[n] = (if b then s.mmu.itlb else s.mmu.dtlb)[n]) ∧
      t.mmu.tlbehi = hi ∧ t.mmu.tlbelo = lo ∧ t.mmu.mmucr = s.mmu.mmucr ∧ rest t ∧
      (s.cfg.mmut = .shared → Gives (exec .tlbr t) fun u => u.mmu.tlbehi = hi ∧ u.mmu.tlbelo = lo)) ∧
    (count ≤ p → exec .tlbw s = .next { s with pc := s.pc + 2#32 }) ∧
    (Gives (exec .tlbr s) fun t =>
      (∀ h : p < 64, p < count →
        let e := (entries s)[p]
        t.mmu.tlbehi.extractLsb' 10 22 = e.vpn ∧ t.mmu.tlbehi.getLsbD 9 = e.v ∧ t.mmu.tlbehi.getLsbD 8 = hi.getLsbD 8 ∧
        t.mmu.tlbehi.extractLsb' 0 8 = e.asid ∧ t.mmu.tlbelo.extractLsb' 10 22 = e.pfn ∧ t.mmu.tlbelo.getLsbD 9 = e.c ∧
        t.mmu.tlbelo.getLsbD 8 = e.g ∧ t.mmu.tlbelo.getLsbD 7 = e.b ∧ t.mmu.tlbelo.getLsbD 6 = e.ap.getLsbD 2 ∧
        (itlb = false → t.mmu.tlbelo.getLsbD 5 = e.ap.getLsbD 1) ∧ (dtlb = false → t.mmu.tlbelo.getLsbD 4 = e.ap.getLsbD 0) ∧
        t.mmu.tlbelo.extractLsb' 2 2 = e.sz ∧ (itlb = false → t.mmu.tlbelo.getLsbD 1 = e.d ∧ t.mmu.tlbelo.getLsbD 0 = e.w)) ∧
      t.mmu.itlb = s.mmu.itlb ∧ t.mmu.dtlb = s.mmu.dtlb ∧ t.mmu.mmucr = s.mmu.mmucr ∧ rest t) ∧
    (Gives (exec .tlbs s) fun t =>
      let pointer := (if itlb then t.mmu.mmucr.extractLsb' 26 6 else t.mmu.mmucr.extractLsb' 14 6).toNat
      ((∀ i (h : i < 64), i < count → ¬ Matches (entries s)[i] s.mmu.mmucr hi) → t.mmu.mmucr.getLsbD 3 = true ∧ pointer = p) ∧
      (∀ i (h : i < 64), i < count → Matches (entries s)[i] s.mmu.mmucr hi →
        (∀ j (hj : j < 64), i < j → j < count → ¬ Matches (entries s)[j] s.mmu.mmucr hi) →
        t.mmu.mmucr.getLsbD 3 = false ∧ pointer = i) ∧
      (∀ k, k < 32 → k ≠ 3 → (if itlb then k < 26 else k < 14 ∨ 20 ≤ k) → t.mmu.mmucr.getLsbD k = s.mmu.mmucr.getLsbD k) ∧
      t.mmu.itlb = s.mmu.itlb ∧ t.mmu.dtlb = s.mmu.dtlb ∧ t.mmu.tlbehi = hi ∧ t.mmu.tlbelo = lo ∧ rest t)

/-! ## Coprocessors -/

/-- Every coprocessor register but those of `cp` that `ds` names. -/
def SameCops (s t : State) (cp : BitVec 3) (ds : List RegNo) : Prop :=
  ∀ (c : BitVec 3) (i : RegNo), ¬ (c = cp ∧ i ∈ ds) → t.copReg c i = s.copReg c i

/-- The pointer of `i` has moved, or it has none; the PC is after `i`, or at a moved R15. -/
def PointerAt (i : Instr) (s t : State) : Option (RegNo × Word) → Prop
  | none => t.pc = s.after i
  | some (p, v) => Writes i s t p v

/-- What an instruction that writes coprocessor registers `ds` and the registers `rs` changes; `s1` is `s` with what its checks leave. -/
def CopFrame (s s1 t : State) (cp : BitVec 3) (ds rs : List RegNo) : Prop :=
  OnlyChecked s s1 ∧ SameCops s t cp ds ∧ SameRegs s t rs ∧ SameSr s t [] ∧ SameMem s t ∧ SameSystem { s1 with cop := t.cop } t

/-- `i` loads CR`d` with the word at `va`. -/
def LoadsCop (i : Instr) (s : State) (kind : LsKind) (va : Word) (cp : BitVec 3) (d : RegNo) (ptr : Option (RegNo × Word)) : Prop :=
  ∀ bs s1, Reads s kind 4 va bs s1 → Gives (exec i s) fun t =>
    t.copReg cp d = wordOfBytes bs ∧ PointerAt i s t ptr ∧ CopFrame s s1 t cp [d] (ptr.map Prod.fst).toList

/-- `i` loads the pair CR`d+1`:CR`d` with the doubleword at `va`; an odd `d` leaves any values. -/
def LoadsCopPair (i : Instr) (s : State) (kind : LsKind) (va : Word) (cp : BitVec 3) (d : RegNo) (ptr : Option (RegNo × Word)) : Prop :=
  ∀ bs s1, Reads s kind 8 va bs s1 → Gives (exec i s) fun t =>
    (evenNo d = true → t.copReg cp (d + 1#4) = wordOfBytes (bs.take 4) ∧ t.copReg cp d = wordOfBytes (bs.drop 4)) ∧
    PointerAt i s t ptr ∧ CopFrame s s1 t cp [d, d + 1#4] (ptr.map Prod.fst).toList

/-- `i` stores `bytes` at `va`. -/
def StoresCop (i : Instr) (s : State) (kind : LsKind) (va : Word) (bytes : List Byte) (ptr : Option (RegNo × Word)) : Prop :=
  ∀ ps s1, Reaches s kind bytes.length va ps s1 → Gives (exec i s) fun t =>
    t.mem = writeTransfers s.mem ps bytes ∧ StoreFrame s s1 t (ptr.map Prod.fst).toList ps ∧ PointerAt i s t ptr

/-- `i` stores the pair CR`d+1`:CR`d`, the odd register at the lower address; with an odd `d` any eight bytes. -/
def StoresCopPair (i : Instr) (s : State) (kind : LsKind) (va : Word) (cp : BitVec 3) (d : RegNo) (ptr : Option (RegNo × Word)) : Prop :=
  (evenNo d = true → StoresCop i s kind va (bytesOfWord (s.copReg cp (d + 1#4)) 4 ++ bytesOfWord (s.copReg cp d) 4) ptr) ∧
  (evenNo d = false → ∀ ps s1, Reaches (s.drawFree 2) kind 8 va ps s1 → Gives (exec i s) fun t =>
    (∃ bytes, bytes.length = 8 ∧ t.mem = writeTransfers s.mem ps bytes) ∧ StoreFrame s s1 t (ptr.map Prod.fst).toList ps ∧
    PointerAt i s t ptr)

/-- The operation, the moves, the loads and the stores of one register or pair of a coprocessor that is there
(48_system_coprocessor_java.md R960 to R965, R968 to R975). That the result of cop depends on CRx and CRy alone is the model's choice,
notes/assumptions/15.md. An access of several transfers is taken with no other agent between them (`Reads`, `Reaches`). -/
def Obligations.CoprocessorTransfers : Prop :=
  ∀ (s : State) (cp : BitVec 3), copReady s cp →
    (∀ op d x y, Gives (exec (.cop cp op d x y) s) fun t =>
      t.copReg cp d = Config.copResult cp op d (s.copReg cp x) (s.copReg cp y) ∧ SameCops s t cp [d] ∧ t.pc = s.pc + 4#32 ∧
      SameRegs s t [] ∧ SameSr s t [4, 3, 2, 1, 0] ∧ SameMem s t ∧ SameSystem { s with cop := t.cop } t) ∧
    (∀ rd crs, Gives (exec (.mvcrW cp rd crs) s) fun t =>
      Writes (.mvcrW cp rd crs) s t rd (s.copReg cp crs) ∧ CopFrame s s t cp [] [rd]) ∧
    (∀ rd crs, Gives (exec (.mvcrD cp rd crs) s) fun t => CopFrame s s t cp [] [rd, rd + 1#4] ∧
      (evenNo rd = true → evenNo crs = true → WritesPair (.mvcrD cp rd crs) s t rd (s.copReg cp (crs + 1#4) ++ s.copReg cp crs))) ∧
    (∀ crd rs, Gives (exec (.mvrcW cp crd rs) s) fun t =>
      t.copReg cp crd = s.getReg rs ∧ t.pc = s.pc + 4#32 ∧ CopFrame s s t cp [crd] []) ∧
    (∀ crd rs, Gives (exec (.mvrcD cp crd rs) s) fun t => t.pc = s.pc + 4#32 ∧ CopFrame s s t cp [crd, crd + 1#4] [] ∧
      (evenNo crd = true → evenNo rs = true → t.copReg cp (crd + 1#4) = s.getReg (rs + 1#4) ∧ t.copReg cp crd = s.getReg rs)) ∧
    (∀ d rp disp,
      LoadsCop (.ldcW (.formI cp d rp disp)) s .ldcW (s.dispZ rp disp 2) cp d none ∧
      LoadsCopPair (.ldcD (.formI cp d rp disp)) s .ldcD (s.dispZ rp disp 2) cp d none ∧
      StoresCop (.stcW (.formI cp rp d disp)) s .stcW (s.dispZ rp disp 2) (bytesOfWord (s.copReg cp d) 4) none ∧
      StoresCopPair (.stcD (.formI cp rp d disp)) s .stcD (s.dispZ rp disp 2) cp d none) ∧
    (∀ d rp,
      LoadsCop (.ldcW (.formII cp d rp)) s .ldcW (s.getReg rp - 4#32) cp d (some (rp, s.getReg rp - 4#32)) ∧
      LoadsCopPair (.ldcD (.formII cp d rp)) s .ldcD (s.getReg rp - 8#32) cp d (some (rp, s.getReg rp - 8#32)) ∧
      StoresCop (.stcW (.formII cp rp d)) s .stcW (s.getReg rp) (bytesOfWord (s.copReg cp d) 4) (some (rp, s.getReg rp + 4#32)) ∧
      StoresCopPair (.stcD (.formII cp rp d)) s .stcD (s.getReg rp) cp d (some (rp, s.getReg rp + 8#32))) ∧
    (∀ d rb ri sa,
      LoadsCop (.ldcW (.formIII cp d rb ri sa)) s .ldcW (s.indexed rb ri sa) cp d none ∧
      LoadsCopPair (.ldcD (.formIII cp d rb ri sa)) s .ldcD (s.indexed rb ri sa) cp d none ∧
      StoresCop (.stcW (.formIII cp rb ri d sa)) s .stcW (s.indexed rb ri sa) (bytesOfWord (s.copReg cp d) 4) none ∧
      StoresCopPair (.stcD (.formIII cp rb ri d sa)) s .stcD (s.indexed rb ri sa) cp d none) ∧
    (cp = 0#3 → ∀ d rp disp,
      LoadsCop (.ldc0W d rp disp) s .ldc0W (s.dispZ rp disp 2) cp d none ∧
      LoadsCopPair (.ldc0D d rp disp) s .ldc0D (s.dispZ rp disp 2) cp d none ∧
      StoresCop (.stc0W rp d disp) s .stc0W (s.dispZ rp disp 2) (bytesOfWord (s.copReg cp d) 4) none ∧
      StoresCopPair (.stc0D rp d disp) s .stc0D (s.dispZ rp disp 2) cp d none)

/-- `i` loads the coprocessor registers of `list` from R`rp` upwards, the highest first; an empty list makes no access, and leaves any value in
the registers `all` and the pointer, with write-back or without (93_implementation_defined.md U40). -/
def LoadsCops (i : Instr) (s : State) (kind : LsKind) (cp : BitVec 3) (rp : RegNo) (wb : BitVec 1) (list all : BitVec 16) : Prop :=
  let regs := listAscending list
  let moved := s.getReg rp + BitVec.ofNat 32 (4 * regs.length)
  (list ≠ 0#16 → ∀ vs s1, ReadsAll kind (wordsFrom (s.getReg rp) regs.length) s vs s1 → Gives (exec i s) fun t =>
    (∀ q ∈ regs.reverse.zip vs, t.copReg cp q.1 = q.2) ∧ PointerAt i s t (if wb = 1#1 then some (rp, moved) else none) ∧
    CopFrame s s1 t cp regs (if wb = 1#1 then [rp] else [])) ∧
  (list = 0#16 → Gives (exec i s) fun t => CopFrame s s t cp (listAscending all) [rp])

/-- `i` stores the coprocessor registers of `list` below R`rp` with write-back, and from R`rp` upwards without it; an empty list makes no access,
and leaves any value in the pointer, with write-back or without (93_implementation_defined.md U40). -/
def StoresCops (i : Instr) (s : State) (kind : LsKind) (cp : BitVec 3) (rp : RegNo) (wb : BitVec 1) (list : BitVec 16) : Prop :=
  let moved := s.getReg rp - BitVec.ofNat 32 (4 * (listAscending list).length)
  (list ≠ 0#16 → Pushed i kind s s (listStores (s.getReg rp) wb list (s.copReg cp)) (if wb = 1#1 then [rp] else []) fun t =>
    PointerAt i s t (if wb = 1#1 then some (rp, moved) else none)) ∧
  (list = 0#16 → Gives (exec i s) fun t => CopFrame s s t cp [] [rp])

/-- The multiple transfers of a coprocessor that is there, and what their lists name; an empty list leaves any value in the pointer and in the
coprocessor registers that the instruction could write, and all else as it was (30_encoding.md R359, 47_data_transfer_stores_multiple.md R850,
48_system_coprocessor_java.md R966, R967, R976, R977). The words are taken with no other agent between them (`ReadsAll`, `ReachesAll`). -/
def Obligations.CoprocessorMultiple : Prop :=
  (∀ (list : BitVec 8) (i : Nat), i < 16 →
    (copPairs list).getLsbD i = list.getLsbD (i / 2) ∧ (copHigh list).getLsbD i = (decide (8 ≤ i) && list.getLsbD (i - 8)) ∧
    (copLow list).getLsbD i = (decide (i < 8) && list.getLsbD i)) ∧
  ∀ (s : State) (cp : BitVec 3) (rp : RegNo) (wb : BitVec 1) (list : BitVec 8), copReady s cp →
    LoadsCops (.ldcmD cp rp wb list) s .ldcmD cp rp wb (copPairs list) 0xFFFF#16 ∧
    LoadsCops (.ldcmW (.formHigh cp rp wb list)) s .ldcmW cp rp wb (copHigh list) 0xFF00#16 ∧
    LoadsCops (.ldcmW (.formLow cp rp wb list)) s .ldcmW cp rp wb (copLow list) 0x00FF#16 ∧
    StoresCops (.stcmD cp rp wb list) s .stcmD cp rp wb (copPairs list) ∧
    StoresCops (.stcmW (.formHigh cp rp wb list)) s .stcmW cp rp wb (copHigh list) ∧
    StoresCops (.stcmW (.formLow cp rp wb list)) s .stcmW cp rp wb (copLow list)

/-! ## Java -/

/-- The window that a write of JOSP opens in a machine of physical addresses: each instruction shrinks it by one, a change of flow or an incjosp
that runs in it is flagged, and so is one that lies in it in fetch order, behind the instruction `i` that has run and the instructions `js`
behind that, whether it comes to be executed or not (70_reset_and_hazards.md R1223; what is counted in the window is notes/assumptions/24.md). -/
def JospWindow (s : State) : Prop :=
  (∀ rs, listed s.cfg 22 = true → Gives (exec (.mtsr rs 22#8) s) fun t => t.java.josp = s.getReg rs ∧ t.hazardLeft = s.cfg.jospHazard) ∧
  (∀ (t : State) (i : Instr), writesJosp i = false → 0 < s.hazardLeft →
    (t.hazard i s).hazardLeft = s.hazardLeft - 1 ∧ (hazardous i = true → (t.hazard i s).hazardFlag = true)) ∧
  ∀ (t : State) (i j : Instr) (js : List Instr), Direct s → s.pc.getLsbD 0 = false → (js ++ [j]).all WellFormed = true → hazardous j = true →
    writesJosp i = true ∨ 0 < s.hazardLeft → js.length < (t.hazard i s).hazardLeft →
    readBytes s.mem (s.after i) ((js ++ [j]).flatMap encode).length = (js ++ [j]).flatMap encode →
    Backed s (s.after i) ((js ++ [j]).flatMap encode).length → (t.hazard i s).hazardFlag = true

/-- incjosp in the range of the stack pointer, popjc, pushjc and retj, where the extension is there: JOSP moves by 1 to 4 or -4 to -1, the local
variables are loaded or stored downwards from R9, and the return enters Java state at LR (48_system_coprocessor_java.md R990 to R993). That they
do so where SYSREG_IMPLEMENTED does not list those registers is the model's choice, notes/assumptions/38.md. The words of popjc and pushjc
are taken with no other agent between them (`ReadsAll`, `ReachesAll`). And the window after a write of JOSP. -/
def Obligations.JavaInstructions : Prop :=
  ∀ s : State, s.cfg.hasJava = true →
    JospWindow s ∧
    (∀ (imm : BitVec 3) (n : Int), (imm.toNat < 4 ∧ n = imm.toNat + 1) ∨ (4 ≤ imm.toNat ∧ n = imm.toNat - 8) →
      0 ≤ ((s.java.josp.toNat % 16 : Nat) : Int) + n → ((s.java.josp.toNat % 16 : Nat) : Int) + n ≤ 8 →
      Gives (exec (.incjosp imm) s) fun t =>
        t.java = { s.java with josp := s.java.josp + BitVec.ofInt 32 n } ∧ t.pc = s.pc + 2#32 ∧ SameRegs s t [] ∧ SameSr s t [] ∧
        SameMem s t ∧ SameSystem { s with java := t.java } t) ∧
    (∀ vs s1, ReadsAll .popjc ((List.range 8).map fun k => s.getReg 9#4 - BitVec.ofNat 32 (4 * k)) s vs s1 →
      Gives (exec .popjc s) fun t =>
        t.java.lv.toList = vs ∧ t.java = { s.java with lv := t.java.lv } ∧ t.pc = s.pc + 2#32 ∧ SameRegs s t [] ∧ SameSr s t [] ∧
        SameMem s t ∧ SameSystem { s1 with java := t.java } t) ∧
    Pushed .pushjc .pushjc s s (((List.range 8).map fun k => s.getReg 9#4 - BitVec.ofNat 32 (4 * k)).zip s.java.lv.toList) [] (fun t =>
      t.pc = s.pc + 2#32) ∧
    (Gives (exec .retj s) fun t =>
      t.pc = s.getReg 14#4 &&& 0xFFFFFFFE#32 ∧ t.srBit bitJ = true ∧ t.srBit bitR = false ∧
      t.srBit bitGM = (decide (s.mode ≠ 1#3) && s.srBit bitGM) ∧ SameSr s t [bitJ, bitR, bitGM] ∧ SameRegs s t [] ∧ SameMem s t ∧
      SameSystem s t)

/-! ## Packed instructions -/

/-- Lane `k` of `w` bits, as an unsigned and as a signed integer (49_simd_rmw.md R1001). -/
def uLane (w : Nat) (v : Word) (k : Nat) : Int := (v.extractLsb' (w * k) w).toNat
def sLane (w : Nat) (v : Word) (k : Nat) : Int := (v.extractLsb' (w * k) w).toInt

/-- `i` writes to R`d` a word of whose lanes `P` holds. -/
def SetsLanes (i : Instr) (s : State) (d : RegNo) (w : Nat) (P : Word → Nat → Prop) : Prop :=
  ∃ v : Word, (∀ k, w * k < 32 → P v k) ∧ Gives (exec i s) fun t => Writes i s t d v

/-- The lanes are the exact values `x`, kept to `w` bits. -/
def SetsWrapped (i : Instr) (s : State) (d : RegNo) (w : Nat) (x : Nat → Int) : Prop :=
  SetsLanes i s d w fun v k => uLane w v k = x k % 2 ^ w

/-- The lanes are `sat` of the exact values `x`, read by `lane`, and Q records a saturation. -/
def SetsSaturated (i : Instr) (s : State) (d : RegNo) (w : Nat) (lane : Nat → Word → Nat → Int) (sat : Nat → Int → Int) (x : Nat → Int) :
    Prop :=
  ∃ v : Word, (∀ k, w * k < 32 → lane w v k = sat w (x k)) ∧ Gives (exec i s) fun t =>
    Writes i s t d v ∧ (t.flagQ = true ↔ s.flagQ = true ∨ ∃ k, w * k < 32 ∧ sat w (x k) ≠ x k)

/-- Every packed instruction lane by lane, on exact integers: wrapped, halved, averaged, saturated, with crossed operands, as sum and
difference, shifted, selected with its comparisons as flags, summed, packed and unpacked (49_simd_rmw.md R1002 to R1030). That the saturating
ones set Q follows R1001 against 10_state.md R128, the model's reading, notes/assumptions/27.md. -/
def Obligations.PackedLanes : Prop :=
  ∀ (s : State) (d x y : RegNo), s.cfg.hasSimd = true →
    let ub (r : RegNo) := uLane 8 (s.getReg r)
    let sb (r : RegNo) := sLane 8 (s.getReg r)
    let uh (r : RegNo) := uLane 16 (s.getReg r)
    let sh (r : RegNo) := sLane 16 (s.getReg r)
    SetsWrapped (.paddB d x y) s d 8 (fun k => ub x k + ub y k) ∧ SetsWrapped (.paddH d x y) s d 16 (fun k => uh x k + uh y k) ∧
    SetsWrapped (.psubB d x y) s d 8 (fun k => ub x k - ub y k) ∧ SetsWrapped (.psubH d x y) s d 16 (fun k => uh x k - uh y k) ∧
    SetsWrapped (.paddxH d x y) s d 16 (fun k => uh x k + uh y (1 - k)) ∧
    SetsWrapped (.psubxH d x y) s d 16 (fun k => uh x k - uh y (1 - k)) ∧
    SetsLanes (.paddhUb d x y) s d 8 (fun v k => uLane 8 v k = (ub x k + ub y k) / 2) ∧
    SetsLanes (.paddhSh d x y) s d 16 (fun v k => sLane 16 v k = (sh x k + sh y k) / 2) ∧
    SetsLanes (.psubhUb d x y) s d 8 (fun v k => sLane 8 v k = (ub x k - ub y k) / 2) ∧
    SetsLanes (.psubhSh d x y) s d 16 (fun v k => sLane 16 v k = (sh x k - sh y k) / 2) ∧
    SetsLanes (.paddxhSh d x y) s d 16 (fun v k => sLane 16 v k = (sh x k + sh y (1 - k)) / 2) ∧
    SetsLanes (.psubxhSh d x y) s d 16 (fun v k => sLane 16 v k = (sh x k - sh y (1 - k)) / 2) ∧
    SetsLanes (.pavgUb d x y) s d 8 (fun v k => uLane 8 v k = (ub x k + ub y k + 1) / 2) ∧
    SetsLanes (.pavgSh d x y) s d 16 (fun v k => sLane 16 v k = (sh x k + sh y k + 1) / 2) ∧
    SetsSaturated (.paddsUb d x y) s d 8 uLane satSU (fun k => ub x k + ub y k) ∧
    SetsSaturated (.paddsSb d x y) s d 8 sLane satS (fun k => sb x k + sb y k) ∧
    SetsSaturated (.paddsUh d x y) s d 16 uLane satSU (fun k => uh x k + uh y k) ∧
    SetsSaturated (.paddsSh d x y) s d 16 sLane satS (fun k => sh x k + sh y k) ∧
    SetsSaturated (.psubsUb d x y) s d 8 uLane satSU (fun k => ub x k - ub y k) ∧
    SetsSaturated (.psubsSb d x y) s d 8 sLane satS (fun k => sb x k - sb y k) ∧
    SetsSaturated (.psubsUh d x y) s d 16 uLane satSU (fun k => uh x k - uh y k) ∧
    SetsSaturated (.psubsSh d x y) s d 16 sLane satS (fun k => sh x k - sh y k) ∧
    SetsSaturated (.paddxsUh d x y) s d 16 uLane satSU (fun k => uh x k + uh y (1 - k)) ∧
    SetsSaturated (.paddxsSh d x y) s d 16 sLane satS (fun k => sh x k + sh y (1 - k)) ∧
    SetsSaturated (.psubxsUh d x y) s d 16 uLane satSU (fun k => uh x k - uh y (1 - k)) ∧
    SetsSaturated (.psubxsSh d x y) s d 16 sLane satS (fun k => sh x k - sh y (1 - k)) ∧
    (∀ p q : BitVec 1,
      let ua := uh x p.toNat
      let uc := uh y q.toNat
      let sa := sh x p.toNat
      let sc := sh y q.toNat
      SetsWrapped (.paddsubH d x p y q) s d 16 (fun k => if k = 1 then ua + uc else ua - uc) ∧
      SetsWrapped (.psubaddH d x p y q) s d 16 (fun k => if k = 1 then ua - uc else ua + uc) ∧
      SetsLanes (.paddsubhSh d x p y q) s d 16 (fun v k => sLane 16 v k = (if k = 1 then sa + sc else sa - sc) / 2) ∧
      SetsLanes (.psubaddhSh d x p y q) s d 16 (fun v k => sLane 16 v k = (if k = 1 then sa - sc else sa + sc) / 2) ∧
      SetsSaturated (.paddsubsUh d x p y q) s d 16 uLane satSU (fun k => if k = 1 then ua + uc else ua - uc) ∧
      SetsSaturated (.paddsubsSh d x p y q) s d 16 sLane satS (fun k => if k = 1 then sa + sc else sa - sc) ∧
      SetsSaturated (.psubaddsUh d x p y q) s d 16 uLane satSU (fun k => if k = 1 then ua - uc else ua + uc) ∧
      SetsSaturated (.psubaddsSh d x p y q) s d 16 sLane satS (fun k => if k = 1 then sa - sc else sa + sc)) ∧
    (∀ n : BitVec 3,
      SetsLanes (.pasrB d x n) s d 8 (fun v k => sLane 8 v k = sb x k / 2 ^ n.toNat) ∧
      SetsLanes (.plsrB d x n) s d 8 (fun v k => uLane 8 v k = ub x k / 2 ^ n.toNat) ∧
      SetsWrapped (.plslB d x n) s d 8 (fun k => ub x k * 2 ^ n.toNat)) ∧
    (∀ n : BitVec 4,
      SetsLanes (.pasrH d x n) s d 16 (fun v k => sLane 16 v k = sh x k / 2 ^ n.toNat) ∧
      SetsLanes (.plsrH d x n) s d 16 (fun v k => uLane 16 v k = uh x k / 2 ^ n.toNat) ∧
      SetsWrapped (.plslH d x n) s d 16 (fun k => uh x k * 2 ^ n.toNat)) ∧
    SetsLanes (.pabsSb d x) s d 8 (fun v k => uLane 8 v k = (sb x k).natAbs) ∧
    SetsLanes (.pabsSh d x) s d 16 (fun v k => uLane 16 v k = (sh x k).natAbs) ∧
    SetsTo (.psad d x y) s d (fun v =>
      (v.toNat : Int) = (ub x 0 - ub y 0).natAbs + (ub x 1 - ub y 1).natAbs + (ub x 2 - ub y 2).natAbs + (ub x 3 - ub y 3).natAbs) ∧
    SetsSaturated (.packshUb d x y) s d 8 uLane satSU (fun k => if k < 2 then sh y k else sh x (k - 2)) ∧
    SetsSaturated (.packshSb d x y) s d 8 sLane satS (fun k => if k < 2 then sh y k else sh x (k - 2)) ∧
    SetsSaturated (.packwSh d x y) s d 16 sLane satS (fun k => if k = 1 then (s.getReg x).toInt else (s.getReg y).toInt) ∧
    (∀ p : BitVec 1,
      SetsLanes (.punpckubH d x p) s d 16 (fun v k => uLane 16 v k = ub x (2 * p.toNat + k)) ∧
      SetsLanes (.punpcksbH d x p) s d 16 (fun v k => sLane 16 v k = sb x (2 * p.toNat + k))) ∧
    SetsLanes (.pmaxUb d x y) s d 8 (fun v k => uLane 8 v k = max (ub x k) (ub y k)) ∧
    SetsLanes (.pminUb d x y) s d 8 (fun v k => uLane 8 v k = min (ub x k) (ub y k)) ∧
    SetsLanes (.pmaxSh d x y) s d 16 (fun v k => sLane 16 v k = max (sh x k) (sh y k)) ∧
    SetsLanes (.pminSh d x y) s d 16 (fun v k => sLane 16 v k = min (sh x k) (sh y k)) ∧
    (Gives (exec (.pmaxUb d x y) s) fun t => Flags t (ub y 0 < ub x 0) (ub y 1 < ub x 1) (ub y 2 < ub x 2) (ub y 3 < ub x 3)) ∧
    (Gives (exec (.pminUb d x y) s) fun t => Flags t (ub x 0 < ub y 0) (ub x 1 < ub y 1) (ub x 2 < ub y 2) (ub x 3 < ub y 3)) ∧
    (Gives (exec (.pmaxSh d x y) s) fun t => (t.flagZ = true ↔ sh y 0 < sh x 0) ∧ (t.flagC = true ↔ sh y 1 < sh x 1)) ∧
    (Gives (exec (.pminSh d x y) s) fun t => (t.flagZ = true ↔ sh x 0 < sh y 0) ∧ (t.flagC = true ↔ sh x 1 < sh y 1))

/-! ## Time and sleep -/

/-- How often the event that `conf` selects occurred in a step: ITLB misses and DTLB misses taken and instructions completed exactly, nothing
for a reserved code, and the step's input for the others (61_timers_counters_secure_state.md R1163; the last is notes/assumptions/22.md). -/
def Occurrences (conf : BitVec 6) (taken : Option Event) (completed : Bool) (input n : Nat) : Prop :=
  let itlb := ∃ va, taken = some (.itlbMiss va)
  let dtlb := ∃ va, taken = some (.dtlbMissRead va) ∨ taken = some (.dtlbMissWrite va)
  (conf = 3#6 → (itlb → n = 1) ∧ (¬ itlb → n = 0)) ∧ (conf = 4#6 → (dtlb → n = 1) ∧ (¬ dtlb → n = 0)) ∧
  (conf = 7#6 → n = if completed then 1 else 0) ∧ (26 ≤ conf.toNat → n = 0) ∧
  (conf ≠ 3#6 → conf ≠ 4#6 → conf ≠ 7#6 → conf.toNat < 26 → n = input)

/-- COUNT over `n` cycles, up to the match with COMPARE that raises the interrupt request; the clock cycle counter of the performance counters,
with and without its prescaler; the two event counters, each by the occurrences of the event its field of PCCR selects, with its overflow flag;
and a core that sleeps and accepts nothing waits (61_timers_counters_secure_state.md R1150, R1161 to R1163, R1180; when in the step the cycles
are counted is notes/assumptions/9.md; that a core of revision 3 may give CPUCR a part in the clearing of COUNT is 10_state.md R134; that
revision 0 clears it too is notes/assumptions/32.md; that counters count which SYSREG_IMPLEMENTED does not list is notes/assumptions/38.md). -/
def Obligations.TimeAndSleep : Prop :=
  (∀ (s : State) (n : Nat), s.timer.compare = 0#32 ∨ (∀ k, k < n → s.timer.count + BitVec.ofNat 32 k ≠ s.timer.compare) →
    (s.ticks n).timer = { s.timer with count := s.timer.count + BitVec.ofNat 32 n } ∧
    (s.timer.compare ≠ 0#32 → s.timer.count + BitVec.ofNat 32 n = s.timer.compare →
      (s.ticks (n + 1)).timer.compareIrq = true ∧
      (s.ticks (n + 1)).timer.count = if s.cfg.archRev.toNat < 3 ∨ (match s.cfg.cpucr with
        | .storage => s.cfg.countClear
        | .own => Config.cpucrClears s.ctl.cpucr) = true then 0#32 else s.timer.compare + 1#32)) ∧
  (∀ (s : State) (n : Nat), s.cfg.hasPerf = true →
    (s.perf.pccr.getLsbD 0 = false → (s.ticks n).perf = s.perf) ∧
    (s.perf.pccr.getLsbD 0 = true → s.perf.pccr.getLsbD 3 = false →
      (s.ticks n).perf.pccnt = s.perf.pccnt + BitVec.ofNat 32 n ∧
      ((s.ticks n).perf.pccr.getLsbD 8 = true ↔ s.perf.pccr.getLsbD 8 = true ∨ 2 ^ 32 ≤ s.perf.pccnt.toNat + n)) ∧
    (s.perf.pccr.getLsbD 0 = true → s.perf.pccr.getLsbD 3 = true →
      (s.ticks n).perf.pccnt = s.perf.pccnt + BitVec.ofNat 32 ((s.perf.prescaler.toNat + n) / 64))) ∧
  (∀ (s : State) (completed : Bool) (n0 n1 : Nat),
    (s.cfg.hasPerf = false ∨ s.perf.pccr.getLsbD 0 = false → s.countEvents completed = s) ∧
    (s.cfg.hasPerf = true → s.perf.pccr.getLsbD 0 = true →
      Occurrences (s.perf.pccr.extractLsb' 12 6) s.taken completed s.now.perf0 n0 →
      Occurrences (s.perf.pccr.extractLsb' 18 6) s.taken completed s.now.perf1 n1 →
      ∃ pccr, s.countEvents completed =
          { s with perf := { s.perf with pcnt0 := s.perf.pcnt0 + BitVec.ofNat 32 n0, pcnt1 := s.perf.pcnt1 + BitVec.ofNat 32 n1
                                         pccr := pccr } } ∧
        (pccr.getLsbD 9 = true ↔ s.perf.pccr.getLsbD 9 = true ∨ 2 ^ 32 ≤ s.perf.pcnt0.toNat + n0) ∧
        (pccr.getLsbD 10 = true ↔ s.perf.pccr.getLsbD 10 = true ∨ 2 ^ 32 ≤ s.perf.pcnt1.toNat + n1) ∧
        ∀ k, k < 32 → k ≠ 9 → k ≠ 10 → pccr.getLsbD k = s.perf.pccr.getLsbD k)) ∧
  (∀ (s : State) (op : BitVec 8), s.sleeping = some op → s.sample.now.reset = false → s.sample.ocdStopped = false →
    (s.sample.cfg.hasOcd && s.sample.now.ocdStop) = false → s.sample.pendingEvent = none → s.sample.breakAccepted = false →
    Gives (step s) fun t =>
      t.sleeping = s.sleeping ∧ t.pc = s.pc ∧ SameRegs s t [] ∧ SameSr s t [] ∧ SameMem s.sample t ∧
      (s.cfg.sleepStopsClock.contains op = true → t.timer = s.timer))
end

