-- ==== Sys2Proof/Laws/Memory.lean ====
section
/-! SUPPORT. Memory: the canonical form is kept by every operation, a byte reads back as it was written, and every other byte keeps its
value. -/

namespace Sys2Proof.Machine

/-! ## The canonical form -/

theorem Memory.wfFrom_cons {lo : Nat} {c : Host.Cell} {m : List Host.Cell} :
    Memory.wfFrom lo (c :: m) = true ↔ lo ≤ c.1 ∧ c.1 < 2 ^ 32 ∧ c.2 ≠ Memory.unlisted ∧ Memory.wfFrom (c.1 + 1) m = true := by
  simp [Memory.wfFrom, and_assoc]

/-- A canonical list from `lo` is one from any lower address. -/
theorem Memory.wfFrom_mono {lo lo' : Nat} {m : List Host.Cell} (h : Memory.wfFrom lo m = true) (hl : lo' ≤ lo) :
    Memory.wfFrom lo' m = true := by
  cases m with
  | nil => rfl
  | cons c m =>
    rw [Memory.wfFrom_cons] at h ⊢
    exact ⟨by omega, h.2⟩

/-- Addresses below a canonical list's bound are not listed. -/
theorem Memory.read_below {lo x : Nat} {m : List Host.Cell} (h : Memory.wfFrom lo m = true) (hx : x < lo) :
    Memory.read m x = Memory.unlisted := by
  induction m generalizing lo with
  | nil => rfl
  | cons c m ih =>
    rw [Memory.wfFrom_cons] at h
    rw [Memory.read, if_neg (by omega)]
    exact ih h.2.2.2 (by omega)

theorem Memory.write_wfFrom {lo x : Nat} {v : Byte} {m : List Host.Cell} (h : Memory.wfFrom lo m = true) (hl : lo ≤ x) (hx : x < 2 ^ 32) :
    Memory.wfFrom lo (Memory.write m x v) = true := by
  induction m generalizing lo with
  | nil =>
    rw [Memory.write]
    split
    · rfl
    · exact Memory.wfFrom_cons.2 ⟨hl, hx, ‹_›, rfl⟩
  | cons c m ih =>
    have h' := Memory.wfFrom_cons.1 h
    rw [Memory.write]
    split
    · split
      · exact h
      · exact Memory.wfFrom_cons.2 ⟨hl, hx, ‹_›, Memory.wfFrom_cons.2 ⟨by omega, h'.2⟩⟩
    · split
      · split
        · exact Memory.wfFrom_mono h'.2.2.2 (by omega)
        · subst x; exact Memory.wfFrom_cons.2 ⟨hl, hx, ‹_›, h'.2.2.2⟩
      · exact Memory.wfFrom_cons.2 ⟨h'.1, h'.2.1, h'.2.2.1, ih h'.2.2.2 (by omega)⟩

/-- Writing a byte keeps the canonical form. -/
theorem Memory.write_wf {m : List Host.Cell} {x : Nat} {v : Byte} (h : Memory.wf m = true) (hx : x < 2 ^ 32) :
    Memory.wf (Memory.write m x v) = true :=
  Memory.write_wfFrom h (Nat.zero_le _) hx

theorem Memory.read_write_from {lo x y : Nat} {v : Byte} {m : List Host.Cell} (h : Memory.wfFrom lo m = true) :
    Memory.read (Memory.write m x v) y = if y = x then v else Memory.read m y := by
  induction m generalizing lo with
  | nil =>
    rw [Memory.write]
    split
    · simp [Memory.read, *]
    · by_cases hy : y = x
      · simp [Memory.read, hy]
      · simp [Memory.read, hy, Ne.symm hy]
  | cons c m ih =>
    have h' := Memory.wfFrom_cons.1 h
    have below := fun z (hz : z < c.1 + 1) => Memory.read_below h'.2.2.2 hz
    rw [Memory.write]
    split
    · split
      · split
        · subst y; rw [Memory.read, if_neg (by omega), below x (by omega)]; simp [*]
        · rfl
      · by_cases hy : y = x
        · simp [hy, Memory.read]
        · simp [Memory.read, Ne.symm hy, hy]
    · split
      · subst x
        split
        · by_cases hy : y = c.1
          · rw [if_pos hy, hy, below c.1 (by omega)]; simp [*]
          · simp [hy, Memory.read, Ne.symm hy]
        · by_cases hy : y = c.1
          · simp [hy, Memory.read]
          · simp [hy, Memory.read, Ne.symm hy]
      · rw [Memory.read, ih h'.2.2.2, Memory.read]
        by_cases hc : c.1 = y
        · rw [if_pos hc, if_neg (by omega), if_pos hc]
        · rw [if_neg hc, if_neg hc]

/-- A byte reads back as it was written, and every other byte keeps its value. -/
theorem Memory.read_write {x y : Nat} {v : Byte} {m : List Host.Cell} (h : Memory.wf m = true) :
    Memory.read (Memory.write m x v) y = if y = x then v else Memory.read m y :=
  Memory.read_write_from h

/-- So do other agents' writes. -/
theorem Memory.writeAll_wf {m : List Host.Cell} (ws : List (Word × Byte)) (h : Memory.wf m = true) : Memory.wf (Memory.writeAll m ws) = true := by
  induction ws generalizing m with
  | nil => exact h
  | cons w ws ih => exact ih (Memory.write_wf h w.1.isLt)

/-! ## Several bytes -/

theorem writeBytes_wf {m : List Host.Cell} {pa : Word} {bs : List Byte} (h : Memory.wf m = true) :
    Memory.wf (writeBytes m pa bs) = true := by
  induction bs generalizing m pa with
  | nil => exact h
  | cons b bs ih => exact ih (Memory.write_wf h pa.isLt)

theorem writeTransfers_wf {m : List Host.Cell} {ps : List (Word × Nat)} {bs : List Byte} (h : Memory.wf m = true) :
    Memory.wf (writeTransfers m ps bs) = true := by
  induction ps generalizing m bs with
  | nil => exact h
  | cons p ps ih => exact ih (writeBytes_wf h)

/-- The bytes of a range that starts at `pa` are the addresses `pa + i`. -/
def inRange (pa : Word) (n : Nat) (a : Word) : Prop := ∃ i, i < n ∧ a = pa + BitVec.ofNat 32 i

/-- A byte outside the range written keeps its value. -/
theorem read_writeBytes_outside {m : List Host.Cell} {pa a : Word} {bs : List Byte} (h : Memory.wf m = true)
    (ha : ¬ inRange pa bs.length a) : Memory.read (writeBytes m pa bs) a.toNat = Memory.read m a.toNat := by
  induction bs generalizing m pa with
  | nil => rfl
  | cons b bs ih =>
    have hne : a ≠ pa := fun e => ha ⟨0, by simp, by simp [e]⟩
    rw [writeBytes, ih (Memory.write_wf h pa.isLt), Memory.read_write h, if_neg (fun e => hne (BitVec.eq_of_toNat_eq e))]
    rintro ⟨i, hi, rfl⟩
    refine ha ⟨i + 1, by simpa using hi, ?_⟩
    rw [BitVec.ofNat_add, BitVec.add_assoc, BitVec.add_comm (BitVec.ofNat 32 i)]

/-- The bytes written read back, where the range does not run into itself. -/
theorem readBytes_writeBytes {m : List Host.Cell} {pa : Word} {bs : List Byte} (h : Memory.wf m = true) (hn : bs.length ≤ 2 ^ 32) :
    readBytes (writeBytes m pa bs) pa bs.length = bs := by
  induction bs generalizing m pa with
  | nil => rfl
  | cons b bs ih =>
    have hw := Memory.write_wf (v := b) h pa.isLt
    simp only [List.length_cons] at hn
    rw [writeBytes, List.length_cons, readBytes, ih hw (by omega), read_writeBytes_outside hw, Memory.read_write h, if_pos rfl]
    rintro ⟨i, hi, e⟩
    have e' : (pa.toNat + 1 + i) % 2 ^ 32 = pa.toNat := by
      have := congrArg BitVec.toNat e
      simp only [BitVec.toNat_add, BitVec.toNat_ofNat, Nat.add_mod, Nat.mod_mod] at this
      simp only [Nat.add_mod, Nat.mod_mod] at this ⊢
      exact this.symm
    have := pa.isLt
    omega

/-- Writing outside every transfer's range leaves a byte alone. -/
theorem read_writeTransfers_outside {m : List Host.Cell} {ps : List (Word × Nat)} {bs : List Byte} {a : Word} (h : Memory.wf m = true)
    (ha : ∀ p ∈ ps, ¬ inRange p.1 p.2 a) : Memory.read (writeTransfers m ps bs) a.toNat = Memory.read m a.toNat := by
  induction ps generalizing m bs with
  | nil => rfl
  | cons p ps ih =>
    obtain ⟨pa, n⟩ := p
    have hp : ¬ inRange pa n a := ha (pa, n) (by simp)
    rw [writeTransfers, ih (writeBytes_wf h) (fun q hq => ha q (by simp [hq])), read_writeBytes_outside h]
    rintro ⟨i, hi, e⟩
    exact hp ⟨i, by simp at hi; omega, e⟩

end Sys2Proof.Machine
end

