-- ==== Sys2Proof/Laws/State.lean ====
section
/-! SUPPORT. What each update of the state leaves of each field: one lemma per field per update, so that no proof unfolds a record update. -/

set_option Elab.async false

namespace Sys2Proof.Machine

/-! `advance` -/

@[simp] theorem State.advance_cfg (s : State) (n : Word) : (s.advance n).cfg = s.cfg := rfl
@[simp] theorem State.advance_shared (s : State) (n : Word) : (s.advance n).shared = s.shared := rfl
@[simp] theorem State.advance_int0 (s : State) (n : Word) : (s.advance n).int0 = s.int0 := rfl
@[simp] theorem State.advance_int1 (s : State) (n : Word) : (s.advance n).int1 = s.int1 := rfl
@[simp] theorem State.advance_int2 (s : State) (n : Word) : (s.advance n).int2 = s.int2 := rfl
@[simp] theorem State.advance_int3 (s : State) (n : Word) : (s.advance n).int3 = s.int3 := rfl
@[simp] theorem State.advance_spApp (s : State) (n : Word) : (s.advance n).spApp = s.spApp := rfl
@[simp] theorem State.advance_spSys (s : State) (n : Word) : (s.advance n).spSys = s.spSys := rfl
@[simp] theorem State.advance_spSec (s : State) (n : Word) : (s.advance n).spSec = s.spSec := rfl
@[simp] theorem State.advance_pc (s : State) (n : Word) : (s.advance n).pc = s.pc + n := rfl
@[simp] theorem State.advance_sr (s : State) (n : Word) : (s.advance n).sr = s.sr := rfl
@[simp] theorem State.advance_ctl (s : State) (n : Word) : (s.advance n).ctl = s.ctl := rfl
@[simp] theorem State.advance_ret (s : State) (n : Word) : (s.advance n).ret = s.ret := rfl
@[simp] theorem State.advance_java (s : State) (n : Word) : (s.advance n).java = s.java := rfl
@[simp] theorem State.advance_timer (s : State) (n : Word) : (s.advance n).timer = s.timer := rfl
@[simp] theorem State.advance_perf (s : State) (n : Word) : (s.advance n).perf = s.perf := rfl
@[simp] theorem State.advance_mmu (s : State) (n : Word) : (s.advance n).mmu = s.mmu := rfl
@[simp] theorem State.advance_mpu (s : State) (n : Word) : (s.advance n).mpu = s.mpu := rfl
@[simp] theorem State.advance_sec (s : State) (n : Word) : (s.advance n).sec = s.sec := rfl
@[simp] theorem State.advance_impl (s : State) (n : Word) : (s.advance n).impl = s.impl := rfl
@[simp] theorem State.advance_cop (s : State) (n : Word) : (s.advance n).cop = s.cop := rfl
@[simp] theorem State.advance_debug (s : State) (n : Word) : (s.advance n).debug = s.debug := rfl
@[simp] theorem State.advance_busErr (s : State) (n : Word) : (s.advance n).busErr = s.busErr := rfl
@[simp] theorem State.advance_sleeping (s : State) (n : Word) : (s.advance n).sleeping = s.sleeping := rfl
@[simp] theorem State.advance_ocdStopped (s : State) (n : Word) : (s.advance n).ocdStopped = s.ocdStopped := rfl
@[simp] theorem State.advance_busErrDue (s : State) (n : Word) : (s.advance n).busErrDue = s.busErrDue := rfl
@[simp] theorem State.advance_hazardLeft (s : State) (n : Word) : (s.advance n).hazardLeft = s.hazardLeft := rfl
@[simp] theorem State.advance_hazardFlag (s : State) (n : Word) : (s.advance n).hazardFlag = s.hazardFlag := rfl
@[simp] theorem State.advance_mem (s : State) (n : Word) : (s.advance n).mem = s.mem := rfl
@[simp] theorem State.advance_now (s : State) (n : Word) : (s.advance n).now = s.now := rfl
@[simp] theorem State.advance_env (s : State) (n : Word) : (s.advance n).env = s.env := rfl
@[simp] theorem State.advance_freeIdx (s : State) (n : Word) : (s.advance n).freeIdx = s.freeIdx := rfl
@[simp] theorem State.advance_taken (s : State) (n : Word) : (s.advance n).taken = s.taken := rfl

/-! `jump` -/

@[simp] theorem State.jump_cfg (s : State) (t : Word) : (s.jump t).cfg = s.cfg := rfl
@[simp] theorem State.jump_shared (s : State) (t : Word) : (s.jump t).shared = s.shared := rfl
@[simp] theorem State.jump_int0 (s : State) (t : Word) : (s.jump t).int0 = s.int0 := rfl
@[simp] theorem State.jump_int1 (s : State) (t : Word) : (s.jump t).int1 = s.int1 := rfl
@[simp] theorem State.jump_int2 (s : State) (t : Word) : (s.jump t).int2 = s.int2 := rfl
@[simp] theorem State.jump_int3 (s : State) (t : Word) : (s.jump t).int3 = s.int3 := rfl
@[simp] theorem State.jump_spApp (s : State) (t : Word) : (s.jump t).spApp = s.spApp := rfl
@[simp] theorem State.jump_spSys (s : State) (t : Word) : (s.jump t).spSys = s.spSys := rfl
@[simp] theorem State.jump_spSec (s : State) (t : Word) : (s.jump t).spSec = s.spSec := rfl
@[simp] theorem State.jump_pc (s : State) (t : Word) : (s.jump t).pc = t &&& 0xFFFFFFFE#32 := rfl
@[simp] theorem State.jump_sr (s : State) (t : Word) : (s.jump t).sr = s.sr := rfl
@[simp] theorem State.jump_ctl (s : State) (t : Word) : (s.jump t).ctl = s.ctl := rfl
@[simp] theorem State.jump_ret (s : State) (t : Word) : (s.jump t).ret = s.ret := rfl
@[simp] theorem State.jump_java (s : State) (t : Word) : (s.jump t).java = s.java := rfl
@[simp] theorem State.jump_timer (s : State) (t : Word) : (s.jump t).timer = s.timer := rfl
@[simp] theorem State.jump_perf (s : State) (t : Word) : (s.jump t).perf = s.perf := rfl
@[simp] theorem State.jump_mmu (s : State) (t : Word) : (s.jump t).mmu = s.mmu := rfl
@[simp] theorem State.jump_mpu (s : State) (t : Word) : (s.jump t).mpu = s.mpu := rfl
@[simp] theorem State.jump_sec (s : State) (t : Word) : (s.jump t).sec = s.sec := rfl
@[simp] theorem State.jump_impl (s : State) (t : Word) : (s.jump t).impl = s.impl := rfl
@[simp] theorem State.jump_cop (s : State) (t : Word) : (s.jump t).cop = s.cop := rfl
@[simp] theorem State.jump_debug (s : State) (t : Word) : (s.jump t).debug = s.debug := rfl
@[simp] theorem State.jump_busErr (s : State) (t : Word) : (s.jump t).busErr = s.busErr := rfl
@[simp] theorem State.jump_sleeping (s : State) (t : Word) : (s.jump t).sleeping = s.sleeping := rfl
@[simp] theorem State.jump_ocdStopped (s : State) (t : Word) : (s.jump t).ocdStopped = s.ocdStopped := rfl
@[simp] theorem State.jump_busErrDue (s : State) (t : Word) : (s.jump t).busErrDue = s.busErrDue := rfl
@[simp] theorem State.jump_hazardLeft (s : State) (t : Word) : (s.jump t).hazardLeft = s.hazardLeft := rfl
@[simp] theorem State.jump_hazardFlag (s : State) (t : Word) : (s.jump t).hazardFlag = s.hazardFlag := rfl
@[simp] theorem State.jump_mem (s : State) (t : Word) : (s.jump t).mem = s.mem := rfl
@[simp] theorem State.jump_now (s : State) (t : Word) : (s.jump t).now = s.now := rfl
@[simp] theorem State.jump_env (s : State) (t : Word) : (s.jump t).env = s.env := rfl
@[simp] theorem State.jump_freeIdx (s : State) (t : Word) : (s.jump t).freeIdx = s.freeIdx := rfl
@[simp] theorem State.jump_taken (s : State) (t : Word) : (s.jump t).taken = s.taken := rfl

/-! `setSrBit` -/

@[simp] theorem State.setSrBit_cfg (s : State) (n : Nat) (b : Bool) : (s.setSrBit n b).cfg = s.cfg := rfl
@[simp] theorem State.setSrBit_shared (s : State) (n : Nat) (b : Bool) : (s.setSrBit n b).shared = s.shared := rfl
@[simp] theorem State.setSrBit_int0 (s : State) (n : Nat) (b : Bool) : (s.setSrBit n b).int0 = s.int0 := rfl
@[simp] theorem State.setSrBit_int1 (s : State) (n : Nat) (b : Bool) : (s.setSrBit n b).int1 = s.int1 := rfl
@[simp] theorem State.setSrBit_int2 (s : State) (n : Nat) (b : Bool) : (s.setSrBit n b).int2 = s.int2 := rfl
@[simp] theorem State.setSrBit_int3 (s : State) (n : Nat) (b : Bool) : (s.setSrBit n b).int3 = s.int3 := rfl
@[simp] theorem State.setSrBit_spApp (s : State) (n : Nat) (b : Bool) : (s.setSrBit n b).spApp = s.spApp := rfl
@[simp] theorem State.setSrBit_spSys (s : State) (n : Nat) (b : Bool) : (s.setSrBit n b).spSys = s.spSys := rfl
@[simp] theorem State.setSrBit_spSec (s : State) (n : Nat) (b : Bool) : (s.setSrBit n b).spSec = s.spSec := rfl
@[simp] theorem State.setSrBit_pc (s : State) (n : Nat) (b : Bool) : (s.setSrBit n b).pc = s.pc := rfl
@[simp] theorem State.setSrBit_sr (s : State) (n : Nat) (b : Bool) : (s.setSrBit n b).sr = setBit s.sr n b := rfl
@[simp] theorem State.setSrBit_ctl (s : State) (n : Nat) (b : Bool) : (s.setSrBit n b).ctl = s.ctl := rfl
@[simp] theorem State.setSrBit_ret (s : State) (n : Nat) (b : Bool) : (s.setSrBit n b).ret = s.ret := rfl
@[simp] theorem State.setSrBit_java (s : State) (n : Nat) (b : Bool) : (s.setSrBit n b).java = s.java := rfl
@[simp] theorem State.setSrBit_timer (s : State) (n : Nat) (b : Bool) : (s.setSrBit n b).timer = s.timer := rfl
@[simp] theorem State.setSrBit_perf (s : State) (n : Nat) (b : Bool) : (s.setSrBit n b).perf = s.perf := rfl
@[simp] theorem State.setSrBit_mmu (s : State) (n : Nat) (b : Bool) : (s.setSrBit n b).mmu = s.mmu := rfl
@[simp] theorem State.setSrBit_mpu (s : State) (n : Nat) (b : Bool) : (s.setSrBit n b).mpu = s.mpu := rfl
@[simp] theorem State.setSrBit_sec (s : State) (n : Nat) (b : Bool) : (s.setSrBit n b).sec = s.sec := rfl
@[simp] theorem State.setSrBit_impl (s : State) (n : Nat) (b : Bool) : (s.setSrBit n b).impl = s.impl := rfl
@[simp] theorem State.setSrBit_cop (s : State) (n : Nat) (b : Bool) : (s.setSrBit n b).cop = s.cop := rfl
@[simp] theorem State.setSrBit_debug (s : State) (n : Nat) (b : Bool) : (s.setSrBit n b).debug = s.debug := rfl
@[simp] theorem State.setSrBit_busErr (s : State) (n : Nat) (b : Bool) : (s.setSrBit n b).busErr = s.busErr := rfl
@[simp] theorem State.setSrBit_sleeping (s : State) (n : Nat) (b : Bool) : (s.setSrBit n b).sleeping = s.sleeping := rfl
@[simp] theorem State.setSrBit_ocdStopped (s : State) (n : Nat) (b : Bool) : (s.setSrBit n b).ocdStopped = s.ocdStopped := rfl
@[simp] theorem State.setSrBit_busErrDue (s : State) (n : Nat) (b : Bool) : (s.setSrBit n b).busErrDue = s.busErrDue := rfl
@[simp] theorem State.setSrBit_hazardLeft (s : State) (n : Nat) (b : Bool) : (s.setSrBit n b).hazardLeft = s.hazardLeft := rfl
@[simp] theorem State.setSrBit_hazardFlag (s : State) (n : Nat) (b : Bool) : (s.setSrBit n b).hazardFlag = s.hazardFlag := rfl
@[simp] theorem State.setSrBit_mem (s : State) (n : Nat) (b : Bool) : (s.setSrBit n b).mem = s.mem := rfl
@[simp] theorem State.setSrBit_now (s : State) (n : Nat) (b : Bool) : (s.setSrBit n b).now = s.now := rfl
@[simp] theorem State.setSrBit_env (s : State) (n : Nat) (b : Bool) : (s.setSrBit n b).env = s.env := rfl
@[simp] theorem State.setSrBit_freeIdx (s : State) (n : Nat) (b : Bool) : (s.setSrBit n b).freeIdx = s.freeIdx := rfl
@[simp] theorem State.setSrBit_taken (s : State) (n : Nat) (b : Bool) : (s.setSrBit n b).taken = s.taken := rfl

/-! `setFlags` -/

@[simp] theorem State.setFlags_cfg (s : State) (u : FlagUpdate) : (s.setFlags u).cfg = s.cfg := rfl
@[simp] theorem State.setFlags_shared (s : State) (u : FlagUpdate) : (s.setFlags u).shared = s.shared := rfl
@[simp] theorem State.setFlags_int0 (s : State) (u : FlagUpdate) : (s.setFlags u).int0 = s.int0 := rfl
@[simp] theorem State.setFlags_int1 (s : State) (u : FlagUpdate) : (s.setFlags u).int1 = s.int1 := rfl
@[simp] theorem State.setFlags_int2 (s : State) (u : FlagUpdate) : (s.setFlags u).int2 = s.int2 := rfl
@[simp] theorem State.setFlags_int3 (s : State) (u : FlagUpdate) : (s.setFlags u).int3 = s.int3 := rfl
@[simp] theorem State.setFlags_spApp (s : State) (u : FlagUpdate) : (s.setFlags u).spApp = s.spApp := rfl
@[simp] theorem State.setFlags_spSys (s : State) (u : FlagUpdate) : (s.setFlags u).spSys = s.spSys := rfl
@[simp] theorem State.setFlags_spSec (s : State) (u : FlagUpdate) : (s.setFlags u).spSec = s.spSec := rfl
@[simp] theorem State.setFlags_pc (s : State) (u : FlagUpdate) : (s.setFlags u).pc = s.pc := rfl
@[simp] theorem State.setFlags_sr (s : State) (u : FlagUpdate) : (s.setFlags u).sr = applyFlags s.sr u := rfl
@[simp] theorem State.setFlags_ctl (s : State) (u : FlagUpdate) : (s.setFlags u).ctl = s.ctl := rfl
@[simp] theorem State.setFlags_ret (s : State) (u : FlagUpdate) : (s.setFlags u).ret = s.ret := rfl
@[simp] theorem State.setFlags_java (s : State) (u : FlagUpdate) : (s.setFlags u).java = s.java := rfl
@[simp] theorem State.setFlags_timer (s : State) (u : FlagUpdate) : (s.setFlags u).timer = s.timer := rfl
@[simp] theorem State.setFlags_perf (s : State) (u : FlagUpdate) : (s.setFlags u).perf = s.perf := rfl
@[simp] theorem State.setFlags_mmu (s : State) (u : FlagUpdate) : (s.setFlags u).mmu = s.mmu := rfl
@[simp] theorem State.setFlags_mpu (s : State) (u : FlagUpdate) : (s.setFlags u).mpu = s.mpu := rfl
@[simp] theorem State.setFlags_sec (s : State) (u : FlagUpdate) : (s.setFlags u).sec = s.sec := rfl
@[simp] theorem State.setFlags_impl (s : State) (u : FlagUpdate) : (s.setFlags u).impl = s.impl := rfl
@[simp] theorem State.setFlags_cop (s : State) (u : FlagUpdate) : (s.setFlags u).cop = s.cop := rfl
@[simp] theorem State.setFlags_debug (s : State) (u : FlagUpdate) : (s.setFlags u).debug = s.debug := rfl
@[simp] theorem State.setFlags_busErr (s : State) (u : FlagUpdate) : (s.setFlags u).busErr = s.busErr := rfl
@[simp] theorem State.setFlags_sleeping (s : State) (u : FlagUpdate) : (s.setFlags u).sleeping = s.sleeping := rfl
@[simp] theorem State.setFlags_ocdStopped (s : State) (u : FlagUpdate) : (s.setFlags u).ocdStopped = s.ocdStopped := rfl
@[simp] theorem State.setFlags_busErrDue (s : State) (u : FlagUpdate) : (s.setFlags u).busErrDue = s.busErrDue := rfl
@[simp] theorem State.setFlags_hazardLeft (s : State) (u : FlagUpdate) : (s.setFlags u).hazardLeft = s.hazardLeft := rfl
@[simp] theorem State.setFlags_hazardFlag (s : State) (u : FlagUpdate) : (s.setFlags u).hazardFlag = s.hazardFlag := rfl
@[simp] theorem State.setFlags_mem (s : State) (u : FlagUpdate) : (s.setFlags u).mem = s.mem := rfl
@[simp] theorem State.setFlags_now (s : State) (u : FlagUpdate) : (s.setFlags u).now = s.now := rfl
@[simp] theorem State.setFlags_env (s : State) (u : FlagUpdate) : (s.setFlags u).env = s.env := rfl
@[simp] theorem State.setFlags_freeIdx (s : State) (u : FlagUpdate) : (s.setFlags u).freeIdx = s.freeIdx := rfl
@[simp] theorem State.setFlags_taken (s : State) (u : FlagUpdate) : (s.setFlags u).taken = s.taken := rfl

/-! `writeSr` -/

@[simp] theorem State.writeSr_cfg (s : State) (v : Word) : (s.writeSr v).cfg = s.cfg := rfl
@[simp] theorem State.writeSr_shared (s : State) (v : Word) : (s.writeSr v).shared = s.shared := rfl
@[simp] theorem State.writeSr_int0 (s : State) (v : Word) : (s.writeSr v).int0 = s.int0 := rfl
@[simp] theorem State.writeSr_int1 (s : State) (v : Word) : (s.writeSr v).int1 = s.int1 := rfl
@[simp] theorem State.writeSr_int2 (s : State) (v : Word) : (s.writeSr v).int2 = s.int2 := rfl
@[simp] theorem State.writeSr_int3 (s : State) (v : Word) : (s.writeSr v).int3 = s.int3 := rfl
@[simp] theorem State.writeSr_spApp (s : State) (v : Word) : (s.writeSr v).spApp = s.spApp := rfl
@[simp] theorem State.writeSr_spSys (s : State) (v : Word) : (s.writeSr v).spSys = s.spSys := rfl
@[simp] theorem State.writeSr_spSec (s : State) (v : Word) : (s.writeSr v).spSec = s.spSec := rfl
@[simp] theorem State.writeSr_pc (s : State) (v : Word) : (s.writeSr v).pc = s.pc := rfl
@[simp] theorem State.writeSr_sr (s : State) (v : Word) : (s.writeSr v).sr = setBit (v &&& srImplemented) bitSS (s.srBit bitSS) := rfl
@[simp] theorem State.writeSr_ctl (s : State) (v : Word) : (s.writeSr v).ctl = s.ctl := rfl
@[simp] theorem State.writeSr_ret (s : State) (v : Word) : (s.writeSr v).ret = s.ret := rfl
@[simp] theorem State.writeSr_java (s : State) (v : Word) : (s.writeSr v).java = s.java := rfl
@[simp] theorem State.writeSr_timer (s : State) (v : Word) : (s.writeSr v).timer = s.timer := rfl
@[simp] theorem State.writeSr_perf (s : State) (v : Word) : (s.writeSr v).perf = s.perf := rfl
@[simp] theorem State.writeSr_mmu (s : State) (v : Word) : (s.writeSr v).mmu = s.mmu := rfl
@[simp] theorem State.writeSr_mpu (s : State) (v : Word) : (s.writeSr v).mpu = s.mpu := rfl
@[simp] theorem State.writeSr_sec (s : State) (v : Word) : (s.writeSr v).sec = s.sec := rfl
@[simp] theorem State.writeSr_impl (s : State) (v : Word) : (s.writeSr v).impl = s.impl := rfl
@[simp] theorem State.writeSr_cop (s : State) (v : Word) : (s.writeSr v).cop = s.cop := rfl
@[simp] theorem State.writeSr_debug (s : State) (v : Word) : (s.writeSr v).debug = s.debug := rfl
@[simp] theorem State.writeSr_busErr (s : State) (v : Word) : (s.writeSr v).busErr = s.busErr := rfl
@[simp] theorem State.writeSr_sleeping (s : State) (v : Word) : (s.writeSr v).sleeping = s.sleeping := rfl
@[simp] theorem State.writeSr_ocdStopped (s : State) (v : Word) : (s.writeSr v).ocdStopped = s.ocdStopped := rfl
@[simp] theorem State.writeSr_busErrDue (s : State) (v : Word) : (s.writeSr v).busErrDue = s.busErrDue := rfl
@[simp] theorem State.writeSr_hazardLeft (s : State) (v : Word) : (s.writeSr v).hazardLeft = s.hazardLeft := rfl
@[simp] theorem State.writeSr_hazardFlag (s : State) (v : Word) : (s.writeSr v).hazardFlag = s.hazardFlag := rfl
@[simp] theorem State.writeSr_mem (s : State) (v : Word) : (s.writeSr v).mem = s.mem := rfl
@[simp] theorem State.writeSr_now (s : State) (v : Word) : (s.writeSr v).now = s.now := rfl
@[simp] theorem State.writeSr_env (s : State) (v : Word) : (s.writeSr v).env = s.env := rfl
@[simp] theorem State.writeSr_freeIdx (s : State) (v : Word) : (s.writeSr v).freeIdx = s.freeIdx := rfl
@[simp] theorem State.writeSr_taken (s : State) (v : Word) : (s.writeSr v).taken = s.taken := rfl

/-! `drawFree` -/

@[simp] theorem State.drawFree_cfg (s : State) (n : Nat) : (s.drawFree n).cfg = s.cfg := rfl
@[simp] theorem State.drawFree_shared (s : State) (n : Nat) : (s.drawFree n).shared = s.shared := rfl
@[simp] theorem State.drawFree_int0 (s : State) (n : Nat) : (s.drawFree n).int0 = s.int0 := rfl
@[simp] theorem State.drawFree_int1 (s : State) (n : Nat) : (s.drawFree n).int1 = s.int1 := rfl
@[simp] theorem State.drawFree_int2 (s : State) (n : Nat) : (s.drawFree n).int2 = s.int2 := rfl
@[simp] theorem State.drawFree_int3 (s : State) (n : Nat) : (s.drawFree n).int3 = s.int3 := rfl
@[simp] theorem State.drawFree_spApp (s : State) (n : Nat) : (s.drawFree n).spApp = s.spApp := rfl
@[simp] theorem State.drawFree_spSys (s : State) (n : Nat) : (s.drawFree n).spSys = s.spSys := rfl
@[simp] theorem State.drawFree_spSec (s : State) (n : Nat) : (s.drawFree n).spSec = s.spSec := rfl
@[simp] theorem State.drawFree_pc (s : State) (n : Nat) : (s.drawFree n).pc = s.pc := rfl
@[simp] theorem State.drawFree_sr (s : State) (n : Nat) : (s.drawFree n).sr = s.sr := rfl
@[simp] theorem State.drawFree_ctl (s : State) (n : Nat) : (s.drawFree n).ctl = s.ctl := rfl
@[simp] theorem State.drawFree_ret (s : State) (n : Nat) : (s.drawFree n).ret = s.ret := rfl
@[simp] theorem State.drawFree_java (s : State) (n : Nat) : (s.drawFree n).java = s.java := rfl
@[simp] theorem State.drawFree_timer (s : State) (n : Nat) : (s.drawFree n).timer = s.timer := rfl
@[simp] theorem State.drawFree_perf (s : State) (n : Nat) : (s.drawFree n).perf = s.perf := rfl
@[simp] theorem State.drawFree_mmu (s : State) (n : Nat) : (s.drawFree n).mmu = s.mmu := rfl
@[simp] theorem State.drawFree_mpu (s : State) (n : Nat) : (s.drawFree n).mpu = s.mpu := rfl
@[simp] theorem State.drawFree_sec (s : State) (n : Nat) : (s.drawFree n).sec = s.sec := rfl
@[simp] theorem State.drawFree_impl (s : State) (n : Nat) : (s.drawFree n).impl = s.impl := rfl
@[simp] theorem State.drawFree_cop (s : State) (n : Nat) : (s.drawFree n).cop = s.cop := rfl
@[simp] theorem State.drawFree_debug (s : State) (n : Nat) : (s.drawFree n).debug = s.debug := rfl
@[simp] theorem State.drawFree_busErr (s : State) (n : Nat) : (s.drawFree n).busErr = s.busErr := rfl
@[simp] theorem State.drawFree_sleeping (s : State) (n : Nat) : (s.drawFree n).sleeping = s.sleeping := rfl
@[simp] theorem State.drawFree_ocdStopped (s : State) (n : Nat) : (s.drawFree n).ocdStopped = s.ocdStopped := rfl
@[simp] theorem State.drawFree_busErrDue (s : State) (n : Nat) : (s.drawFree n).busErrDue = s.busErrDue := rfl
@[simp] theorem State.drawFree_hazardLeft (s : State) (n : Nat) : (s.drawFree n).hazardLeft = s.hazardLeft := rfl
@[simp] theorem State.drawFree_hazardFlag (s : State) (n : Nat) : (s.drawFree n).hazardFlag = s.hazardFlag := rfl
@[simp] theorem State.drawFree_mem (s : State) (n : Nat) : (s.drawFree n).mem = s.mem := rfl
@[simp] theorem State.drawFree_now (s : State) (n : Nat) : (s.drawFree n).now = s.now := rfl
@[simp] theorem State.drawFree_env (s : State) (n : Nat) : (s.drawFree n).env = s.env := rfl
@[simp] theorem State.drawFree_freeIdx (s : State) (n : Nat) : (s.drawFree n).freeIdx = s.freeIdx + n := rfl
@[simp] theorem State.drawFree_taken (s : State) (n : Nat) : (s.drawFree n).taken = s.taken := rfl

/-! `noteBusError` -/

@[simp] theorem State.noteBusError_cfg (s : State) (pa : Word) : (s.noteBusError pa).cfg = s.cfg := rfl
@[simp] theorem State.noteBusError_shared (s : State) (pa : Word) : (s.noteBusError pa).shared = s.shared := rfl
@[simp] theorem State.noteBusError_int0 (s : State) (pa : Word) : (s.noteBusError pa).int0 = s.int0 := rfl
@[simp] theorem State.noteBusError_int1 (s : State) (pa : Word) : (s.noteBusError pa).int1 = s.int1 := rfl
@[simp] theorem State.noteBusError_int2 (s : State) (pa : Word) : (s.noteBusError pa).int2 = s.int2 := rfl
@[simp] theorem State.noteBusError_int3 (s : State) (pa : Word) : (s.noteBusError pa).int3 = s.int3 := rfl
@[simp] theorem State.noteBusError_spApp (s : State) (pa : Word) : (s.noteBusError pa).spApp = s.spApp := rfl
@[simp] theorem State.noteBusError_spSys (s : State) (pa : Word) : (s.noteBusError pa).spSys = s.spSys := rfl
@[simp] theorem State.noteBusError_spSec (s : State) (pa : Word) : (s.noteBusError pa).spSec = s.spSec := rfl
@[simp] theorem State.noteBusError_pc (s : State) (pa : Word) : (s.noteBusError pa).pc = s.pc := rfl
@[simp] theorem State.noteBusError_sr (s : State) (pa : Word) : (s.noteBusError pa).sr = s.sr := rfl
@[simp] theorem State.noteBusError_ctl (s : State) (pa : Word) : (s.noteBusError pa).ctl = s.ctl := rfl
@[simp] theorem State.noteBusError_ret (s : State) (pa : Word) : (s.noteBusError pa).ret = s.ret := rfl
@[simp] theorem State.noteBusError_java (s : State) (pa : Word) : (s.noteBusError pa).java = s.java := rfl
@[simp] theorem State.noteBusError_timer (s : State) (pa : Word) : (s.noteBusError pa).timer = s.timer := rfl
@[simp] theorem State.noteBusError_perf (s : State) (pa : Word) : (s.noteBusError pa).perf = s.perf := rfl
@[simp] theorem State.noteBusError_mmu (s : State) (pa : Word) : (s.noteBusError pa).mmu = s.mmu := rfl
@[simp] theorem State.noteBusError_mpu (s : State) (pa : Word) : (s.noteBusError pa).mpu = s.mpu := rfl
@[simp] theorem State.noteBusError_sec (s : State) (pa : Word) : (s.noteBusError pa).sec = s.sec := rfl
@[simp] theorem State.noteBusError_impl (s : State) (pa : Word) : (s.noteBusError pa).impl = s.impl := rfl
@[simp] theorem State.noteBusError_cop (s : State) (pa : Word) : (s.noteBusError pa).cop = s.cop := rfl
@[simp] theorem State.noteBusError_debug (s : State) (pa : Word) : (s.noteBusError pa).debug = s.debug := rfl
@[simp] theorem State.noteBusError_busErr (s : State) (pa : Word) : (s.noteBusError pa).busErr = s.busErr ++ [pa] := rfl
@[simp] theorem State.noteBusError_sleeping (s : State) (pa : Word) : (s.noteBusError pa).sleeping = s.sleeping := rfl
@[simp] theorem State.noteBusError_ocdStopped (s : State) (pa : Word) : (s.noteBusError pa).ocdStopped = s.ocdStopped := rfl
@[simp] theorem State.noteBusError_busErrDue (s : State) (pa : Word) : (s.noteBusError pa).busErrDue = s.busErrDue := rfl
@[simp] theorem State.noteBusError_hazardLeft (s : State) (pa : Word) : (s.noteBusError pa).hazardLeft = s.hazardLeft := rfl
@[simp] theorem State.noteBusError_hazardFlag (s : State) (pa : Word) : (s.noteBusError pa).hazardFlag = s.hazardFlag := rfl
@[simp] theorem State.noteBusError_mem (s : State) (pa : Word) : (s.noteBusError pa).mem = s.mem := rfl
@[simp] theorem State.noteBusError_now (s : State) (pa : Word) : (s.noteBusError pa).now = s.now := rfl
@[simp] theorem State.noteBusError_env (s : State) (pa : Word) : (s.noteBusError pa).env = s.env := rfl
@[simp] theorem State.noteBusError_freeIdx (s : State) (pa : Word) : (s.noteBusError pa).freeIdx = s.freeIdx := rfl
@[simp] theorem State.noteBusError_taken (s : State) (pa : Word) : (s.noteBusError pa).taken = s.taken := rfl

/-! `busTurn`: memory and what is left of the inputs -/

@[simp] theorem State.busTurn_cfg (s : State) : s.busTurn.cfg = s.cfg := rfl
@[simp] theorem State.busTurn_shared (s : State) : s.busTurn.shared = s.shared := rfl
@[simp] theorem State.busTurn_int0 (s : State) : s.busTurn.int0 = s.int0 := rfl
@[simp] theorem State.busTurn_int1 (s : State) : s.busTurn.int1 = s.int1 := rfl
@[simp] theorem State.busTurn_int2 (s : State) : s.busTurn.int2 = s.int2 := rfl
@[simp] theorem State.busTurn_int3 (s : State) : s.busTurn.int3 = s.int3 := rfl
@[simp] theorem State.busTurn_spApp (s : State) : s.busTurn.spApp = s.spApp := rfl
@[simp] theorem State.busTurn_spSys (s : State) : s.busTurn.spSys = s.spSys := rfl
@[simp] theorem State.busTurn_spSec (s : State) : s.busTurn.spSec = s.spSec := rfl
@[simp] theorem State.busTurn_pc (s : State) : s.busTurn.pc = s.pc := rfl
@[simp] theorem State.busTurn_sr (s : State) : s.busTurn.sr = s.sr := rfl
@[simp] theorem State.busTurn_ctl (s : State) : s.busTurn.ctl = s.ctl := rfl
@[simp] theorem State.busTurn_ret (s : State) : s.busTurn.ret = s.ret := rfl
@[simp] theorem State.busTurn_java (s : State) : s.busTurn.java = s.java := rfl
@[simp] theorem State.busTurn_timer (s : State) : s.busTurn.timer = s.timer := rfl
@[simp] theorem State.busTurn_perf (s : State) : s.busTurn.perf = s.perf := rfl
@[simp] theorem State.busTurn_mmu (s : State) : s.busTurn.mmu = s.mmu := rfl
@[simp] theorem State.busTurn_mpu (s : State) : s.busTurn.mpu = s.mpu := rfl
@[simp] theorem State.busTurn_sec (s : State) : s.busTurn.sec = s.sec := rfl
@[simp] theorem State.busTurn_impl (s : State) : s.busTurn.impl = s.impl := rfl
@[simp] theorem State.busTurn_cop (s : State) : s.busTurn.cop = s.cop := rfl
@[simp] theorem State.busTurn_debug (s : State) : s.busTurn.debug = s.debug := rfl
@[simp] theorem State.busTurn_busErr (s : State) : s.busTurn.busErr = s.busErr := rfl
@[simp] theorem State.busTurn_sleeping (s : State) : s.busTurn.sleeping = s.sleeping := rfl
@[simp] theorem State.busTurn_ocdStopped (s : State) : s.busTurn.ocdStopped = s.ocdStopped := rfl
@[simp] theorem State.busTurn_busErrDue (s : State) : s.busTurn.busErrDue = s.busErrDue := rfl
@[simp] theorem State.busTurn_hazardLeft (s : State) : s.busTurn.hazardLeft = s.hazardLeft := rfl
@[simp] theorem State.busTurn_hazardFlag (s : State) : s.busTurn.hazardFlag = s.hazardFlag := rfl
@[simp] theorem State.busTurn_mem (s : State) : s.busTurn.mem = Memory.writeAll s.mem (s.now.busBetween.headD []) := rfl
@[simp] theorem State.busTurn_now (s : State) :
    s.busTurn.now = { s.now with busBetween := s.now.busBetween.tail } := rfl
@[simp] theorem State.busTurn_env (s : State) : s.busTurn.env = s.env := rfl
@[simp] theorem State.busTurn_freeIdx (s : State) : s.busTurn.freeIdx = s.freeIdx := rfl
@[simp] theorem State.busTurn_taken (s : State) : s.busTurn.taken = s.taken := rfl
@[simp] theorem State.turnIfMore_zero (s : State) : s.turnIfMore 0 = s := rfl
@[simp] theorem State.turnIfMore_succ (s : State) (n : Nat) : s.turnIfMore (n + 1) = s.busTurn := rfl

/-! `setBank` -/

@[simp] theorem State.setBank_cfg (s : State) (b : Bank) (c : Context) : (s.setBank b c).cfg = s.cfg := by cases c <;> rfl
@[simp] theorem State.setBank_spApp (s : State) (b : Bank) (c : Context) : (s.setBank b c).spApp = s.spApp := by cases c <;> rfl
@[simp] theorem State.setBank_spSys (s : State) (b : Bank) (c : Context) : (s.setBank b c).spSys = s.spSys := by cases c <;> rfl
@[simp] theorem State.setBank_spSec (s : State) (b : Bank) (c : Context) : (s.setBank b c).spSec = s.spSec := by cases c <;> rfl
@[simp] theorem State.setBank_pc (s : State) (b : Bank) (c : Context) : (s.setBank b c).pc = s.pc := by cases c <;> rfl
@[simp] theorem State.setBank_sr (s : State) (b : Bank) (c : Context) : (s.setBank b c).sr = s.sr := by cases c <;> rfl
@[simp] theorem State.setBank_ctl (s : State) (b : Bank) (c : Context) : (s.setBank b c).ctl = s.ctl := by cases c <;> rfl
@[simp] theorem State.setBank_ret (s : State) (b : Bank) (c : Context) : (s.setBank b c).ret = s.ret := by cases c <;> rfl
@[simp] theorem State.setBank_java (s : State) (b : Bank) (c : Context) : (s.setBank b c).java = s.java := by cases c <;> rfl
@[simp] theorem State.setBank_timer (s : State) (b : Bank) (c : Context) : (s.setBank b c).timer = s.timer := by cases c <;> rfl
@[simp] theorem State.setBank_perf (s : State) (b : Bank) (c : Context) : (s.setBank b c).perf = s.perf := by cases c <;> rfl
@[simp] theorem State.setBank_mmu (s : State) (b : Bank) (c : Context) : (s.setBank b c).mmu = s.mmu := by cases c <;> rfl
@[simp] theorem State.setBank_mpu (s : State) (b : Bank) (c : Context) : (s.setBank b c).mpu = s.mpu := by cases c <;> rfl
@[simp] theorem State.setBank_sec (s : State) (b : Bank) (c : Context) : (s.setBank b c).sec = s.sec := by cases c <;> rfl
@[simp] theorem State.setBank_impl (s : State) (b : Bank) (c : Context) : (s.setBank b c).impl = s.impl := by cases c <;> rfl
@[simp] theorem State.setBank_cop (s : State) (b : Bank) (c : Context) : (s.setBank b c).cop = s.cop := by cases c <;> rfl
@[simp] theorem State.setBank_debug (s : State) (b : Bank) (c : Context) : (s.setBank b c).debug = s.debug := by cases c <;> rfl
@[simp] theorem State.setBank_busErr (s : State) (b : Bank) (c : Context) : (s.setBank b c).busErr = s.busErr := by cases c <;> rfl
@[simp] theorem State.setBank_sleeping (s : State) (b : Bank) (c : Context) : (s.setBank b c).sleeping = s.sleeping := by cases c <;> rfl
@[simp] theorem State.setBank_ocdStopped (s : State) (b : Bank) (c : Context) : (s.setBank b c).ocdStopped = s.ocdStopped := by cases c <;> rfl
@[simp] theorem State.setBank_busErrDue (s : State) (b : Bank) (c : Context) : (s.setBank b c).busErrDue = s.busErrDue := by cases c <;> rfl
@[simp] theorem State.setBank_hazardLeft (s : State) (b : Bank) (c : Context) : (s.setBank b c).hazardLeft = s.hazardLeft := by cases c <;> rfl
@[simp] theorem State.setBank_hazardFlag (s : State) (b : Bank) (c : Context) : (s.setBank b c).hazardFlag = s.hazardFlag := by cases c <;> rfl
@[simp] theorem State.setBank_mem (s : State) (b : Bank) (c : Context) : (s.setBank b c).mem = s.mem := by cases c <;> rfl
@[simp] theorem State.setBank_now (s : State) (b : Bank) (c : Context) : (s.setBank b c).now = s.now := by cases c <;> rfl
@[simp] theorem State.setBank_env (s : State) (b : Bank) (c : Context) : (s.setBank b c).env = s.env := by cases c <;> rfl
@[simp] theorem State.setBank_freeIdx (s : State) (b : Bank) (c : Context) : (s.setBank b c).freeIdx = s.freeIdx := by cases c <;> rfl
@[simp] theorem State.setBank_taken (s : State) (b : Bank) (c : Context) : (s.setBank b c).taken = s.taken := by cases c <;> rfl

/-! `setSystemSp` -/

@[simp] theorem State.setSystemSp_cfg (s : State) (v : Word) : (s.setSystemSp v).cfg = s.cfg := by unfold State.setSystemSp; split <;> rfl
@[simp] theorem State.setSystemSp_shared (s : State) (v : Word) : (s.setSystemSp v).shared = s.shared := by unfold State.setSystemSp; split <;> rfl
@[simp] theorem State.setSystemSp_int0 (s : State) (v : Word) : (s.setSystemSp v).int0 = s.int0 := by unfold State.setSystemSp; split <;> rfl
@[simp] theorem State.setSystemSp_int1 (s : State) (v : Word) : (s.setSystemSp v).int1 = s.int1 := by unfold State.setSystemSp; split <;> rfl
@[simp] theorem State.setSystemSp_int2 (s : State) (v : Word) : (s.setSystemSp v).int2 = s.int2 := by unfold State.setSystemSp; split <;> rfl
@[simp] theorem State.setSystemSp_int3 (s : State) (v : Word) : (s.setSystemSp v).int3 = s.int3 := by unfold State.setSystemSp; split <;> rfl
@[simp] theorem State.setSystemSp_spApp (s : State) (v : Word) : (s.setSystemSp v).spApp = s.spApp := by unfold State.setSystemSp; split <;> rfl
@[simp] theorem State.setSystemSp_pc (s : State) (v : Word) : (s.setSystemSp v).pc = s.pc := by unfold State.setSystemSp; split <;> rfl
@[simp] theorem State.setSystemSp_sr (s : State) (v : Word) : (s.setSystemSp v).sr = s.sr := by unfold State.setSystemSp; split <;> rfl
@[simp] theorem State.setSystemSp_ctl (s : State) (v : Word) : (s.setSystemSp v).ctl = s.ctl := by unfold State.setSystemSp; split <;> rfl
@[simp] theorem State.setSystemSp_ret (s : State) (v : Word) : (s.setSystemSp v).ret = s.ret := by unfold State.setSystemSp; split <;> rfl
@[simp] theorem State.setSystemSp_java (s : State) (v : Word) : (s.setSystemSp v).java = s.java := by unfold State.setSystemSp; split <;> rfl
@[simp] theorem State.setSystemSp_timer (s : State) (v : Word) : (s.setSystemSp v).timer = s.timer := by unfold State.setSystemSp; split <;> rfl
@[simp] theorem State.setSystemSp_perf (s : State) (v : Word) : (s.setSystemSp v).perf = s.perf := by unfold State.setSystemSp; split <;> rfl
@[simp] theorem State.setSystemSp_mmu (s : State) (v : Word) : (s.setSystemSp v).mmu = s.mmu := by unfold State.setSystemSp; split <;> rfl
@[simp] theorem State.setSystemSp_mpu (s : State) (v : Word) : (s.setSystemSp v).mpu = s.mpu := by unfold State.setSystemSp; split <;> rfl
@[simp] theorem State.setSystemSp_sec (s : State) (v : Word) : (s.setSystemSp v).sec = s.sec := by unfold State.setSystemSp; split <;> rfl
@[simp] theorem State.setSystemSp_impl (s : State) (v : Word) : (s.setSystemSp v).impl = s.impl := by unfold State.setSystemSp; split <;> rfl
@[simp] theorem State.setSystemSp_cop (s : State) (v : Word) : (s.setSystemSp v).cop = s.cop := by unfold State.setSystemSp; split <;> rfl
@[simp] theorem State.setSystemSp_debug (s : State) (v : Word) : (s.setSystemSp v).debug = s.debug := by unfold State.setSystemSp; split <;> rfl
@[simp] theorem State.setSystemSp_busErr (s : State) (v : Word) : (s.setSystemSp v).busErr = s.busErr := by unfold State.setSystemSp; split <;> rfl
@[simp] theorem State.setSystemSp_sleeping (s : State) (v : Word) : (s.setSystemSp v).sleeping = s.sleeping := by unfold State.setSystemSp; split <;> rfl
@[simp] theorem State.setSystemSp_ocdStopped (s : State) (v : Word) : (s.setSystemSp v).ocdStopped = s.ocdStopped := by unfold State.setSystemSp; split <;> rfl
@[simp] theorem State.setSystemSp_busErrDue (s : State) (v : Word) : (s.setSystemSp v).busErrDue = s.busErrDue := by unfold State.setSystemSp; split <;> rfl
@[simp] theorem State.setSystemSp_hazardLeft (s : State) (v : Word) : (s.setSystemSp v).hazardLeft = s.hazardLeft := by unfold State.setSystemSp; split <;> rfl
@[simp] theorem State.setSystemSp_hazardFlag (s : State) (v : Word) : (s.setSystemSp v).hazardFlag = s.hazardFlag := by unfold State.setSystemSp; split <;> rfl
@[simp] theorem State.setSystemSp_mem (s : State) (v : Word) : (s.setSystemSp v).mem = s.mem := by unfold State.setSystemSp; split <;> rfl
@[simp] theorem State.setSystemSp_now (s : State) (v : Word) : (s.setSystemSp v).now = s.now := by unfold State.setSystemSp; split <;> rfl
@[simp] theorem State.setSystemSp_env (s : State) (v : Word) : (s.setSystemSp v).env = s.env := by unfold State.setSystemSp; split <;> rfl
@[simp] theorem State.setSystemSp_freeIdx (s : State) (v : Word) : (s.setSystemSp v).freeIdx = s.freeIdx := by unfold State.setSystemSp; split <;> rfl
@[simp] theorem State.setSystemSp_taken (s : State) (v : Word) : (s.setSystemSp v).taken = s.taken := by unfold State.setSystemSp; split <;> rfl

/-! `writePhys`: a register write reaches the register file alone -/

@[simp] theorem State.writePhys_cfg (s : State) (p : PhysReg) (v : Word) : (s.writePhys p v).cfg = s.cfg := by cases p <;> simp [State.writePhys]
@[simp] theorem State.writePhys_sr (s : State) (p : PhysReg) (v : Word) : (s.writePhys p v).sr = s.sr := by cases p <;> simp [State.writePhys]
@[simp] theorem State.writePhys_ctl (s : State) (p : PhysReg) (v : Word) : (s.writePhys p v).ctl = s.ctl := by cases p <;> simp [State.writePhys]
@[simp] theorem State.writePhys_ret (s : State) (p : PhysReg) (v : Word) : (s.writePhys p v).ret = s.ret := by cases p <;> simp [State.writePhys]
@[simp] theorem State.writePhys_java (s : State) (p : PhysReg) (v : Word) : (s.writePhys p v).java = s.java := by cases p <;> simp [State.writePhys]
@[simp] theorem State.writePhys_timer (s : State) (p : PhysReg) (v : Word) : (s.writePhys p v).timer = s.timer := by cases p <;> simp [State.writePhys]
@[simp] theorem State.writePhys_perf (s : State) (p : PhysReg) (v : Word) : (s.writePhys p v).perf = s.perf := by cases p <;> simp [State.writePhys]
@[simp] theorem State.writePhys_mmu (s : State) (p : PhysReg) (v : Word) : (s.writePhys p v).mmu = s.mmu := by cases p <;> simp [State.writePhys]
@[simp] theorem State.writePhys_mpu (s : State) (p : PhysReg) (v : Word) : (s.writePhys p v).mpu = s.mpu := by cases p <;> simp [State.writePhys]
@[simp] theorem State.writePhys_sec (s : State) (p : PhysReg) (v : Word) : (s.writePhys p v).sec = s.sec := by cases p <;> simp [State.writePhys]
@[simp] theorem State.writePhys_impl (s : State) (p : PhysReg) (v : Word) : (s.writePhys p v).impl = s.impl := by cases p <;> simp [State.writePhys]
@[simp] theorem State.writePhys_cop (s : State) (p : PhysReg) (v : Word) : (s.writePhys p v).cop = s.cop := by cases p <;> simp [State.writePhys]
@[simp] theorem State.writePhys_debug (s : State) (p : PhysReg) (v : Word) : (s.writePhys p v).debug = s.debug := by cases p <;> simp [State.writePhys]
@[simp] theorem State.writePhys_busErr (s : State) (p : PhysReg) (v : Word) : (s.writePhys p v).busErr = s.busErr := by cases p <;> simp [State.writePhys]
@[simp] theorem State.writePhys_sleeping (s : State) (p : PhysReg) (v : Word) : (s.writePhys p v).sleeping = s.sleeping := by cases p <;> simp [State.writePhys]
@[simp] theorem State.writePhys_ocdStopped (s : State) (p : PhysReg) (v : Word) : (s.writePhys p v).ocdStopped = s.ocdStopped := by cases p <;> simp [State.writePhys]
@[simp] theorem State.writePhys_busErrDue (s : State) (p : PhysReg) (v : Word) : (s.writePhys p v).busErrDue = s.busErrDue := by cases p <;> simp [State.writePhys]
@[simp] theorem State.writePhys_hazardLeft (s : State) (p : PhysReg) (v : Word) : (s.writePhys p v).hazardLeft = s.hazardLeft := by cases p <;> simp [State.writePhys]
@[simp] theorem State.writePhys_hazardFlag (s : State) (p : PhysReg) (v : Word) : (s.writePhys p v).hazardFlag = s.hazardFlag := by cases p <;> simp [State.writePhys]
@[simp] theorem State.writePhys_mem (s : State) (p : PhysReg) (v : Word) : (s.writePhys p v).mem = s.mem := by cases p <;> simp [State.writePhys]
@[simp] theorem State.writePhys_now (s : State) (p : PhysReg) (v : Word) : (s.writePhys p v).now = s.now := by cases p <;> simp [State.writePhys]
@[simp] theorem State.writePhys_env (s : State) (p : PhysReg) (v : Word) : (s.writePhys p v).env = s.env := by cases p <;> simp [State.writePhys]
@[simp] theorem State.writePhys_freeIdx (s : State) (p : PhysReg) (v : Word) : (s.writePhys p v).freeIdx = s.freeIdx := by cases p <;> simp [State.writePhys]
@[simp] theorem State.writePhys_taken (s : State) (p : PhysReg) (v : Word) : (s.writePhys p v).taken = s.taken := by cases p <;> simp [State.writePhys]

/-! `setReg` -/

@[simp] theorem State.setReg_cfg (s : State) (i : RegNo) (v : Word) : (s.setReg i v).cfg = s.cfg := by simp [State.setReg]
@[simp] theorem State.setReg_sr (s : State) (i : RegNo) (v : Word) : (s.setReg i v).sr = s.sr := by simp [State.setReg]
@[simp] theorem State.setReg_ctl (s : State) (i : RegNo) (v : Word) : (s.setReg i v).ctl = s.ctl := by simp [State.setReg]
@[simp] theorem State.setReg_ret (s : State) (i : RegNo) (v : Word) : (s.setReg i v).ret = s.ret := by simp [State.setReg]
@[simp] theorem State.setReg_java (s : State) (i : RegNo) (v : Word) : (s.setReg i v).java = s.java := by simp [State.setReg]
@[simp] theorem State.setReg_timer (s : State) (i : RegNo) (v : Word) : (s.setReg i v).timer = s.timer := by simp [State.setReg]
@[simp] theorem State.setReg_perf (s : State) (i : RegNo) (v : Word) : (s.setReg i v).perf = s.perf := by simp [State.setReg]
@[simp] theorem State.setReg_mmu (s : State) (i : RegNo) (v : Word) : (s.setReg i v).mmu = s.mmu := by simp [State.setReg]
@[simp] theorem State.setReg_mpu (s : State) (i : RegNo) (v : Word) : (s.setReg i v).mpu = s.mpu := by simp [State.setReg]
@[simp] theorem State.setReg_sec (s : State) (i : RegNo) (v : Word) : (s.setReg i v).sec = s.sec := by simp [State.setReg]
@[simp] theorem State.setReg_impl (s : State) (i : RegNo) (v : Word) : (s.setReg i v).impl = s.impl := by simp [State.setReg]
@[simp] theorem State.setReg_cop (s : State) (i : RegNo) (v : Word) : (s.setReg i v).cop = s.cop := by simp [State.setReg]
@[simp] theorem State.setReg_debug (s : State) (i : RegNo) (v : Word) : (s.setReg i v).debug = s.debug := by simp [State.setReg]
@[simp] theorem State.setReg_busErr (s : State) (i : RegNo) (v : Word) : (s.setReg i v).busErr = s.busErr := by simp [State.setReg]
@[simp] theorem State.setReg_sleeping (s : State) (i : RegNo) (v : Word) : (s.setReg i v).sleeping = s.sleeping := by simp [State.setReg]
@[simp] theorem State.setReg_ocdStopped (s : State) (i : RegNo) (v : Word) : (s.setReg i v).ocdStopped = s.ocdStopped := by simp [State.setReg]
@[simp] theorem State.setReg_busErrDue (s : State) (i : RegNo) (v : Word) : (s.setReg i v).busErrDue = s.busErrDue := by simp [State.setReg]
@[simp] theorem State.setReg_hazardLeft (s : State) (i : RegNo) (v : Word) : (s.setReg i v).hazardLeft = s.hazardLeft := by simp [State.setReg]
@[simp] theorem State.setReg_hazardFlag (s : State) (i : RegNo) (v : Word) : (s.setReg i v).hazardFlag = s.hazardFlag := by simp [State.setReg]
@[simp] theorem State.setReg_mem (s : State) (i : RegNo) (v : Word) : (s.setReg i v).mem = s.mem := by simp [State.setReg]
@[simp] theorem State.setReg_now (s : State) (i : RegNo) (v : Word) : (s.setReg i v).now = s.now := by simp [State.setReg]
@[simp] theorem State.setReg_env (s : State) (i : RegNo) (v : Word) : (s.setReg i v).env = s.env := by simp [State.setReg]
@[simp] theorem State.setReg_freeIdx (s : State) (i : RegNo) (v : Word) : (s.setReg i v).freeIdx = s.freeIdx := by simp [State.setReg]
@[simp] theorem State.setReg_taken (s : State) (i : RegNo) (v : Word) : (s.setReg i v).taken = s.taken := by simp [State.setReg]

/-! `freeRegs` -/

@[simp] theorem State.freeRegs_cfg (s : State) (is : List RegNo) : (s.freeRegs is).cfg = s.cfg := by
  induction is generalizing s with
  | nil => rfl
  | cons i is ih => simp [State.freeRegs, ih]
@[simp] theorem State.freeRegs_sr (s : State) (is : List RegNo) : (s.freeRegs is).sr = s.sr := by
  induction is generalizing s with
  | nil => rfl
  | cons i is ih => simp [State.freeRegs, ih]
@[simp] theorem State.freeRegs_ctl (s : State) (is : List RegNo) : (s.freeRegs is).ctl = s.ctl := by
  induction is generalizing s with
  | nil => rfl
  | cons i is ih => simp [State.freeRegs, ih]
@[simp] theorem State.freeRegs_ret (s : State) (is : List RegNo) : (s.freeRegs is).ret = s.ret := by
  induction is generalizing s with
  | nil => rfl
  | cons i is ih => simp [State.freeRegs, ih]
@[simp] theorem State.freeRegs_java (s : State) (is : List RegNo) : (s.freeRegs is).java = s.java := by
  induction is generalizing s with
  | nil => rfl
  | cons i is ih => simp [State.freeRegs, ih]
@[simp] theorem State.freeRegs_timer (s : State) (is : List RegNo) : (s.freeRegs is).timer = s.timer := by
  induction is generalizing s with
  | nil => rfl
  | cons i is ih => simp [State.freeRegs, ih]
@[simp] theorem State.freeRegs_perf (s : State) (is : List RegNo) : (s.freeRegs is).perf = s.perf := by
  induction is generalizing s with
  | nil => rfl
  | cons i is ih => simp [State.freeRegs, ih]
@[simp] theorem State.freeRegs_mmu (s : State) (is : List RegNo) : (s.freeRegs is).mmu = s.mmu := by
  induction is generalizing s with
  | nil => rfl
  | cons i is ih => simp [State.freeRegs, ih]
@[simp] theorem State.freeRegs_mpu (s : State) (is : List RegNo) : (s.freeRegs is).mpu = s.mpu := by
  induction is generalizing s with
  | nil => rfl
  | cons i is ih => simp [State.freeRegs, ih]
@[simp] theorem State.freeRegs_sec (s : State) (is : List RegNo) : (s.freeRegs is).sec = s.sec := by
  induction is generalizing s with
  | nil => rfl
  | cons i is ih => simp [State.freeRegs, ih]
@[simp] theorem State.freeRegs_impl (s : State) (is : List RegNo) : (s.freeRegs is).impl = s.impl := by
  induction is generalizing s with
  | nil => rfl
  | cons i is ih => simp [State.freeRegs, ih]
@[simp] theorem State.freeRegs_cop (s : State) (is : List RegNo) : (s.freeRegs is).cop = s.cop := by
  induction is generalizing s with
  | nil => rfl
  | cons i is ih => simp [State.freeRegs, ih]
@[simp] theorem State.freeRegs_debug (s : State) (is : List RegNo) : (s.freeRegs is).debug = s.debug := by
  induction is generalizing s with
  | nil => rfl
  | cons i is ih => simp [State.freeRegs, ih]
@[simp] theorem State.freeRegs_busErr (s : State) (is : List RegNo) : (s.freeRegs is).busErr = s.busErr := by
  induction is generalizing s with
  | nil => rfl
  | cons i is ih => simp [State.freeRegs, ih]
@[simp] theorem State.freeRegs_sleeping (s : State) (is : List RegNo) : (s.freeRegs is).sleeping = s.sleeping := by
  induction is generalizing s with
  | nil => rfl
  | cons i is ih => simp [State.freeRegs, ih]
@[simp] theorem State.freeRegs_ocdStopped (s : State) (is : List RegNo) : (s.freeRegs is).ocdStopped = s.ocdStopped := by
  induction is generalizing s with
  | nil => rfl
  | cons i is ih => simp [State.freeRegs, ih]
@[simp] theorem State.freeRegs_busErrDue (s : State) (is : List RegNo) : (s.freeRegs is).busErrDue = s.busErrDue := by
  induction is generalizing s with
  | nil => rfl
  | cons i is ih => simp [State.freeRegs, ih]
@[simp] theorem State.freeRegs_hazardLeft (s : State) (is : List RegNo) : (s.freeRegs is).hazardLeft = s.hazardLeft := by
  induction is generalizing s with
  | nil => rfl
  | cons i is ih => simp [State.freeRegs, ih]
@[simp] theorem State.freeRegs_hazardFlag (s : State) (is : List RegNo) : (s.freeRegs is).hazardFlag = s.hazardFlag := by
  induction is generalizing s with
  | nil => rfl
  | cons i is ih => simp [State.freeRegs, ih]
@[simp] theorem State.freeRegs_mem (s : State) (is : List RegNo) : (s.freeRegs is).mem = s.mem := by
  induction is generalizing s with
  | nil => rfl
  | cons i is ih => simp [State.freeRegs, ih]
@[simp] theorem State.freeRegs_now (s : State) (is : List RegNo) : (s.freeRegs is).now = s.now := by
  induction is generalizing s with
  | nil => rfl
  | cons i is ih => simp [State.freeRegs, ih]
@[simp] theorem State.freeRegs_env (s : State) (is : List RegNo) : (s.freeRegs is).env = s.env := by
  induction is generalizing s with
  | nil => rfl
  | cons i is ih => simp [State.freeRegs, ih]
@[simp] theorem State.freeRegs_taken (s : State) (is : List RegNo) : (s.freeRegs is).taken = s.taken := by
  induction is generalizing s with
  | nil => rfl
  | cons i is ih => simp [State.freeRegs, ih]

/-! `setPair` -/

@[simp] theorem State.setPair_cfg (s : State) (d : RegNo) (hi lo : Word) : (s.setPair d hi lo).cfg = s.cfg := by unfold State.setPair; split <;> simp
@[simp] theorem State.setPair_sr (s : State) (d : RegNo) (hi lo : Word) : (s.setPair d hi lo).sr = s.sr := by unfold State.setPair; split <;> simp
@[simp] theorem State.setPair_ctl (s : State) (d : RegNo) (hi lo : Word) : (s.setPair d hi lo).ctl = s.ctl := by unfold State.setPair; split <;> simp
@[simp] theorem State.setPair_ret (s : State) (d : RegNo) (hi lo : Word) : (s.setPair d hi lo).ret = s.ret := by unfold State.setPair; split <;> simp
@[simp] theorem State.setPair_java (s : State) (d : RegNo) (hi lo : Word) : (s.setPair d hi lo).java = s.java := by unfold State.setPair; split <;> simp
@[simp] theorem State.setPair_timer (s : State) (d : RegNo) (hi lo : Word) : (s.setPair d hi lo).timer = s.timer := by unfold State.setPair; split <;> simp
@[simp] theorem State.setPair_perf (s : State) (d : RegNo) (hi lo : Word) : (s.setPair d hi lo).perf = s.perf := by unfold State.setPair; split <;> simp
@[simp] theorem State.setPair_mmu (s : State) (d : RegNo) (hi lo : Word) : (s.setPair d hi lo).mmu = s.mmu := by unfold State.setPair; split <;> simp
@[simp] theorem State.setPair_mpu (s : State) (d : RegNo) (hi lo : Word) : (s.setPair d hi lo).mpu = s.mpu := by unfold State.setPair; split <;> simp
@[simp] theorem State.setPair_sec (s : State) (d : RegNo) (hi lo : Word) : (s.setPair d hi lo).sec = s.sec := by unfold State.setPair; split <;> simp
@[simp] theorem State.setPair_impl (s : State) (d : RegNo) (hi lo : Word) : (s.setPair d hi lo).impl = s.impl := by unfold State.setPair; split <;> simp
@[simp] theorem State.setPair_cop (s : State) (d : RegNo) (hi lo : Word) : (s.setPair d hi lo).cop = s.cop := by unfold State.setPair; split <;> simp
@[simp] theorem State.setPair_debug (s : State) (d : RegNo) (hi lo : Word) : (s.setPair d hi lo).debug = s.debug := by unfold State.setPair; split <;> simp
@[simp] theorem State.setPair_busErr (s : State) (d : RegNo) (hi lo : Word) : (s.setPair d hi lo).busErr = s.busErr := by unfold State.setPair; split <;> simp
@[simp] theorem State.setPair_sleeping (s : State) (d : RegNo) (hi lo : Word) : (s.setPair d hi lo).sleeping = s.sleeping := by unfold State.setPair; split <;> simp
@[simp] theorem State.setPair_ocdStopped (s : State) (d : RegNo) (hi lo : Word) : (s.setPair d hi lo).ocdStopped = s.ocdStopped := by unfold State.setPair; split <;> simp
@[simp] theorem State.setPair_busErrDue (s : State) (d : RegNo) (hi lo : Word) : (s.setPair d hi lo).busErrDue = s.busErrDue := by unfold State.setPair; split <;> simp
@[simp] theorem State.setPair_hazardLeft (s : State) (d : RegNo) (hi lo : Word) : (s.setPair d hi lo).hazardLeft = s.hazardLeft := by unfold State.setPair; split <;> simp
@[simp] theorem State.setPair_hazardFlag (s : State) (d : RegNo) (hi lo : Word) : (s.setPair d hi lo).hazardFlag = s.hazardFlag := by unfold State.setPair; split <;> simp
@[simp] theorem State.setPair_mem (s : State) (d : RegNo) (hi lo : Word) : (s.setPair d hi lo).mem = s.mem := by unfold State.setPair; split <;> simp
@[simp] theorem State.setPair_now (s : State) (d : RegNo) (hi lo : Word) : (s.setPair d hi lo).now = s.now := by unfold State.setPair; split <;> simp
@[simp] theorem State.setPair_env (s : State) (d : RegNo) (hi lo : Word) : (s.setPair d hi lo).env = s.env := by unfold State.setPair; split <;> simp
@[simp] theorem State.setPair_taken (s : State) (d : RegNo) (hi lo : Word) : (s.setPair d hi lo).taken = s.taken := by unfold State.setPair; split <;> simp

/-! `setRegs` -/

@[simp] theorem State.setRegs_cfg (s : State) (l : List (RegNo × Word)) : (s.setRegs l).cfg = s.cfg := by
  induction l generalizing s with
  | nil => rfl
  | cons p l ih => simp [State.setRegs, ih]
@[simp] theorem State.setRegs_sr (s : State) (l : List (RegNo × Word)) : (s.setRegs l).sr = s.sr := by
  induction l generalizing s with
  | nil => rfl
  | cons p l ih => simp [State.setRegs, ih]
@[simp] theorem State.setRegs_ctl (s : State) (l : List (RegNo × Word)) : (s.setRegs l).ctl = s.ctl := by
  induction l generalizing s with
  | nil => rfl
  | cons p l ih => simp [State.setRegs, ih]
@[simp] theorem State.setRegs_ret (s : State) (l : List (RegNo × Word)) : (s.setRegs l).ret = s.ret := by
  induction l generalizing s with
  | nil => rfl
  | cons p l ih => simp [State.setRegs, ih]
@[simp] theorem State.setRegs_java (s : State) (l : List (RegNo × Word)) : (s.setRegs l).java = s.java := by
  induction l generalizing s with
  | nil => rfl
  | cons p l ih => simp [State.setRegs, ih]
@[simp] theorem State.setRegs_timer (s : State) (l : List (RegNo × Word)) : (s.setRegs l).timer = s.timer := by
  induction l generalizing s with
  | nil => rfl
  | cons p l ih => simp [State.setRegs, ih]
@[simp] theorem State.setRegs_perf (s : State) (l : List (RegNo × Word)) : (s.setRegs l).perf = s.perf := by
  induction l generalizing s with
  | nil => rfl
  | cons p l ih => simp [State.setRegs, ih]
@[simp] theorem State.setRegs_mmu (s : State) (l : List (RegNo × Word)) : (s.setRegs l).mmu = s.mmu := by
  induction l generalizing s with
  | nil => rfl
  | cons p l ih => simp [State.setRegs, ih]
@[simp] theorem State.setRegs_mpu (s : State) (l : List (RegNo × Word)) : (s.setRegs l).mpu = s.mpu := by
  induction l generalizing s with
  | nil => rfl
  | cons p l ih => simp [State.setRegs, ih]
@[simp] theorem State.setRegs_sec (s : State) (l : List (RegNo × Word)) : (s.setRegs l).sec = s.sec := by
  induction l generalizing s with
  | nil => rfl
  | cons p l ih => simp [State.setRegs, ih]
@[simp] theorem State.setRegs_impl (s : State) (l : List (RegNo × Word)) : (s.setRegs l).impl = s.impl := by
  induction l generalizing s with
  | nil => rfl
  | cons p l ih => simp [State.setRegs, ih]
@[simp] theorem State.setRegs_cop (s : State) (l : List (RegNo × Word)) : (s.setRegs l).cop = s.cop := by
  induction l generalizing s with
  | nil => rfl
  | cons p l ih => simp [State.setRegs, ih]
@[simp] theorem State.setRegs_debug (s : State) (l : List (RegNo × Word)) : (s.setRegs l).debug = s.debug := by
  induction l generalizing s with
  | nil => rfl
  | cons p l ih => simp [State.setRegs, ih]
@[simp] theorem State.setRegs_busErr (s : State) (l : List (RegNo × Word)) : (s.setRegs l).busErr = s.busErr := by
  induction l generalizing s with
  | nil => rfl
  | cons p l ih => simp [State.setRegs, ih]
@[simp] theorem State.setRegs_sleeping (s : State) (l : List (RegNo × Word)) : (s.setRegs l).sleeping = s.sleeping := by
  induction l generalizing s with
  | nil => rfl
  | cons p l ih => simp [State.setRegs, ih]
@[simp] theorem State.setRegs_ocdStopped (s : State) (l : List (RegNo × Word)) : (s.setRegs l).ocdStopped = s.ocdStopped := by
  induction l generalizing s with
  | nil => rfl
  | cons p l ih => simp [State.setRegs, ih]
@[simp] theorem State.setRegs_busErrDue (s : State) (l : List (RegNo × Word)) : (s.setRegs l).busErrDue = s.busErrDue := by
  induction l generalizing s with
  | nil => rfl
  | cons p l ih => simp [State.setRegs, ih]
@[simp] theorem State.setRegs_hazardLeft (s : State) (l : List (RegNo × Word)) : (s.setRegs l).hazardLeft = s.hazardLeft := by
  induction l generalizing s with
  | nil => rfl
  | cons p l ih => simp [State.setRegs, ih]
@[simp] theorem State.setRegs_hazardFlag (s : State) (l : List (RegNo × Word)) : (s.setRegs l).hazardFlag = s.hazardFlag := by
  induction l generalizing s with
  | nil => rfl
  | cons p l ih => simp [State.setRegs, ih]
@[simp] theorem State.setRegs_mem (s : State) (l : List (RegNo × Word)) : (s.setRegs l).mem = s.mem := by
  induction l generalizing s with
  | nil => rfl
  | cons p l ih => simp [State.setRegs, ih]
@[simp] theorem State.setRegs_now (s : State) (l : List (RegNo × Word)) : (s.setRegs l).now = s.now := by
  induction l generalizing s with
  | nil => rfl
  | cons p l ih => simp [State.setRegs, ih]
@[simp] theorem State.setRegs_env (s : State) (l : List (RegNo × Word)) : (s.setRegs l).env = s.env := by
  induction l generalizing s with
  | nil => rfl
  | cons p l ih => simp [State.setRegs, ih]
@[simp] theorem State.setRegs_freeIdx (s : State) (l : List (RegNo × Word)) : (s.setRegs l).freeIdx = s.freeIdx := by
  induction l generalizing s with
  | nil => rfl
  | cons p l ih => simp [State.setRegs, ih]
@[simp] theorem State.setRegs_taken (s : State) (l : List (RegNo × Word)) : (s.setRegs l).taken = s.taken := by
  induction l generalizing s with
  | nil => rfl
  | cons p l ih => simp [State.setRegs, ih]

/-! `setTlbEntry` -/

@[simp] theorem State.setTlbEntry_cfg (s : State) (instr : Bool) (i : Nat) (e : TlbEntry) : (s.setTlbEntry instr i e).cfg = s.cfg := by unfold State.setTlbEntry; split <;> [split; skip] <;> rfl
@[simp] theorem State.setTlbEntry_shared (s : State) (instr : Bool) (i : Nat) (e : TlbEntry) : (s.setTlbEntry instr i e).shared = s.shared := by unfold State.setTlbEntry; split <;> [split; skip] <;> rfl
@[simp] theorem State.setTlbEntry_int0 (s : State) (instr : Bool) (i : Nat) (e : TlbEntry) : (s.setTlbEntry instr i e).int0 = s.int0 := by unfold State.setTlbEntry; split <;> [split; skip] <;> rfl
@[simp] theorem State.setTlbEntry_int1 (s : State) (instr : Bool) (i : Nat) (e : TlbEntry) : (s.setTlbEntry instr i e).int1 = s.int1 := by unfold State.setTlbEntry; split <;> [split; skip] <;> rfl
@[simp] theorem State.setTlbEntry_int2 (s : State) (instr : Bool) (i : Nat) (e : TlbEntry) : (s.setTlbEntry instr i e).int2 = s.int2 := by unfold State.setTlbEntry; split <;> [split; skip] <;> rfl
@[simp] theorem State.setTlbEntry_int3 (s : State) (instr : Bool) (i : Nat) (e : TlbEntry) : (s.setTlbEntry instr i e).int3 = s.int3 := by unfold State.setTlbEntry; split <;> [split; skip] <;> rfl
@[simp] theorem State.setTlbEntry_spApp (s : State) (instr : Bool) (i : Nat) (e : TlbEntry) : (s.setTlbEntry instr i e).spApp = s.spApp := by unfold State.setTlbEntry; split <;> [split; skip] <;> rfl
@[simp] theorem State.setTlbEntry_spSys (s : State) (instr : Bool) (i : Nat) (e : TlbEntry) : (s.setTlbEntry instr i e).spSys = s.spSys := by unfold State.setTlbEntry; split <;> [split; skip] <;> rfl
@[simp] theorem State.setTlbEntry_spSec (s : State) (instr : Bool) (i : Nat) (e : TlbEntry) : (s.setTlbEntry instr i e).spSec = s.spSec := by unfold State.setTlbEntry; split <;> [split; skip] <;> rfl
@[simp] theorem State.setTlbEntry_pc (s : State) (instr : Bool) (i : Nat) (e : TlbEntry) : (s.setTlbEntry instr i e).pc = s.pc := by unfold State.setTlbEntry; split <;> [split; skip] <;> rfl
@[simp] theorem State.setTlbEntry_sr (s : State) (instr : Bool) (i : Nat) (e : TlbEntry) : (s.setTlbEntry instr i e).sr = s.sr := by unfold State.setTlbEntry; split <;> [split; skip] <;> rfl
@[simp] theorem State.setTlbEntry_ctl (s : State) (instr : Bool) (i : Nat) (e : TlbEntry) : (s.setTlbEntry instr i e).ctl = s.ctl := by unfold State.setTlbEntry; split <;> [split; skip] <;> rfl
@[simp] theorem State.setTlbEntry_ret (s : State) (instr : Bool) (i : Nat) (e : TlbEntry) : (s.setTlbEntry instr i e).ret = s.ret := by unfold State.setTlbEntry; split <;> [split; skip] <;> rfl
@[simp] theorem State.setTlbEntry_java (s : State) (instr : Bool) (i : Nat) (e : TlbEntry) : (s.setTlbEntry instr i e).java = s.java := by unfold State.setTlbEntry; split <;> [split; skip] <;> rfl
@[simp] theorem State.setTlbEntry_timer (s : State) (instr : Bool) (i : Nat) (e : TlbEntry) : (s.setTlbEntry instr i e).timer = s.timer := by unfold State.setTlbEntry; split <;> [split; skip] <;> rfl
@[simp] theorem State.setTlbEntry_perf (s : State) (instr : Bool) (i : Nat) (e : TlbEntry) : (s.setTlbEntry instr i e).perf = s.perf := by unfold State.setTlbEntry; split <;> [split; skip] <;> rfl
@[simp] theorem State.setTlbEntry_mpu (s : State) (instr : Bool) (i : Nat) (e : TlbEntry) : (s.setTlbEntry instr i e).mpu = s.mpu := by unfold State.setTlbEntry; split <;> [split; skip] <;> rfl
@[simp] theorem State.setTlbEntry_sec (s : State) (instr : Bool) (i : Nat) (e : TlbEntry) : (s.setTlbEntry instr i e).sec = s.sec := by unfold State.setTlbEntry; split <;> [split; skip] <;> rfl
@[simp] theorem State.setTlbEntry_impl (s : State) (instr : Bool) (i : Nat) (e : TlbEntry) : (s.setTlbEntry instr i e).impl = s.impl := by unfold State.setTlbEntry; split <;> [split; skip] <;> rfl
@[simp] theorem State.setTlbEntry_cop (s : State) (instr : Bool) (i : Nat) (e : TlbEntry) : (s.setTlbEntry instr i e).cop = s.cop := by unfold State.setTlbEntry; split <;> [split; skip] <;> rfl
@[simp] theorem State.setTlbEntry_debug (s : State) (instr : Bool) (i : Nat) (e : TlbEntry) : (s.setTlbEntry instr i e).debug = s.debug := by unfold State.setTlbEntry; split <;> [split; skip] <;> rfl
@[simp] theorem State.setTlbEntry_busErr (s : State) (instr : Bool) (i : Nat) (e : TlbEntry) : (s.setTlbEntry instr i e).busErr = s.busErr := by unfold State.setTlbEntry; split <;> [split; skip] <;> rfl
@[simp] theorem State.setTlbEntry_sleeping (s : State) (instr : Bool) (i : Nat) (e : TlbEntry) : (s.setTlbEntry instr i e).sleeping = s.sleeping := by unfold State.setTlbEntry; split <;> [split; skip] <;> rfl
@[simp] theorem State.setTlbEntry_ocdStopped (s : State) (instr : Bool) (i : Nat) (e : TlbEntry) : (s.setTlbEntry instr i e).ocdStopped = s.ocdStopped := by unfold State.setTlbEntry; split <;> [split; skip] <;> rfl
@[simp] theorem State.setTlbEntry_busErrDue (s : State) (instr : Bool) (i : Nat) (e : TlbEntry) : (s.setTlbEntry instr i e).busErrDue = s.busErrDue := by unfold State.setTlbEntry; split <;> [split; skip] <;> rfl
@[simp] theorem State.setTlbEntry_hazardLeft (s : State) (instr : Bool) (i : Nat) (e : TlbEntry) : (s.setTlbEntry instr i e).hazardLeft = s.hazardLeft := by unfold State.setTlbEntry; split <;> [split; skip] <;> rfl
@[simp] theorem State.setTlbEntry_hazardFlag (s : State) (instr : Bool) (i : Nat) (e : TlbEntry) : (s.setTlbEntry instr i e).hazardFlag = s.hazardFlag := by unfold State.setTlbEntry; split <;> [split; skip] <;> rfl
@[simp] theorem State.setTlbEntry_mem (s : State) (instr : Bool) (i : Nat) (e : TlbEntry) : (s.setTlbEntry instr i e).mem = s.mem := by unfold State.setTlbEntry; split <;> [split; skip] <;> rfl
@[simp] theorem State.setTlbEntry_now (s : State) (instr : Bool) (i : Nat) (e : TlbEntry) : (s.setTlbEntry instr i e).now = s.now := by unfold State.setTlbEntry; split <;> [split; skip] <;> rfl
@[simp] theorem State.setTlbEntry_env (s : State) (instr : Bool) (i : Nat) (e : TlbEntry) : (s.setTlbEntry instr i e).env = s.env := by unfold State.setTlbEntry; split <;> [split; skip] <;> rfl
@[simp] theorem State.setTlbEntry_freeIdx (s : State) (instr : Bool) (i : Nat) (e : TlbEntry) : (s.setTlbEntry instr i e).freeIdx = s.freeIdx := by unfold State.setTlbEntry; split <;> [split; skip] <;> rfl
@[simp] theorem State.setTlbEntry_taken (s : State) (instr : Bool) (i : Nat) (e : TlbEntry) : (s.setTlbEntry instr i e).taken = s.taken := by unfold State.setTlbEntry; split <;> [split; skip] <;> rfl

end Sys2Proof.Machine
end

