-- ==== Sys2Proof/Laws/Flags.lean ====
section
/-! SUPPORT. The status register bit by bit: what `setBit`, the flag updates and a whole-word write leave in each bit, and the flag formulas as
statements about exact integers (40_arithmetic.md R450). -/

namespace Sys2Proof.Machine

/-- One bit of `setBit`. -/
theorem getLsbD_setBit {w : Word} {n m : Nat} {b : Bool} (hm : m < 32) :
    (setBit w n b).getLsbD m = if m = n then b else w.getLsbD m := by
  have one : (1#32 <<< n).getLsbD m = decide (m = n) := by
    simp only [BitVec.getLsbD_shiftLeft, BitVec.getLsbD_one]
    by_cases h : m = n
    · subst h; simp [hm]
    · simp only [h, decide_false]
      by_cases h2 : m < n <;> simp [h2]
      omega
  cases b <;> simp only [setBit, Bool.false_eq_true, if_false, if_true, BitVec.getLsbD_and, BitVec.getLsbD_or, BitVec.getLsbD_not, one, hm]
  · by_cases h : m = n <;> simp [h]
  · by_cases h : m = n <;> simp [h]

theorem getLsbD_setBitIf {w : Word} {n m : Nat} {o : Option Bool} (hm : m < 32) :
    (setBitIf w n o).getLsbD m = if m = n then o.getD (w.getLsbD m) else w.getLsbD m := by
  cases o with
  | none => simp [setBitIf]
  | some b => simp [setBitIf, getLsbD_setBit hm]

/-- A flag update changes the five arithmetic flags it names and no other bit. -/
theorem getLsbD_applyFlags {sr : Word} {u : FlagUpdate} {m : Nat} (hm : m < 32) :
    (applyFlags sr u).getLsbD m =
      if m = 0 then u.c.getD (sr.getLsbD 0) else if m = 1 then u.z.getD (sr.getLsbD 1) else if m = 2 then u.n.getD (sr.getLsbD 2)
      else if m = 3 then u.v.getD (sr.getLsbD 3) else if m = 4 then u.q.getD (sr.getLsbD 4) else sr.getLsbD m := by
  simp only [applyFlags, getLsbD_setBitIf hm, bitC, bitZ, bitN, bitV, bitQ]
  by_cases h0 : m = 0
  · subst h0; simp
  by_cases h1 : m = 1
  · subst h1; simp
  by_cases h2 : m = 2
  · subst h2; simp
  by_cases h3 : m = 3
  · subst h3; simp
  by_cases h4 : m = 4
  · subst h4; simp
  simp [*]

/-- A flag update leaves every bit above Q. -/
theorem applyFlags_above {sr : Word} {u : FlagUpdate} {m : Nat} (hm : m < 32) (h : 4 < m) : (applyFlags sr u).getLsbD m = sr.getLsbD m := by
  rw [getLsbD_applyFlags hm]
  simp [show m ≠ 0 by omega, show m ≠ 1 by omega, show m ≠ 2 by omega, show m ≠ 3 by omega, show m ≠ 4 by omega]

@[simp] theorem applyFlags_noFlags (sr : Word) : applyFlags sr noFlags = sr := rfl

/-- The mode as its three bits. -/
theorem State.mode_congr {s t : State} (h : ∀ m, m = 22 ∨ m = 23 ∨ m = 24 → t.sr.getLsbD m = s.sr.getLsbD m) : t.mode = s.mode := by
  unfold State.mode
  ext i hi
  simp only [BitVec.getElem_extractLsb']
  exact h _ (by omega)

@[simp] theorem State.mode_setFlags (s : State) (u : FlagUpdate) : (s.setFlags u).mode = s.mode :=
  State.mode_congr (fun m hm => by rw [State.setFlags_sr]; exact applyFlags_above (by omega) (by omega))

@[simp] theorem State.secure_setFlags (s : State) (u : FlagUpdate) : (s.setFlags u).srBit bitSS = s.srBit bitSS := by
  simp only [State.srBit, State.setFlags_sr]; exact applyFlags_above (by decide) (by decide)

/-! ## The flag formulas -/

/-- V of an addition: the exact signed sum does not fit the width (R450). -/
theorem vAdd_iff {n : Nat} (a b : BitVec (n + 1)) :
    vAdd a b (a + b) = true ↔ ¬ (-(2 ^ n : Int) ≤ a.toInt + b.toInt ∧ a.toInt + b.toInt < 2 ^ n) := by
  have key : vAdd a b (a + b) = a.saddOverflow b := by
    rw [BitVec.saddOverflow_eq]
    simp only [vAdd]
    cases a.msb <;> cases b.msb <;> cases (a + b).msb <;> rfl
  rw [key]
  simp only [BitVec.saddOverflow, Nat.add_sub_cancel, ge_iff_le, Bool.or_eq_true, decide_eq_true_eq]
  omega

/-- C of an addition: the exact unsigned sum does not fit the width (R450). -/
theorem cAdd_iff {n : Nat} (a b : BitVec (n + 1)) : cAdd a b (a + b) = true ↔ 2 ^ (n + 1) ≤ a.toNat + b.toNat := by
  have ha := a.isLt; have hb := b.isLt
  have h2 : 2 ^ (n + 1) = 2 ^ n + 2 ^ n := by omega
  have hr : (a + b).toNat = (a.toNat + b.toNat) % 2 ^ (n + 1) := BitVec.toNat_add a b
  simp only [cAdd, BitVec.msb_eq_decide, Nat.add_sub_cancel, Bool.or_eq_true, Bool.and_eq_true, Bool.not_eq_true', decide_eq_true_eq,
    decide_eq_false_iff_not, hr]
  by_cases h : a.toNat + b.toNat < 2 ^ (n + 1)
  · rw [Nat.mod_eq_of_lt h]; omega
  · rw [Nat.mod_eq_sub_mod (by omega), Nat.mod_eq_of_lt (by omega)]; omega

/-- C of a subtraction: a borrow (R450). -/
theorem cSub_iff {n : Nat} (a b : BitVec (n + 1)) : cSub a b (a - b) = true ↔ a.toNat < b.toNat := by
  have ha := a.isLt; have hb := b.isLt
  have h2 : 2 ^ (n + 1) = 2 ^ n + 2 ^ n := by omega
  have hr : (a - b).toNat = (2 ^ (n + 1) - b.toNat + a.toNat) % 2 ^ (n + 1) := BitVec.toNat_sub a b
  simp only [cSub, BitVec.msb_eq_decide, Nat.add_sub_cancel, Bool.or_eq_true, Bool.and_eq_true, Bool.not_eq_true', decide_eq_true_eq,
    decide_eq_false_iff_not, hr]
  by_cases h : a.toNat < b.toNat
  · rw [Nat.mod_eq_of_lt (by omega)]; omega
  · rw [Nat.mod_eq_sub_mod (by omega), Nat.mod_eq_of_lt (by omega)]; omega

/-- V of a subtraction: the exact signed difference does not fit the width (R450). -/
theorem vSub_iff {n : Nat} (a b : BitVec (n + 1)) :
    vSub a b (a - b) = true ↔ ¬ (-(2 ^ n : Int) ≤ a.toInt - b.toInt ∧ a.toInt - b.toInt < 2 ^ n) := by
  have key : vSub a b (a - b) = a.ssubOverflow b := by
    rw [BitVec.ssubOverflow_eq]
    simp only [vSub]
    cases a.msb <;> cases b.msb <;> cases (a - b).msb <;> rfl
  rw [key]
  simp only [BitVec.ssubOverflow, Nat.add_sub_cancel, ge_iff_le, Bool.or_eq_true, decide_eq_true_eq]
  omega

end Sys2Proof.Machine
end

