-- ==== Sys2Proof/Laws/Registers.lean ====
section
/-! SUPPORT. The register file: which physical register a number names, and that a write reaches that register and no other
(10_state.md R104, R111). -/

namespace Sys2Proof.Machine

theorem State.phys_real (s : State) (i : RegNo) : (s.phys i).Real := by
  unfold State.phys
  split
  · trivial
  · split
    · split
      · trivial
      · split <;> trivial
    · exact ⟨‹_›, ‹_›⟩

/-- The configuration, SR[SS] and the mode decide which register a number names. -/
theorem State.phys_congr {s t : State} (hc : t.cfg = s.cfg) (hs : t.srBit bitSS = s.srBit bitSS) (hm : t.mode = s.mode) (i : RegNo) :
    t.phys i = s.phys i := by
  simp [State.phys, hc, hs, hm]

/-- Numbers name different registers. -/
theorem State.phys_ne {s : State} {i j : RegNo} (h : i ≠ j) : s.phys i ≠ s.phys j := by
  unfold State.phys
  by_cases hi : i = 15#4 <;> by_cases hj : j = 15#4 <;> by_cases hi' : i = 13#4 <;> by_cases hj' : j = 13#4 <;> simp_all <;>
    split <;> try split
  all_goals simp

@[simp] theorem State.mode_advance (s : State) (n : Word) : (s.advance n).mode = s.mode := rfl
@[simp] theorem State.srBit_advance (s : State) (n : Word) (b : Nat) : (s.advance n).srBit b = s.srBit b := rfl
@[simp] theorem State.mode_jump (s : State) (a : Word) : (s.jump a).mode = s.mode := rfl
@[simp] theorem State.srBit_jump (s : State) (a : Word) (b : Nat) : (s.jump a).srBit b = s.srBit b := rfl
@[simp] theorem State.mode_setReg (s : State) (i : RegNo) (v : Word) : (s.setReg i v).mode = s.mode := by simp [State.mode]
@[simp] theorem State.srBit_setReg (s : State) (i : RegNo) (v : Word) (b : Nat) : (s.setReg i v).srBit b = s.srBit b := by
  simp [State.srBit]

@[simp] theorem State.phys_advance (s : State) (n : Word) (i : RegNo) : (s.advance n).phys i = s.phys i := rfl
@[simp] theorem State.phys_jump (s : State) (a : Word) (i : RegNo) : (s.jump a).phys i = s.phys i := rfl
@[simp] theorem State.phys_setReg (s : State) (j : RegNo) (v : Word) (i : RegNo) : (s.setReg j v).phys i = s.phys i :=
  State.phys_congr (by simp) (by simp) (by simp) i
@[simp] theorem State.phys_setFlags (s : State) (u : FlagUpdate) (i : RegNo) : (s.setFlags u).phys i = s.phys i :=
  State.phys_congr (by simp) (by simp) (by simp) i

@[simp] theorem State.readPhys_setFlags (s : State) (u : FlagUpdate) (p : PhysReg) : (s.setFlags u).readPhys p = s.readPhys p := by
  cases p with
  | bank c i => cases c <;> rfl
  | _ => rfl

theorem State.readPhys_advance (s : State) (n : Word) (p : PhysReg) (h : p ≠ .pc) : (s.advance n).readPhys p = s.readPhys p := by
  cases p with
  | pc => exact absurd rfl h
  | bank c i => cases c <;> rfl
  | _ => rfl

theorem State.readPhys_jump (s : State) (a : Word) (p : PhysReg) (h : p ≠ .pc) : (s.jump a).readPhys p = s.readPhys p := by
  cases p with
  | pc => exact absurd rfl h
  | bank c i => cases c <;> rfl
  | _ => rfl

theorem Bank.get_set_same (b : Bank) (i : RegNo) (v : Word) : (b.set i v).get i = v := by
  unfold Bank.set Bank.get
  split <;> simp

/-- Two registers of a bank that are both real. -/
theorem Bank.get_set_other (b : Bank) {i j : RegNo} (v : Word) (hi : i ≠ 13#4 ∧ i ≠ 15#4) (hj : j ≠ 13#4 ∧ j ≠ 15#4) (h : j ≠ i) :
    (b.set i v).get j = b.get j := by
  have n13 : ∀ k : RegNo, k ≠ 13#4 ∧ k ≠ 15#4 → k.toNat < 13 ∨ k = 14#4 := by decide
  have ne : i.toNat ≠ j.toNat := fun e => h (BitVec.eq_of_toNat_eq e).symm
  unfold Bank.set Bank.get
  rcases n13 i hi with h1 | h1 <;> rcases n13 j hj with h2 | h2
  · simp only [h1, h2, dif_pos]
    exact Vector.getElem_set_ne _ _ ne
  · subst h2; simp [h1]
  · subst h1; simp [h2]
  · exact absurd (h2.trans h1.symm) h

@[simp] theorem State.bank_setBank_same (s : State) (b : Bank) (c : Context) : (s.setBank b c).bank c = b := by cases c <;> rfl

theorem State.bank_setBank_other (s : State) (b : Bank) {c d : Context} (h : d ≠ c) : (s.setBank b c).bank d = s.bank d := by
  cases c <;> cases d <;> first | rfl | exact absurd rfl h

/-- A write is read back, but for the PC, which loses bit 0. -/
theorem State.readPhys_writePhys_same (s : State) (p : PhysReg) (v : Word) :
    (s.writePhys p v).readPhys p = if p = .pc then v &&& 0xFFFFFFFE#32 else v := by
  cases p with
  | bank c i => simp [State.writePhys, State.readPhys, Bank.get_set_same]
  | _ => rfl

/-- A write reaches no other register. -/
theorem State.readPhys_writePhys_other (s : State) {p q : PhysReg} (v : Word) (hp : p.Real) (hq : q.Real) (h : q ≠ p) :
    (s.writePhys p v).readPhys q = s.readPhys q := by
  cases p with
  | bank c i =>
    cases q with
    | bank d j =>
      simp only [State.writePhys, State.readPhys]
      by_cases hcd : d = c
      · subst hcd
        rw [State.bank_setBank_same, Bank.get_set_other _ _ hp hq (fun e => h (by rw [e]))]
      · rw [State.bank_setBank_other _ _ hcd]
    | _ => simp [State.writePhys, State.readPhys]
  | pc =>
    cases q with
    | pc => exact absurd rfl h
    | bank d j => cases d <;> rfl
    | _ => rfl
  | spApp =>
    cases q with
    | spApp => exact absurd rfl h
    | bank d j => cases d <;> rfl
    | _ => rfl
  | spSys =>
    cases q with
    | spSys => exact absurd rfl h
    | bank d j => cases d <;> rfl
    | _ => rfl
  | spSec =>
    cases q with
    | spSec => exact absurd rfl h
    | bank d j => cases d <;> rfl
    | _ => rfl

/-- R`i` reads back what was written to it. -/
theorem State.getReg_setReg_same (s : State) {i : RegNo} (v : Word) (h : i ≠ 15#4) : (s.setReg i v).getReg i = v := by
  have hp : s.phys i ≠ .pc := by
    unfold State.phys
    rw [if_neg h]
    split <;> [split; skip] <;> [skip; split; skip] <;> simp
  rw [State.getReg, State.phys_setReg, State.setReg, State.readPhys_writePhys_same, if_neg hp]

/-- Writing R`i` leaves R`j`. -/
theorem State.getReg_setReg_other (s : State) {i j : RegNo} (v : Word) (h : j ≠ i) : (s.setReg i v).getReg j = s.getReg j := by
  rw [State.getReg, State.phys_setReg]
  exact State.readPhys_writePhys_other s v (State.phys_real s i) (State.phys_real s j) (State.phys_ne h)

/-- A write to R15 is a jump (R111). -/
theorem State.setReg_pc (s : State) (v : Word) : s.setReg 15#4 v = s.jump v := rfl

/-- A register write leaves the PC, but for R15. -/
theorem State.setReg_keeps_pc (s : State) {i : RegNo} (v : Word) (h : i ≠ 15#4) : (s.setReg i v).pc = s.pc :=
  State.readPhys_writePhys_other s (p := s.phys i) (q := .pc) v (State.phys_real s i) trivial (State.phys_ne (i := 15#4) (Ne.symm h))

@[simp] theorem State.getReg_setFlags (s : State) (u : FlagUpdate) (i : RegNo) : (s.setFlags u).getReg i = s.getReg i := by
  rw [State.getReg, State.phys_setFlags, State.readPhys_setFlags]; rfl

/-- The PC aside, advancing it changes no register. -/
theorem State.getReg_advance (s : State) (n : Word) {i : RegNo} (h : i ≠ 15#4) : (s.advance n).getReg i = s.getReg i :=
  State.readPhys_advance s n _ (by rw [State.phys_advance]; exact State.phys_ne (j := 15#4) h)

end Sys2Proof.Machine
end

