-- ==== Sys2Proof/Laws/Access.lean ====
section
/-! SUPPORT. What each shared operation of Machine/Ops.lean can do, said once: the checks of an access leave the state but for Accessed bits and
free values; a data access also changes memory in its canonical form, or notes a bus error. -/

namespace Sys2Proof.Machine

/-! ## Entries and their Accessed bits -/

/-- The entries of `u` are those of `v`, some with the Accessed bit cleared. -/
def Aged (v u : Vector TlbEntry 64) : Prop := ∀ k (h : k < 64), u[k] = v[k] ∨ u[k] = { v[k] with a := false }

theorem Aged.refl (v : Vector TlbEntry 64) : Aged v v := fun _ _ => .inl rfl

theorem Aged.trans {v u w : Vector TlbEntry 64} (h : Aged v u) (g : Aged u w) : Aged v w := by
  intro k hk
  rcases h k hk with e | e <;> rcases g k hk with f | f <;> rw [e] at f
  · exact .inl f
  · exact .inr f
  · exact .inr f
  · exact .inr f

/-- Clearing the Accessed bit of the entry at `i`. -/
theorem Aged.set {v : Vector TlbEntry 64} {i : Nat} (h : i < 64) {e : TlbEntry} (he : v[i] = e) :
    Aged v (v.set i { e with a := false } h) := by
  intro k hk
  by_cases hi : i = k
  · subst hi; right; rw [Vector.getElem_set_self, he]
  · left; exact Vector.getElem_set_ne _ _ hi

/-! ## Checks -/

theorem OnlyChecked.refl (s : State) : OnlyChecked s s :=
  ⟨s.mmu.itlb, s.mmu.dtlb, s.freeIdx, rfl, Aged.refl _, Aged.refl _⟩

theorem OnlyChecked.trans {s t u : State} (h : OnlyChecked s t) (g : OnlyChecked t u) : OnlyChecked s u := by
  obtain ⟨i, d, n, rfl, hi, hd⟩ := h
  obtain ⟨i', d', n', rfl, hi', hd'⟩ := g
  exact ⟨i', d', n', rfl, Aged.trans hi hi', Aged.trans hd hd'⟩

theorem OnlyChecked.drawFree (s : State) (n : Nat) : OnlyChecked s (s.drawFree n) :=
  ⟨s.mmu.itlb, s.mmu.dtlb, s.freeIdx + n, rfl, Aged.refl _, Aged.refl _⟩

/-! ## Accesses -/

/-- What a data access leaves of the state. -/
structure Accessed (s t : State) : Prop where
  frame : ∃ mem busErr itlb dtlb n between,
    t = { s with mem := mem, busErr := busErr, mmu := { s.mmu with itlb := itlb, dtlb := dtlb }, freeIdx := n,
                 now := { s.now with busBetween := between } }
  memory : Memory.wf s.mem = true → Memory.wf t.mem = true
  itlb : Aged s.mmu.itlb t.mmu.itlb
  dtlb : Aged s.mmu.dtlb t.mmu.dtlb

theorem OnlyChecked.accessed {s t : State} (h : OnlyChecked s t) : Accessed s t := by
  obtain ⟨i, d, n, rfl, hi, hd⟩ := h
  exact ⟨⟨s.mem, s.busErr, i, d, n, s.now.busBetween, rfl⟩, id, hi, hd⟩

theorem Accessed.refl (s : State) : Accessed s s := (OnlyChecked.refl s).accessed

theorem Accessed.trans {s t u : State} (h : Accessed s t) (g : Accessed t u) : Accessed s u := by
  obtain ⟨⟨m, b, i, d, n, l, e⟩, w, hi, hd⟩ := h
  obtain ⟨⟨m', b', i', d', n', l', e'⟩, w', hi', hd'⟩ := g
  exact ⟨⟨m', b', i', d', n', l', by rw [e', e]⟩, fun x => w' (w x), hi.trans hi', hd.trans hd'⟩

section
variable {s t : State} (h : Accessed s t)
include h
theorem Accessed.cfg : t.cfg = s.cfg := by obtain ⟨_, _, _, _, _, _, rfl⟩ := h.frame; rfl
theorem Accessed.sr : t.sr = s.sr := by obtain ⟨_, _, _, _, _, _, rfl⟩ := h.frame; rfl
theorem Accessed.pc : t.pc = s.pc := by obtain ⟨_, _, _, _, _, _, rfl⟩ := h.frame; rfl
theorem Accessed.taken : t.taken = s.taken := by obtain ⟨_, _, _, _, _, _, rfl⟩ := h.frame; rfl
theorem Accessed.mmucr : t.mmu.mmucr = s.mmu.mmucr := by obtain ⟨_, _, _, _, _, _, rfl⟩ := h.frame; rfl
theorem Accessed.readPhys (p : PhysReg) : t.readPhys p = s.readPhys p := by
  obtain ⟨_, _, _, _, _, _, rfl⟩ := h.frame
  cases p with
  | bank c i => cases c <;> rfl
  | _ => rfl
theorem Accessed.phys (i : RegNo) : t.phys i = s.phys i :=
  State.phys_congr h.cfg (by simp [State.srBit, h.sr]) (by simp [State.mode, h.sr]) i
theorem Accessed.getReg (i : RegNo) : t.getReg i = s.getReg i := by rw [State.getReg, h.phys, h.readPhys]; rfl
theorem Accessed.privileged : t.privileged = s.privileged := by
  simp [State.privileged, State.inApplication, State.mode, State.srBit, h.sr]
end

theorem Accessed.drawFree (s : State) (n : Nat) : Accessed s (s.drawFree n) := (OnlyChecked.drawFree s n).accessed

theorem Accessed.noteBusError (s : State) (pa : Word) : Accessed s (s.noteBusError pa) :=
  ⟨⟨s.mem, s.busErr ++ [pa], s.mmu.itlb, s.mmu.dtlb, s.freeIdx, s.now.busBetween, rfl⟩, id, Aged.refl _, Aged.refl _⟩

theorem Accessed.write (s : State) (ps : List (Word × Nat)) (bs : List Byte) :
    Accessed s { s with mem := writeTransfers s.mem ps bs } :=
  ⟨⟨_, s.busErr, s.mmu.itlb, s.mmu.dtlb, s.freeIdx, s.now.busBetween, rfl⟩, writeTransfers_wf, Aged.refl _, Aged.refl _⟩

theorem Accessed.writeBytes (s : State) (pa : Word) (bs : List Byte) : Accessed s { s with mem := writeBytes s.mem pa bs } :=
  ⟨⟨_, s.busErr, s.mmu.itlb, s.mmu.dtlb, s.freeIdx, s.now.busBetween, rfl⟩, writeBytes_wf, Aged.refl _, Aged.refl _⟩

theorem Accessed.busTurn (s : State) : Accessed s s.busTurn :=
  ⟨⟨_, s.busErr, s.mmu.itlb, s.mmu.dtlb, s.freeIdx, _, rfl⟩, Memory.writeAll_wf _, Aged.refl _, Aged.refl _⟩

theorem Accessed.turnIfMore (s : State) (more : Nat) : Accessed s (s.turnIfMore more) := by
  cases more with
  | zero => exact Accessed.refl s
  | succ n => exact Accessed.busTurn s

theorem readTurns_accessed (ps : List (Word × Nat)) (s : State) : Accessed s (readTurns s ps).2 := by
  induction ps generalizing s with
  | nil => exact Accessed.refl s
  | cons p ps ih => exact (Accessed.turnIfMore s _).trans (ih _)

theorem writeTurns_accessed (ps : List (Word × Nat)) (bs : List Byte) (s : State) : Accessed s (writeTurns s ps bs) := by
  induction ps generalizing s bs with
  | nil => exact Accessed.refl s
  | cons p ps ih => exact ((Accessed.writeBytes s _ _).trans (Accessed.turnIfMore _ _)).trans (ih _ _)

/-- The state an operation leaves, whether it answers or raises. -/
def Res.Leaves {α : Type} (r : Res α) (P : State → Prop) : Prop :=
  match r with
  | .ok _ s => P s
  | .raise _ s => P s

theorem Res.Leaves.mono {α : Type} {r : Res α} {P Q : State → Prop} (h : r.Leaves P) (hpq : ∀ s, P s → Q s) : r.Leaves Q := by
  cases r <;> exact hpq _ h

@[simp] theorem Res.ofAddress_ok {α : Type} (a : α) (s : State) (va : Word) : (Res.ok a s).ofAddress va = .ok a s := rfl
@[simp] theorem Res.ofAddress_raise {α : Type} (e : Event) (s : State) (va : Word) :
    (Res.raise (α := α) e s).ofAddress va = .raise (e.ofAddress va) s := rfl
@[simp] theorem Event.ofAddress_failingAddress (e : Event) (va : Word) :
    (e.ofAddress va).failingAddress = e.failingAddress.map fun _ => va := by
  cases e <;> rfl

theorem Res.Leaves.ofAddress {α : Type} {r : Res α} {P : State → Prop} (h : r.Leaves P) (va : Word) : (r.ofAddress va).Leaves P := by
  cases r <;> exact h

/-- A sequence of two accesses is an access. -/
theorem Res.Leaves.bind {α β : Type} {r : Res α} {f : α → State → Res β} {s : State} (h : r.Leaves (Accessed s))
    (g : ∀ a t, (f a t).Leaves (Accessed t)) : (r.bind f).Leaves (Accessed s) := by
  cases r with
  | ok a t => exact (g a t).mono (fun u hu => Accessed.trans h hu)
  | raise e t => exact h

/-! ## Translation -/

/-- An entry that the search of a TLB found stands at its index. -/
theorem State.tlbHits_entry {s : State} {instr : Bool} {va : Word} {e : TlbEntry} {i : Nat} (h : (e, i) ∈ s.tlbHits instr va) :
    ∃ hi : i < 64, (s.tlb instr)[i] = e := by
  simp only [State.tlbHits, List.mem_filter] at h
  obtain ⟨hi, he⟩ := List.mem_zipIdx' h.1
  simp only [List.length_take, Vector.length_toList] at hi
  refine ⟨by omega, ?_⟩
  simpa using he.symm

/-- Clearing the Accessed bit of an entry that was found. -/
theorem State.age_checked {s : State} {instr : Bool} {va : Word} {e : TlbEntry} {i : Nat} (h : (e, i) ∈ s.tlbHits instr va) :
    OnlyChecked s (s.setTlbEntry instr i { e with a := false }) := by
  obtain ⟨hi, he⟩ := State.tlbHits_entry h
  unfold State.setTlbEntry
  rw [dif_pos hi]
  by_cases hu : usesItlb s.cfg instr = true
  · rw [if_pos hu]
    simp only [State.tlb, hu, if_true] at he
    exact ⟨_, s.mmu.dtlb, s.freeIdx, rfl, Aged.set hi he, Aged.refl _⟩
  · rw [if_neg hu]
    simp only [State.tlb, hu] at he
    exact ⟨s.mmu.itlb, _, s.freeIdx, rfl, Aged.refl _, Aged.set hi he⟩

theorem translatePaged_leaves (k : Access) (priv : Bool) (va : Word) (s : State) : (translatePaged k priv va s).Leaves (OnlyChecked s) := by
  unfold translatePaged
  simp only
  split
  · exact OnlyChecked.refl s
  · rename_i e i he
    have := State.age_checked (s := s) (e := e) (i := i) (instr := k == .fetch) (va := va) (by rw [he]; simp)
    split
    · exact this
    · cases k
      · exact this
      · simp only; split
        · exact this
        · split <;> exact this
      · simp only; split <;> exact this
  · exact OnlyChecked.refl s

theorem translateMmu_leaves (k : Access) (priv : Bool) (va : Word) (s : State) : (translateMmu k priv va s).Leaves (OnlyChecked s) := by
  unfold translateMmu
  simp only
  have paged := translatePaged_leaves k priv va s
  repeat' split
  all_goals first | exact paged | exact OnlyChecked.refl s

theorem checkMpu_leaves (k : Access) (priv : Bool) (va : Word) (s : State) : (checkMpu k priv va s).Leaves (OnlyChecked s) := by
  unfold checkMpu
  simp only
  repeat' split
  all_goals first | exact OnlyChecked.refl s | exact OnlyChecked.drawFree s 1

theorem translate_leaves (k : Access) (priv : Bool) (va : Word) (s : State) : (translate k priv va s).Leaves (OnlyChecked s) := by
  unfold translate
  split
  · exact OnlyChecked.refl s
  · exact translateMmu_leaves k priv va s
  · exact translateMmu_leaves k priv va s
  · exact checkMpu_leaves k priv va s

theorem translateAll_leaves (k : Access) (priv : Bool) (ts : List (Word × Nat)) (s : State) :
    (translateAll k priv ts s).Leaves (OnlyChecked s) := by
  induction ts generalizing s with
  | nil => exact OnlyChecked.refl s
  | cons p ts ih =>
    obtain ⟨va, n⟩ := p
    have h := translate_leaves k priv va s
    rw [translateAll]
    cases hr : translate k priv va s with
    | raise e s1 => rw [hr] at h; exact h
    | ok pa s1 =>
      rw [hr] at h
      have h2 := ih s1
      simp only [Res.bind]
      cases hr2 : translateAll k priv ts s1 with
      | raise e s2 => rw [hr2] at h2; exact OnlyChecked.trans h h2
      | ok ps s2 => rw [hr2] at h2; exact OnlyChecked.trans h h2

/-- The checks of an access leave Accessed bits and free values. -/
theorem checkAccess_leaves (k : Access) (priv : Bool) (kind : LsKind) (n : Nat) (va : Word) (s : State) :
    (checkAccess k priv kind n va s).Leaves (OnlyChecked s) := by
  unfold checkAccess
  split
  · exact OnlyChecked.refl s
  · exact (translateAll_leaves k priv _ s).ofAddress va

/-- Translation raises events that carry the address it was asked for. -/
theorem translate_raises {k : Access} {priv : Bool} {va : Word} {s s1 : State} {e : Event} (h : translate k priv va s = .raise e s1) :
    e.failingAddress = some va := by
  have miss : (missEvent k va).failingAddress = some va := by cases k <;> rfl
  have protection : (protectionEvent k va).failingAddress = some va := by cases k <;> rfl
  have paged : ∀ {e s1}, translatePaged k priv va s = .raise e s1 → e.failingAddress = some va := by
    intro e s1 h
    unfold translatePaged at h
    simp only at h
    split at h
    · cases h; exact miss
    · cases k <;> simp only at h <;> (repeat' split at h) <;> cases h <;> exact protection
    · cases h; rfl
  have mmu : translateMmu k priv va s = .raise e s1 → e.failingAddress = some va := by
    intro h
    unfold translateMmu at h
    simp only at h
    repeat' split at h
    all_goals first | exact paged h | (cases h <;> exact protection)
  unfold translate at h
  split at h
  · cases h
  · exact mmu h
  · exact mmu h
  · unfold checkMpu at h
    simp only at h
    repeat' split at h
    all_goals (cases h <;> first | exact miss | exact protection | rfl)

/-- An event of a data access carries the effective address, whichever part of the access failed (R261). -/
theorem checkAccess_raises {k : Access} {priv : Bool} {kind : LsKind} {n : Nat} {va : Word} {s s1 : State} {e : Event}
    (h : checkAccess k priv kind n va s = .raise e s1) : e.failingAddress = some va := by
  have all : ∀ (ts : List (Word × Nat)) (s : State) {e s1}, translateAll k priv ts s = .raise e s1 → e.failingAddress.isSome := by
    intro ts
    induction ts with
    | nil => intro s e s1 h; cases h
    | cons p ts ih =>
      intro s e s1 h
      rw [translateAll] at h
      cases ht : translate k priv p.1 s with
      | raise e' s' => rw [ht] at h; cases h; simp [translate_raises ht]
      | ok r s' =>
        rw [ht] at h
        simp only [Res.bind] at h
        cases hr : translateAll k priv ts s' with
        | raise e' s'' => rw [hr] at h; cases h; exact ih s' hr
        | ok ps s'' => rw [hr] at h; cases h
  unfold checkAccess at h
  split at h
  · cases h; cases k <;> rfl
  · rename_i ts _
    cases hr : translateAll k priv ts s with
    | ok ps s' => rw [hr] at h; cases h
    | raise e' s' =>
      rw [hr] at h
      cases h
      have := all ts s hr
      rw [Event.ofAddress_failingAddress]
      cases he : e'.failingAddress with
      | none => rw [he] at this; cases this
      | some a => rfl

theorem checkAccess_accessed (k : Access) (priv : Bool) (kind : LsKind) (n : Nat) (va : Word) (s : State) :
    (checkAccess k priv kind n va s).Leaves (Accessed s) :=
  (checkAccess_leaves k priv kind n va s).mono (fun _ h => h.accessed)

/-! ## Data accesses -/

theorem readChecked_accessed (ps : List (Word × Nat)) (s : State) : Accessed s (readChecked ps s).2 := by
  unfold readChecked
  split
  · exact Accessed.noteBusError s _
  · exact readTurns_accessed ps s

theorem writeChecked_accessed (ps : List (Word × Nat)) (bs : List Byte) (s : State) : Accessed s (writeChecked ps bs s) := by
  unfold writeChecked
  split
  · exact Accessed.noteBusError s _
  · exact writeTurns_accessed ps bs s

theorem readLocked_accessed (ps : List (Word × Nat)) (s : State) : Accessed s (readLocked ps s).2 := by
  unfold readLocked
  split
  · exact Accessed.noteBusError s _
  · exact Accessed.refl s

theorem writeLocked_accessed (ps : List (Word × Nat)) (bs : List Byte) (s : State) : Accessed s (writeLocked ps bs s) := by
  unfold writeLocked
  split
  · exact Accessed.noteBusError s _
  · exact Accessed.write s ps bs

theorem load_accessed (kind : LsKind) (n : Nat) (conv : Word → Word) (va : Word) (s : State) : (load kind n conv va s).Leaves (Accessed s) := by
  refine (checkAccess_accessed ..).bind fun ps t => ?_
  have h := readChecked_accessed ps t
  split <;> rename_i e <;> rw [e] at h
  · exact h
  · exact h.trans (Accessed.drawFree _ 1)

theorem loadWord_accessed (kind : LsKind) (va : Word) (s : State) : (loadWord kind va s).Leaves (Accessed s) := load_accessed kind 4 id va s

theorem loadDouble_accessed (kind : LsKind) (va : Word) (s : State) : (loadDouble kind va s).Leaves (Accessed s) := by
  refine (checkAccess_accessed ..).bind fun ps t => ?_
  have h := readChecked_accessed ps t
  split <;> rename_i e <;> rw [e] at h
  · exact h
  · exact h.trans (Accessed.drawFree _ 2)

theorem store_accessed (kind : LsKind) (n : Nat) (va v : Word) (s : State) : (store kind n va v s).Leaves (Accessed s) :=
  (checkAccess_accessed ..).bind fun ps t => writeChecked_accessed ps _ t

theorem storeDouble_accessed (kind : LsKind) (va hi lo : Word) (s : State) : (storeDouble kind va hi lo s).Leaves (Accessed s) :=
  (checkAccess_accessed ..).bind fun ps t => writeChecked_accessed ps _ t

theorem swapWord_accessed (kind : LsKind) (va : Word) (f : Word → Word) (s : State) : (swapWord kind va f s).Leaves (Accessed s) := by
  refine (checkAccess_accessed ..).bind fun rs t => (checkAccess_accessed ..).bind fun ws u => ?_
  have h := readLocked_accessed rs u
  split <;> rename_i e <;> rw [e] at h
  · exact h.trans (writeLocked_accessed ws _ _)
  · exact (h.trans (Accessed.drawFree _ 1)).trans (writeLocked_accessed ws _ _)

theorem loadWords_accessed (kind : LsKind) (va : Word) (n : Nat) (s : State) : (loadWords kind va n s).Leaves (Accessed s) := by
  induction n generalizing va s with
  | zero => exact Accessed.refl s
  | succ n ih =>
    exact (loadWord_accessed ..).bind fun _ t => Res.Leaves.mono (Res.Leaves.bind (ih _ _) fun _ u => Accessed.refl u)
      fun _ => (Accessed.turnIfMore t n).trans

theorem storeWords_accessed (kind : LsKind) (ws : List (Word × Word)) (s : State) : (storeWords kind ws s).Leaves (Accessed s) := by
  induction ws generalizing s with
  | nil => exact Accessed.refl s
  | cons p ws ih => exact (store_accessed ..).bind fun _ t => (ih _).mono fun _ => (Accessed.turnIfMore t _).trans

theorem popWords_accessed (kind : LsKind) (va : Word) (n : Nat) (s : State) : (popWords kind va n s).Leaves (Accessed s) := by
  induction n generalizing va s with
  | zero => exact Accessed.refl s
  | succ n ih =>
    refine (checkAccess_accessed ..).bind fun ps t => ?_
    split
    · exact Accessed.refl t
    · exact Res.Leaves.mono (Res.Leaves.bind (ih _ _) fun _ u => Accessed.refl u)
        fun _ => ((readTurns_accessed ps t).trans (Accessed.turnIfMore _ n)).trans

theorem pushWords_accessed (sp : Word) (ws : List Word) (s : State) : (pushWords sp ws s).Leaves (Accessed s) := by
  induction ws generalizing sp s with
  | nil => exact Accessed.refl s
  | cons v vs ih =>
    refine (checkAccess_accessed ..).bind fun ps t => ?_
    split
    · exact Accessed.refl t
    · exact (ih _ _).mono (fun u h => (Accessed.write t ps _).trans h)

theorem pushSystem_accessed (va v : Word) (s : State) : (pushSystem va v s).Leaves (Accessed s) :=
  (checkAccess_accessed ..).bind fun ps t => writeChecked_accessed ps _ t

theorem loadEach_accessed (kind : LsKind) (vas : List Word) (s : State) : (loadEach kind vas s).Leaves (Accessed s) := by
  induction vas generalizing s with
  | nil => exact Accessed.refl s
  | cons va vas ih =>
    exact (loadWord_accessed ..).bind fun _ t => Res.Leaves.mono (Res.Leaves.bind (ih _) fun _ u => Accessed.refl u)
      fun _ => (Accessed.turnIfMore t _).trans

theorem storePair_accessed (va : Word) (rs : RegNo) (s : State) : (storePair va rs s).Leaves (Accessed s) := by
  unfold storePair
  split
  · exact storeDouble_accessed ..
  · exact (storeDouble_accessed ..).mono (fun _ h => (Accessed.drawFree s 2).trans h)

theorem storeCopPair_accessed (s : State) (kind : LsKind) (cp : BitVec 3) (crs : RegNo) (va : Word) :
    (s.storeCopPair kind cp crs va).Leaves (Accessed s) := by
  unfold State.storeCopPair
  split
  · exact storeDouble_accessed ..
  · exact (storeDouble_accessed ..).mono (fun _ h => (Accessed.drawFree s 2).trans h)

/-! ## Accesses that pass their checks and the bus -/

/-- The checks of a passing load leave what `OnlyChecked` says. -/
theorem Reads.checked {s s1 : State} {kind : LsKind} {n : Nat} {va : Word} {bs : List Byte} (h : Reads s kind n va bs s1) :
    OnlyChecked s s1 := by
  obtain ⟨ps, hc, -, -, -⟩ := h
  have := checkAccess_leaves .read s.privileged kind n va s
  rwa [hc] at this

theorem Reaches.checked {s s1 : State} {kind : LsKind} {n : Nat} {va : Word} {ps : List (Word × Nat)} (h : Reaches s kind n va ps s1) :
    OnlyChecked s s1 := by
  have := checkAccess_leaves .write s.privileged kind n va s
  rwa [h.1] at this

/-- Memory and the bus see the state before the checks. -/
theorem OnlyChecked.mem {s s1 : State} (h : OnlyChecked s s1) : s1.mem = s.mem := by
  obtain ⟨_, _, _, rfl, -, -⟩ := h; rfl

theorem OnlyChecked.now {s s1 : State} (h : OnlyChecked s s1) : s1.now = s.now := by
  obtain ⟨_, _, _, rfl, -, -⟩ := h; rfl

theorem OnlyChecked.undisturbed {s s1 : State} (h : OnlyChecked s s1) (hu : Undisturbed s) : Undisturbed s1 := by
  rw [Undisturbed, h.now]; exact hu

/-! ### Where nothing comes between -/

/-- A turn in which nobody acts changes nothing. -/
theorem Undisturbed.busTurn {s : State} (h : Undisturbed s) : s.busTurn = s := by
  have hn : { s.now with busBetween := s.now.busBetween.tail } = s.now := by
    rw [show s.now.busBetween = [] from h, List.tail_nil, ← show s.now.busBetween = [] from h]
  rw [State.busTurn, hn, show s.now.busBetween = [] from h]
  rfl

/-- Nor does it behind the last transfer. -/
theorem turnIfMore_same {s : State} {more : Nat} (h : more = 0 ∨ Undisturbed s) : s.turnIfMore more = s := by
  cases more with
  | zero => rfl
  | succ n =>
    obtain h | h := h
    · cases h
    · exact h.busTurn

theorem readTurns_whole {s : State} {ps : List (Word × Nat)} (h : ps.length ≤ 1 ∨ Undisturbed s) :
    readTurns s ps = (readTransfers s.mem ps, s) := by
  induction ps with
  | nil => rfl
  | cons p ps ih =>
    rw [readTurns, turnIfMore_same (h.imp_left fun hl => by simpa using hl), ih (h.imp_left fun hl => by simp at hl; simp [hl])]
    rfl

theorem writeTurns_whole {s : State} {ps : List (Word × Nat)} (h : ps.length ≤ 1 ∨ Undisturbed s) (bs : List Byte) :
    writeTurns s ps bs = { s with mem := writeTransfers s.mem ps bs } := by
  induction ps generalizing s bs with
  | nil => rfl
  | cons p ps ih =>
    let t : State := { s with mem := writeBytes s.mem p.1 (bs.take p.2) }
    have hs : t.turnIfMore ps.length = t := turnIfMore_same (h.imp (fun hl => by simpa using hl) id)
    exact (congrArg (writeTurns · ps _) hs).trans (ih (s := t) (h.imp (fun hl => by simp at hl; simp [hl]) id) _)

/-- An aligned byte, halfword or word is one transfer (R208). -/
theorem checkAccess_single {k : Access} {priv : Bool} {kind : LsKind} {n : Nat} {va : Word} {s s1 : State} {ps : List (Word × Nat)}
    (ha : aligned n va = true) (hn : n ≠ 8) (h : checkAccess k priv kind n va s = .ok ps s1) : ps.length = 1 := by
  simp only [checkAccess, transfers, ha, hn, if_true, if_false, translateAll] at h
  cases ht : translate k priv va s with
  | raise e s2 => rw [ht] at h; cases h
  | ok r s2 => rw [ht] at h; cases h; rfl

theorem load_reads {s s1 : State} {kind : LsKind} {n : Nat} {va : Word} {bs : List Byte} (conv : Word → Word)
    (h : Reads s kind n va bs s1) : load kind n conv va s = .ok (conv (wordOfBytes bs)) s1 := by
  have hk := h.checked
  obtain ⟨ps, hc, hb, rfl, hu⟩ := h
  rw [load, hc]
  simp [Res.bind, readChecked, hb, readTurns_whole (hu.imp_right hk.undisturbed), hk.mem]

theorem loadDouble_reads {s s1 : State} {kind : LsKind} {va : Word} {bs : List Byte} (h : Reads s kind 8 va bs s1) :
    loadDouble kind va s = .ok (wordOfBytes (bs.take 4), wordOfBytes (bs.drop 4)) s1 := by
  have hk := h.checked
  obtain ⟨ps, hc, hb, rfl, hu⟩ := h
  rw [loadDouble, hc]
  simp [Res.bind, readChecked, hb, readTurns_whole (hu.imp_right hk.undisturbed), hk.mem]

theorem store_reaches {s s1 : State} {kind : LsKind} {n : Nat} {va v : Word} {ps : List (Word × Nat)} (h : Reaches s kind n va ps s1) :
    store kind n va v s = .ok () { s1 with mem := writeTransfers s.mem ps (bytesOfWord v n) } := by
  rw [store, h.1]
  simp [Res.bind, writeChecked, h.2.1, writeTurns_whole (h.2.2.imp_right h.checked.undisturbed), h.checked.mem]

theorem storeDouble_reaches {s s1 : State} {kind : LsKind} {va hi lo : Word} {ps : List (Word × Nat)} (h : Reaches s kind 8 va ps s1) :
    storeDouble kind va hi lo s = .ok () { s1 with mem := writeTransfers s.mem ps (bytesOfWord hi 4 ++ bytesOfWord lo 4) } := by
  rw [storeDouble, h.1]
  simp [Res.bind, writeChecked, h.2.1, writeTurns_whole (h.2.2.imp_right h.checked.undisturbed), h.checked.mem]

theorem swapWord_swaps {s s2 : State} {kind : LsKind} {va w : Word} {ws : List (Word × Nat)} (f : Word → Word) (h : Swaps s kind va w ws s2) :
    swapWord kind va f s = .ok w { s2 with mem := writeTransfers s.mem ws (bytesOfWord (f w) 4) } := by
  obtain ⟨rs, s1, hr, hw, hbr, hbw, rfl⟩ := h
  have h1 := checkAccess_leaves .read s.privileged kind 4 va s
  have h2 := checkAccess_leaves .write s1.privileged kind 4 va s1
  rw [hr] at h1
  rw [hw] at h2
  have hm : s2.mem = s.mem := (OnlyChecked.mem h2).trans (OnlyChecked.mem h1)
  rw [swapWord, hr]
  simp [Res.bind, hw, readLocked, hbr, writeLocked, hbw, hm]

theorem loadEach_readsAll {kind : LsKind} {vas : List Word} {s s1 : State} {vs : List Word} (h : ReadsAll kind vas s vs s1) :
    loadEach kind vas s = .ok vs s1 := by
  induction vas generalizing s vs with
  | nil => obtain ⟨rfl, rfl⟩ := h; rfl
  | cons va vas ih =>
    obtain ⟨bs, rest, s0, hr, hu, rfl, ht⟩ := h
    have hs : s0.turnIfMore vas.length = s0 := turnIfMore_same (hu.imp (by rintro rfl; rfl) hr.checked.undisturbed)
    simp [loadEach, loadWord, load_reads id hr, Res.bind, hs, ih ht]

theorem storeWords_reachesAll {kind : LsKind} {ws : List (Word × Word)} {s s1 : State} {ps : List (Word × Nat)}
    (h : ReachesAll kind ws s ps s1) : storeWords kind ws s = .ok () s1 := by
  induction ws generalizing s ps with
  | nil => obtain ⟨rfl, rfl⟩ := h; rfl
  | cons p ws ih =>
    obtain ⟨va, v⟩ := p
    obtain ⟨qs, rest, s0, hr, hu, -, ht⟩ := h
    rw [hr.checked.mem] at ht
    have hs (m : List Host.Cell) : ({ s0 with mem := m } : State).turnIfMore ws.length = { s0 with mem := m } :=
      turnIfMore_same (hu.imp (by rintro rfl; rfl) hr.checked.undisturbed)
    simp [storeWords, store_reaches hr, Res.bind, hs, ih ht]

/-- Word loads upwards are the loads from their addresses. -/
theorem loadWords_eq_loadEach (kind : LsKind) (va : Word) (n : Nat) (s : State) :
    loadWords kind va n s = loadEach kind (wordsFrom va n) s := by
  induction n generalizing va s with
  | zero => rfl
  | succ n ih =>
    have hs : wordsFrom va (n + 1) = va :: wordsFrom (va + 4#32) n := by
      simp only [wordsFrom, List.range_succ_eq_map, List.map_cons, List.map_map, Nat.mul_zero]
      congr 1
      · bv_omega
      · refine List.map_congr_left fun k _ => ?_
        simp only [Function.comp]
        rw [BitVec.add_assoc]
        congr 1
        apply BitVec.eq_of_toNat_eq
        simp only [BitVec.toNat_ofNat, BitVec.toNat_add, Nat.succ_eq_add_one]
        omega
    rw [hs, loadWords, loadEach]
    congr 1
    funext v s1
    rw [ih, show (wordsFrom (va + 4#32) n).length = n by simp [wordsFrom]]

/-! ## Bus errors -/

/-- No transfer fails exactly where the bus answers every byte of every transfer. -/
theorem busErrorIn_eq_none {s : State} {k : Access} {ps : List (Word × Nat)} :
    s.busErrorIn k ps = none ↔ ∀ p ∈ ps, ∀ i, i < p.2 → s.busAnswers k (p.1 + BitVec.ofNat 32 i) = true := by
  induction ps with
  | nil => simp [State.busErrorIn]
  | cons p ps ih =>
    simp only [State.busErrorIn]
    split <;> simp_all

/-- The address recorded is that of a transfer, one of whose bytes the bus does not answer (R1068, R208). -/
theorem busErrorIn_eq_some {s : State} {k : Access} {ps : List (Word × Nat)} {pa : Word} (h : s.busErrorIn k ps = some pa) :
    ∃ n, (pa, n) ∈ ps ∧ ∃ i, i < n ∧ s.busAnswers k (pa + BitVec.ofNat 32 i) = false := by
  induction ps with
  | nil => cases h
  | cons p ps ih =>
    simp only [State.busErrorIn] at h
    split at h
    · obtain ⟨n, hn, hi⟩ := ih h
      exact ⟨n, .tail _ hn, hi⟩
    · cases h
      exact ⟨p.2, .head _, by simp_all⟩

/-! ## Direct addresses -/

/-- Without translation the checks of an aligned access pass, and its transfers are at its own address. -/
theorem checkAccess_direct {s : State} (h : s.cfg.mmut = .none) (k : Access) (priv : Bool) (kind : LsKind) {n : Nat} {va : Word}
    (ha : aligned n va = true) :
    checkAccess k priv kind n va s = .ok (if n = 8 then [(va, 4), (va + 4#32, 4)] else [(va, n)]) s := by
  have ht : ∀ a : Word, translate k priv a s = .ok { pa := a, attrs := s.cfg.directAttrs } s := fun a => by simp [translate, h]
  unfold checkAccess transfers
  rw [if_pos ha]
  by_cases hn : n = 8 <;> simp [hn, translateAll, ht, Res.bind]

/-- A misaligned access that the implementation does not support raises its address exception, and changes nothing. -/
theorem checkAccess_misaligned {s : State} (k : Access) (priv : Bool) {kind : LsKind} {n : Nat} {va : Word} (ha : aligned n va = false)
    (hk : s.cfg.unalignedOk.contains kind = false) : checkAccess k priv kind n va s = .raise (misalignedEvent k va) s := by
  unfold checkAccess transfers
  rw [ha, hk]
  rfl

/-! ## The words of an access in turn, on a machine of physical addresses -/

/-- The bus answers where the platform backs the address. -/
theorem Direct.busAnswers {s : State} (h : Direct s) {k : Access} (hk : k ≠ .fetch) {pa : Word} (hb : backedAt s.cfg pa = true) :
    s.busAnswers k pa = true := by
  cases k with
  | fetch => exact absurd rfl hk
  | read => simp [State.busAnswers, hb, State.secureAt, h.2]
  | write => simp [State.busAnswers, hb, State.secureAt, h.2]

/-- So no transfer inside a backed block fails. -/
theorem Direct.busErrorIn {s : State} (h : Direct s) {k : Access} (hk : k ≠ .fetch) {va : Word} {n : Nat} (hb : Backed s va n) :
    s.busErrorIn k [(va, n)] = none :=
  busErrorIn_eq_none.mpr fun p hp i hi => by
    obtain rfl : p = (va, n) := by simpa using hp
    exact h.busAnswers hk (hb i hi)

theorem Direct.busTurn {s : State} (h : Direct s) : Direct s.busTurn := h

/-- A turn of the other agents leaves the configuration. -/
@[simp] theorem State.turns_cfg (s : State) (k : Nat) : (s.turns k).cfg = s.cfg := by
  induction k with
  | zero => rfl
  | succ k ih => exact ih

/-- The turns after the first one are those of the machine behind it. -/
theorem State.turns_busTurn (s : State) (k : Nat) : s.busTurn.turns k = s.turns (k + 1) := by
  induction k with
  | zero => rfl
  | succ k ih => rw [State.turns, ih]; rfl

/-- An aligned word of backed memory, loaded and stored. -/
theorem loadWord_direct {s : State} (h : Direct s) (kind : LsKind) {va : Word} (ha : aligned 4 va = true) (hb : Backed s va 4) :
    loadWord kind va s = .ok (wordOfBytes (readBytes s.mem va 4)) s := by
  have hc := checkAccess_direct h.1 .read s.privileged kind ha
  simp [loadWord, load, hc, Res.bind, readChecked, h.busErrorIn (k := .read) nofun hb, readTurns]

theorem store_direct {s : State} (h : Direct s) (kind : LsKind) {va v : Word} (ha : aligned 4 va = true) (hb : Backed s va 4) :
    store kind 4 va v s = .ok () { s with mem := writeBytes s.mem va (bytesOfWord v 4) } := by
  have hc := checkAccess_direct h.1 .write s.privileged kind ha
  have hl : (bytesOfWord v 4).take 4 = bytesOfWord v 4 := rfl
  simp [store, hc, Res.bind, writeChecked, h.busErrorIn (k := .write) nofun hb, writeTurns, hl]

/-- The two words of a doubleword, with the other agents between them (R208). -/
theorem loadDouble_direct {s : State} (h : Direct s) (kind : LsKind) {va : Word} (ha : aligned 8 va = true) (hb : Backed s va 8) :
    loadDouble kind va s = .ok (s.wordInTurn va 0, s.wordInTurn va 1) s.busTurn := by
  have hc := checkAccess_direct h.1 .read s.privileged kind ha
  have he : s.busErrorIn .read [(va, 4), (va + 4#32, 4)] = none := busErrorIn_eq_none.mpr fun p hp i hi => by
    simp only [List.mem_cons, List.not_mem_nil, or_false] at hp
    obtain rfl | rfl := hp
    · exact h.busAnswers (k := .read) nofun (hb i (by simp at hi; omega))
    · have := hb (4 + i) (by simp at hi; omega)
      rw [BitVec.ofNat_add, ← BitVec.add_assoc] at this
      exact h.busAnswers (k := .read) nofun this
  simp [loadDouble, hc, Res.bind, readChecked, he, readTurns, readBytes, State.wordInTurn, State.turns, BitVec.add_assoc]

/-- The words of a block, with the other agents between them (R208). -/
theorem loadWords_direct {s : State} (h : Direct s) (kind : LsKind) {va : Word} {n : Nat} (ha : aligned 4 va = true)
    (hb : Backed s va (4 * n)) : loadWords kind va n s = .ok ((List.range n).map (s.wordInTurn va)) (s.turns (n - 1)) := by
  induction n generalizing s va with
  | zero => rfl
  | succ n ih =>
    have hw := loadWord_direct h kind ha fun i hi => hb i (by omega)
    cases n with
    | zero => simp [loadWords, hw, Res.bind, State.wordInTurn, State.turns]
    | succ n =>
      have ha' : aligned 4 (va + 4#32) = true := by
        simp only [aligned, beq_iff_eq] at ha ⊢
        have := congrArg BitVec.toNat ha
        apply BitVec.eq_of_toNat_eq
        simp only [BitVec.extractLsb'_toNat, BitVec.toNat_add, BitVec.toNat_ofNat, Nat.shiftRight_zero] at this ⊢
        omega
      have hb' : Backed s.busTurn (va + 4#32) (4 * (n + 1)) := fun i hi => by
        have := hb (4 + i) (by omega)
        rw [BitVec.ofNat_add, ← BitVec.add_assoc] at this
        exact this
      rw [loadWords, hw]
      simp only [Res.bind, State.turnIfMore_succ, ih h.busTurn ha' hb', List.range_succ_eq_map (n := n + 1), List.map_cons, List.map_map,
        Nat.add_sub_cancel, State.turns_busTurn]
      congr 2
      · simp [State.wordInTurn, State.turns]
      · refine List.map_congr_left fun k _ => ?_
        simp only [Function.comp, State.wordInTurn, State.turns_busTurn, Nat.mul_add, Nat.succ_eq_add_one, BitVec.ofNat_add, BitVec.add_assoc]
        rw [BitVec.add_comm 4#32]

end Sys2Proof.Machine
end

