-- ==== Sys2Proof/Laws/Events.lean ====
section
/-! SUPPORT. What taking an event can do, said once: the state it leaves is that of `enterHandler`, after accesses to the system stack. -/

namespace Sys2Proof.Machine

/-! ## The registers of an entry -/

/-- Recording an event writes the failure registers of the MMU, BEAR, and draws free values. -/
theorem State.record_frame (s : State) (e : Event) :
    ∃ hi ear cr bear n, s.record e =
      { s with mmu := { s.mmu with tlbehi := hi, tlbear := ear, mmucr := cr }, ctl := { s.ctl with bear := bear }, freeIdx := n } := by
  have address : ∀ s : State, ∃ hi ear, s.recordAddress e = { s with mmu := { s.mmu with tlbehi := hi, tlbear := ear } } := by
    intro s
    unfold State.recordAddress
    split
    · exact ⟨_, _, rfl⟩
    · simp only; split <;> exact ⟨_, _, rfl⟩
  have replacement : ∀ s : State, ∃ cr n, s.recordReplacement e = { s with mmu := { s.mmu with mmucr := cr }, freeIdx := n } := by
    intro s
    unfold State.recordReplacement
    split
    · exact ⟨_, _, rfl⟩
    · simp only; split <;> exact ⟨_, _, rfl⟩
  have bus : ∀ s : State, ∃ bear, s.recordBus e = { s with ctl := { s.ctl with bear := bear } } := by
    intro s
    unfold State.recordBus
    split
    · split <;> exact ⟨_, rfl⟩
    · exact ⟨_, rfl⟩
  obtain ⟨hi, ear, ha⟩ := address s
  obtain ⟨cr, n, hr⟩ := replacement (s.recordAddress e)
  obtain ⟨bear, hb⟩ := bus ((s.recordAddress e).recordReplacement e)
  exact ⟨hi, ear, cr, bear, n, by rw [State.record, hb, hr, ha]⟩

/-- What an entry leaves of the state it starts from, once the state has been saved. -/
theorem State.enterHandler_frame (s : State) (e : Event) :
    ∃ hi ear cr ctl n, s.enterHandler e =
      { s with mmu := { s.mmu with tlbehi := hi, tlbear := ear, mmucr := cr }, ctl := ctl, freeIdx := n, sr := e.entrySr s.sr,
               pc := s.handler e &&& 0xFFFFFFFE#32, sleeping := none, taken := some e } := by
  obtain ⟨hi, ear, cr, bear, n, h⟩ := s.record_frame e
  exact ⟨hi, ear, cr, _, n, by rw [State.enterHandler, h]⟩

@[simp] theorem State.enterHandler_sr (s : State) (e : Event) : (s.enterHandler e).sr = e.entrySr s.sr := rfl
@[simp] theorem State.enterHandler_pc (s : State) (e : Event) : (s.enterHandler e).pc = s.handler e &&& 0xFFFFFFFE#32 := rfl
@[simp] theorem State.enterHandler_taken (s : State) (e : Event) : (s.enterHandler e).taken = some e := rfl
@[simp] theorem State.enterHandler_sleeping (s : State) (e : Event) : (s.enterHandler e).sleeping = none := rfl
@[simp] theorem State.enterHandler_mem (s : State) (e : Event) : (s.enterHandler e).mem = s.mem := by
  obtain ⟨_, _, _, _, _, h⟩ := s.enterHandler_frame e; rw [h]
@[simp] theorem State.enterHandler_cfg (s : State) (e : Event) : (s.enterHandler e).cfg = s.cfg := by
  obtain ⟨_, _, _, _, _, h⟩ := s.enterHandler_frame e; rw [h]
@[simp] theorem State.enterHandler_ret (s : State) (e : Event) : (s.enterHandler e).ret = s.ret := by
  obtain ⟨_, _, _, _, _, h⟩ := s.enterHandler_frame e; rw [h]
@[simp] theorem State.enterHandler_readPhys (s : State) (e : Event) (p : PhysReg) (h : p ≠ .pc) :
    (s.enterHandler e).readPhys p = s.readPhys p := by
  obtain ⟨_, _, _, _, _, he⟩ := s.enterHandler_frame e
  rw [he]
  cases p with
  | pc => exact absurd rfl h
  | bank c i => cases c <;> rfl
  | _ => rfl

/-! ## Entering and taking -/

/-- `u` is what the saving part of an entry makes of `s`: the return registers, or the system stack and its pointer. -/
structure Saved (s u : State) : Prop where
  cfg : u.cfg = s.cfg
  sr : u.sr = s.sr
  memory : Memory.wf s.mem = true → Memory.wf u.mem = true
  banks : u.shared = s.shared ∧ u.int0 = s.int0 ∧ u.int1 = s.int1 ∧ u.int2 = s.int2 ∧ u.int3 = s.int3 ∧ u.spApp = s.spApp

theorem Accessed.saved {s u : State} (h : Accessed s u) : Saved s u :=
  ⟨h.cfg, h.sr, h.memory, by obtain ⟨_, _, _, _, _, _, rfl⟩ := h.frame; exact ⟨rfl, rfl, rfl, rfl, rfl, rfl⟩⟩

theorem Saved.trans {s t u : State} (h : Saved s t) (g : Saved t u) : Saved s u := by
  obtain ⟨a, b, c, d1, d2, d3, d4, d5, d6⟩ := h
  obtain ⟨a', b', c', e1, e2, e3, e4, e5, e6⟩ := g
  exact ⟨a'.trans a, b'.trans b, fun x => c' (c x), e1.trans d1, e2.trans d2, e3.trans d3, e4.trans d4, e5.trans d5, e6.trans d6⟩

theorem Saved.setSystemSp (s : State) (v : Word) : Saved s (s.setSystemSp v) := by
  unfold State.setSystemSp
  split <;> exact ⟨rfl, rfl, id, rfl, rfl, rfl, rfl, rfl, rfl⟩

/-- An entry ends in the handler, from a state that only the saving has changed; one that raises has made accesses only. -/
theorem enterEvent_leaves (e : Event) (ra : Word) (s : State) :
    match enterEvent e ra s with
    | .ok _ t => ∃ u, Saved s u ∧ t = u.enterHandler e
    | .raise _ t => Accessed s t := by
  unfold enterEvent
  by_cases hb : s.cfg.archB = true
  · rw [if_pos hb]
    exact ⟨{ s with ret := s.ret.save e.mode s.sr ra }, ⟨rfl, rfl, id, rfl, rfl, rfl, rfl, rfl, rfl⟩, rfl⟩
  · rw [if_neg hb]
    simp only
    have h := pushWords_accessed s.systemSp (s.frame e ra) s
    cases hp : pushWords s.systemSp (s.frame e ra) s with
    | ok _ t => rw [hp] at h; simp only [Res.bind]; exact ⟨_, (Accessed.saved h).trans (Saved.setSystemSp t _), rfl⟩
    | raise e2 t => rw [hp] at h; simp only [Res.bind]; exact h

/-- Taking an event, where the machine goes on, ends in the handler of some event, the one raised or the one its entry raised. -/
theorem takeEvent_next {e : Event} {ra : Word} {s t : State} (h : takeEvent e ra s = .next t) :
    ∃ e' u, Saved s u ∧ t = u.enterHandler e' := by
  unfold takeEvent at h
  have h1 := enterEvent_leaves (s.unmasked e) ra s
  cases he : enterEvent (s.unmasked e) ra s with
  | ok _ s1 =>
    rw [he] at h h1
    obtain ⟨u, hu, ht⟩ := h1
    cases h
    exact ⟨_, u, hu, ht⟩
  | raise e2 s1 =>
    rw [he] at h h1
    simp only at h h1
    have h2 := enterEvent_leaves (s1.unmasked e2) ra s1
    cases he2 : enterEvent (s1.unmasked e2) ra s1 with
    | ok _ s2 =>
      rw [he2] at h h2
      obtain ⟨u, hu, ht⟩ := h2
      cases h
      exact ⟨_, u, h1.saved.trans hu, ht⟩
    | raise e3 s2 => rw [he2] at h; cases h

/-- It is never refused. -/
theorem takeEvent_not_refused (e : Event) (ra : Word) (s : State) (r : Refusal) : takeEvent e ra s ≠ .refused r := by
  unfold takeEvent
  split
  · nofun
  · split <;> nofun

/-- An instruction that ends in `Res.finish` leaves what its operation answers, or has taken the event it raises. -/
theorem Res.finish_next {r : Res State} {t : State} (h : r.finish = .next t) :
    (∃ s, r = .ok t s) ∨ ∃ e s, r = .raise e s ∧ takeEvent e s.pc s = .next t := by
  cases r with
  | ok u s => cases h; exact .inl ⟨s, rfl⟩
  | raise e s => exact .inr ⟨e, s, rfl, h⟩

end Sys2Proof.Machine
end

