-- ==== Sys2Proof/Laws/Boundary.lean ====
section
/-! SUPPORT. What sampling the inputs, the hazard window and the replacement pointer can do, each said once. -/

namespace Sys2Proof.Machine

/-! ## `sample` -/

@[simp] theorem State.sample_cfg (s : State) : s.sample.cfg = s.cfg := rfl
@[simp] theorem State.sample_shared (s : State) : s.sample.shared = s.shared := rfl
@[simp] theorem State.sample_int0 (s : State) : s.sample.int0 = s.int0 := rfl
@[simp] theorem State.sample_int1 (s : State) : s.sample.int1 = s.int1 := rfl
@[simp] theorem State.sample_int2 (s : State) : s.sample.int2 = s.int2 := rfl
@[simp] theorem State.sample_int3 (s : State) : s.sample.int3 = s.int3 := rfl
@[simp] theorem State.sample_spApp (s : State) : s.sample.spApp = s.spApp := rfl
@[simp] theorem State.sample_spSys (s : State) : s.sample.spSys = s.spSys := rfl
@[simp] theorem State.sample_spSec (s : State) : s.sample.spSec = s.spSec := rfl
@[simp] theorem State.sample_pc (s : State) : s.sample.pc = s.pc := rfl
@[simp] theorem State.sample_sr (s : State) : s.sample.sr = s.sr := rfl
@[simp] theorem State.sample_ctl (s : State) : s.sample.ctl = s.ctl := rfl
@[simp] theorem State.sample_ret (s : State) : s.sample.ret = s.ret := rfl
@[simp] theorem State.sample_java (s : State) : s.sample.java = s.java := rfl
@[simp] theorem State.sample_timer (s : State) : s.sample.timer = s.timer := rfl
@[simp] theorem State.sample_perf (s : State) : s.sample.perf = s.perf := rfl
@[simp] theorem State.sample_mmu (s : State) : s.sample.mmu = s.mmu := rfl
@[simp] theorem State.sample_mpu (s : State) : s.sample.mpu = s.mpu := rfl
@[simp] theorem State.sample_sec (s : State) : s.sample.sec = s.sec := rfl
@[simp] theorem State.sample_impl (s : State) : s.sample.impl = s.impl := rfl
@[simp] theorem State.sample_cop (s : State) : s.sample.cop = s.cop := rfl
@[simp] theorem State.sample_debug (s : State) : s.sample.debug = s.debug := rfl
@[simp] theorem State.sample_busErr (s : State) : s.sample.busErr = s.busErr := rfl
@[simp] theorem State.sample_busErrDue (s : State) : s.sample.busErrDue = s.busErrDue := rfl
@[simp] theorem State.sample_sleeping (s : State) : s.sample.sleeping = s.sleeping := rfl
@[simp] theorem State.sample_ocdStopped (s : State) : s.sample.ocdStopped = s.ocdStopped := rfl
@[simp] theorem State.sample_hazardLeft (s : State) : s.sample.hazardLeft = s.hazardLeft := rfl
@[simp] theorem State.sample_hazardFlag (s : State) : s.sample.hazardFlag = s.hazardFlag := rfl
@[simp] theorem State.sample_freeIdx (s : State) : s.sample.freeIdx = s.freeIdx := rfl
@[simp] theorem State.sample_now (s : State) : s.sample.now = s.inputs := rfl
@[simp] theorem State.sample_env (s : State) : s.sample.env = s.env.tail := rfl
@[simp] theorem State.sample_taken (s : State) : s.sample.taken = none := rfl
@[simp] theorem State.sample_mode (s : State) : s.sample.mode = s.mode := rfl
@[simp] theorem State.sample_srBit (s : State) (n : Nat) : s.sample.srBit n = s.srBit n := rfl
@[simp] theorem State.sample_phys (s : State) (i : RegNo) : s.sample.phys i = s.phys i := State.phys_congr rfl rfl rfl i
@[simp] theorem State.sample_readPhys (s : State) (p : PhysReg) : s.sample.readPhys p = s.readPhys p := by
  cases p with
  | bank c i => cases c <;> rfl
  | _ => rfl
@[simp] theorem State.sample_getReg (s : State) (i : RegNo) : s.sample.getReg i = s.getReg i := by simp [State.getReg]

/-- Where the surroundings write nothing, memory is as it was. -/
theorem State.sample_mem_quiet {s : State} (h : s.inputs.busWrites = []) : s.sample.mem = s.mem := by
  simp [State.sample, Memory.writeAll, h]

/-- What the surroundings write keeps the canonical form. -/
theorem State.sample_wf {s : State} (h : Memory.wf s.mem = true) : Memory.wf s.sample.mem = true := Memory.writeAll_wf _ h

/-! ## `perform` and the hazard window -/

/-- From revision 1 on every instruction is the architecture's. -/
theorem perform_eq {i : Instr} {s : State} (h : hasRev s.cfg 1 = true) : perform i s = exec i s := by
  rw [perform, requireUnit, if_pos h]

/-- At revision 0 none is. -/
theorem perform_unimplemented {i : Instr} {s : State} (h : hasRev s.cfg 1 = false) : perform i s = raiseEvent .unimplemented s := by
  simp [perform, requireUnit, h]

/-! ### The hazard window -/

@[simp] theorem State.behind_cfg (s : State) (len idx : Nat) : (s.behind len idx).cfg = s.cfg := rfl
@[simp] theorem State.behind_mem (s : State) (len idx : Nat) : (s.behind len idx).mem = s.mem := rfl
@[simp] theorem State.behind_sr (s : State) (len idx : Nat) : (s.behind len idx).sr = s.sr := rfl
@[simp] theorem State.behind_pc (s : State) (len idx : Nat) : (s.behind len idx).pc = s.pc + BitVec.ofNat 32 len := rfl
@[simp] theorem State.behind_freeIdx (s : State) (len idx : Nat) : (s.behind len idx).freeIdx = idx := rfl
@[simp] theorem State.lookAhead_hazardLeft (t s : State) (n len : Nat) : (t.lookAhead s n len).hazardLeft = n := rfl
@[simp] theorem State.lookAhead_hazardFlag (t s : State) (n len : Nat) :
    (t.lookAhead s n len).hazardFlag = (t.hazardFlag || hazardAhead n (s.behind len t.freeIdx)) := rfl
@[simp] theorem hazardAhead_zero (s : State) : hazardAhead 0 s = false := rfl

/-- A hazardous instruction at the PC is ahead. -/
theorem hazardAhead_here {n : Nat} {s s1 : State} {code : Code} {i : Instr} (hf : fetchCode s = .ok code s1) (hd : decodeCode code = some i)
    (hi : hazardous i = true) : hazardAhead (n + 1) s = true := by
  simp [hazardAhead, hf, hd, hi]

/-- What is ahead behind the instruction at the PC is ahead. -/
theorem hazardAhead_behind {n : Nat} {s s1 : State} {code : Code} (hf : fetchCode s = .ok code s1)
    (h : hazardAhead n (s1.behind code.bytes.length s1.freeIdx) = true) : hazardAhead (n + 1) s = true := by
  simp [hazardAhead, hf, h]

/-- Whatever is ahead is one of these. -/
theorem hazardAhead_cases {n : Nat} {s : State} (h : hazardAhead (n + 1) s = true) :
    ∃ code s1, fetchCode s = .ok code s1 ∧
      ((∃ i, decodeCode code = some i ∧ hazardous i = true) ∨ hazardAhead n (s1.behind code.bytes.length s1.freeIdx) = true) := by
  unfold hazardAhead at h
  split at h
  · cases h
  · rename_i code s1 hf
    exact ⟨code, s1, hf, by simpa [Option.any_eq_true] using h⟩

/-- The window of an instruction that is no write of JOSP, where it is closed. -/
theorem State.windowPast_closed {t s : State} (h : s.hazardLeft = 0) (len : Nat) (bad : Bool) : t.windowPast s len bad = t := by
  simp [State.windowPast, h]

/-- It changes its own two fields. -/
theorem State.windowPast_frame (t s : State) (len : Nat) (bad : Bool) :
    ∃ n b, t.windowPast s len bad = { t with hazardLeft := n, hazardFlag := b } := by
  unfold State.windowPast
  split
  · exact ⟨_, _, rfl⟩
  · exact ⟨_, _, rfl⟩

/-- So does the hazard of an instruction. -/
theorem State.hazard_frame (t : State) (i : Instr) (s : State) :
    ∃ n b, t.hazard i s = { t with hazardLeft := n, hazardFlag := b } := by
  unfold State.hazard
  split
  · exact ⟨_, _, rfl⟩
  · exact t.windowPast_frame s _ _

/-- The window grows only by a write of JOSP. -/
theorem State.hazard_left_le (t : State) (i : Instr) (s : State) : (t.hazard i s).hazardLeft ≤ max t.hazardLeft s.hazardLeft := by
  unfold State.hazard State.windowPast
  split
  · exact Nat.le_max_left _ _
  · split
    · exact Nat.le_max_left _ _
    · exact Nat.le_trans (Nat.sub_le _ _) (Nat.le_max_right _ _)

/-- The flag is sticky. -/
theorem State.hazard_flag_sticky {t : State} (i : Instr) (s : State) (h : t.hazardFlag = true) : (t.hazard i s).hazardFlag = true := by
  unfold State.hazard State.windowPast
  split
  · simp [State.lookAhead, h]
  · split
    · exact h
    · simp [State.lookAhead, h]

/-! ## The replacement pointer -/

/-- A pointer that hardware moves after a miss names no locked entry (R259): `p` is what `recordReplacement` stores. -/
theorem unlocked_pointer (r lock : BitVec 6) : lock.toNat ≤ (if r.ult lock then lock else r).toNat := by
  split
  · exact Nat.le_refl _
  · rename_i h
    simpa [BitVec.ult] using h

end Sys2Proof.Machine
end

