-- ==== Sys2Proof/Laws/PerInstr.lean ====
section
/-! SUPPORT. Statements made once per constructor of Instr: decoding the code of a well-formed instruction gives the instruction back
(31_opcode_map.md R420 read both ways). -/

set_option Elab.async false

namespace Sys2Proof

/-- The bit that the encoding of a register pair leaves out is 0. -/
theorem even_low : ∀ r : RegNo, evenReg r = true → r.extractLsb' 0 1 = 0#1 := by decide

/-- The even register of a pair is rebuilt from the three bits that encode it. -/
theorem even_pair : ∀ r : RegNo, evenReg r = true → cat 4 (r.extractLsb' 1 3) 0b0#1 = r := by decide

/-- Two adjacent fields of one value, joined again. -/
theorem cat_extract {w n p k s t : Nat} (v : BitVec w) (hk : n + p = k) (hs : s = t + p) :
    cat k (v.extractLsb' s n) (v.extractLsb' t p) = v.extractLsb' t k := by
  subst hk hs
  ext i hi
  simp only [cat, BitVec.setWidth_eq, BitVec.getElem_append, BitVec.getElem_extractLsb']
  split
  · rfl
  · congr 1; omega

namespace Laws.DecodeEncode

/-- Decoding the code of the instruction gives the instruction back, when it is well-formed. -/
def Statement (i : Instr) : Prop := WellFormed i = true → decodeCode (encodeCode i) = some i

theorem abs rd : Statement (.abs rd) := by
  intro _
  simp [decodeCode, encodeCode, isExtended, decodeHalf, decodeHalf010, extract_cat_lo, extract_cat_hi]

theorem acr rd : Statement (.acr rd) := by
  intro _
  simp [decodeCode, encodeCode, isExtended, decodeHalf, decodeHalf010, extract_cat_lo, extract_cat_hi]

theorem adc rd rx ry : Statement (.adc rd rx ry) := by
  intro _
  simp [decodeCode, encodeCode, decodeWord, decodeWord00000, decodeWord00000x0000, extract_cat_lo, extract_cat_hi]

theorem add f : Statement (.add f) := by
  intro _
  cases f <;> simp [decodeCode, encodeCode, isExtended, decodeHalf, decodeHalf000, decodeWord, decodeWord00000, decodeWord00000x0000, extract_cat_lo, extract_cat_hi]

theorem addCond c rd rx ry : Statement (.addCond c rd rx ry) := by
  intro _
  simp [decodeCode, encodeCode, decodeWord, decodeWord11101, extract_cat_lo, extract_cat_hi]

theorem addabs rd rx ry : Statement (.addabs rd rx ry) := by
  intro _
  simp [decodeCode, encodeCode, decodeWord, decodeWord00000, decodeWord00000x0000, extract_cat_lo, extract_cat_hi]

theorem cpB rd rs : Statement (.cpB rd rs) := by
  intro _
  simp [decodeCode, encodeCode, decodeWord, decodeWord00000, decodeWord00000x0001, extract_cat_lo, extract_cat_hi]

theorem cpH rd rs : Statement (.cpH rd rs) := by
  intro _
  simp [decodeCode, encodeCode, decodeWord, decodeWord00000, decodeWord00000x0001, extract_cat_lo, extract_cat_hi]

theorem cpW f : Statement (.cpW f) := by
  intro _
  cases f <;> simp [decodeCode, encodeCode, isExtended, decodeHalf, decodeHalf000, decodeHalf010, decodeWord, decodeK21, extract_cat_lo, extract_cat_hi, cat_extract]

theorem cpc f : Statement (.cpc f) := by
  intro _
  cases f <;> simp [decodeCode, encodeCode, isExtended, decodeWord, decodeWord00000, decodeWord00000x0001, decodeHalf, decodeHalf010, extract_cat_lo, extract_cat_hi]

theorem max rd rx ry : Statement (.max rd rx ry) := by
  intro _
  simp [decodeCode, encodeCode, decodeWord, decodeWord00000, decodeWord00000x0000, extract_cat_lo, extract_cat_hi]

theorem min rd rx ry : Statement (.min rd rx ry) := by
  intro _
  simp [decodeCode, encodeCode, decodeWord, decodeWord00000, decodeWord00000x0000, extract_cat_lo, extract_cat_hi]

theorem neg rd : Statement (.neg rd) := by
  intro _
  simp [decodeCode, encodeCode, isExtended, decodeHalf, decodeHalf010, extract_cat_lo, extract_cat_hi]

theorem rsub f : Statement (.rsub f) := by
  intro _
  cases f <;> simp [decodeCode, encodeCode, isExtended, decodeHalf, decodeHalf000, decodeWord, decodeWord00000, decodeWord00000x0001, extract_cat_lo, extract_cat_hi]

theorem rsubCond c rd imm : Statement (.rsubCond c rd imm) := by
  intro _
  simp [decodeCode, encodeCode, decodeWord, decodeWord11011, extract_cat_lo, extract_cat_hi]

theorem sbc rd rx ry : Statement (.sbc rd rx ry) := by
  intro _
  simp [decodeCode, encodeCode, decodeWord, decodeWord00000, decodeWord00000x0000, extract_cat_lo, extract_cat_hi]

theorem scr rd : Statement (.scr rd) := by
  intro _
  simp [decodeCode, encodeCode, isExtended, decodeHalf, decodeHalf010, extract_cat_lo, extract_cat_hi]

theorem sub f : Statement (.sub f) := by
  intro _
  cases f <;> simp [decodeCode, encodeCode, isExtended, decodeHalf, decodeHalf000, decodeWord, decodeWord00000, decodeWord00000x0000, decodeHalf001, decodeK21, decodeWord01100, extract_cat_lo, extract_cat_hi, cat_extract]

theorem subCond f : Statement (.subCond f) := by
  intro _
  cases f <;> simp [decodeCode, encodeCode, decodeWord, decodeWord11011, decodeWord11101, extract_cat_lo, extract_cat_hi]

theorem tnbz rd : Statement (.tnbz rd) := by
  intro _
  simp [decodeCode, encodeCode, isExtended, decodeHalf, decodeHalf010, extract_cat_lo, extract_cat_hi]

theorem divs rd rx ry : Statement (.divs rd rx ry) := by
  intro _
  simp [decodeCode, encodeCode, decodeWord, decodeWord00000, decodeWord00000x0000, extract_cat_lo, extract_cat_hi]

theorem divu rd rx ry : Statement (.divu rd rx ry) := by
  intro _
  simp [decodeCode, encodeCode, decodeWord, decodeWord00000, decodeWord00000x0000, extract_cat_lo, extract_cat_hi]

theorem mac rd rx ry : Statement (.mac rd rx ry) := by
  intro _
  simp [decodeCode, encodeCode, decodeWord, decodeWord00000, decodeWord00000x0000, extract_cat_lo, extract_cat_hi]

theorem macsD rd rx ry : Statement (.macsD rd rx ry) := by
  intro _
  simp [decodeCode, encodeCode, decodeWord, decodeWord00000, decodeWord00000x0000, extract_cat_lo, extract_cat_hi]

theorem macuD rd rx ry : Statement (.macuD rd rx ry) := by
  intro _
  simp [decodeCode, encodeCode, decodeWord, decodeWord00000, decodeWord00000x0000, extract_cat_lo, extract_cat_hi]

theorem mul f : Statement (.mul f) := by
  intro _
  cases f <;> simp [decodeCode, encodeCode, isExtended, decodeHalf, decodeHalf101, decodeWord, decodeWord00000, decodeWord00000x0000, decodeWord00000x0001, extract_cat_lo, extract_cat_hi]

theorem mulsD rd rx ry : Statement (.mulsD rd rx ry) := by
  intro _
  simp [decodeCode, encodeCode, decodeWord, decodeWord00000, decodeWord00000x0000, extract_cat_lo, extract_cat_hi]

theorem muluD rd rx ry : Statement (.muluD rd rx ry) := by
  intro _
  simp [decodeCode, encodeCode, decodeWord, decodeWord00000, decodeWord00000x0000, extract_cat_lo, extract_cat_hi]

theorem addhhW rd rx xp ry yp : Statement (.addhhW rd rx xp ry yp) := by
  intro _
  simp [decodeCode, encodeCode, decodeWord, decodeWord00000, decodeWord00000x0000, extract_cat_lo, extract_cat_hi]

theorem machhD rd rx xp ry yp : Statement (.machhD rd rx xp ry yp) := by
  intro _
  simp [decodeCode, encodeCode, decodeWord, decodeWord00000, decodeWord00000x0000, extract_cat_lo, extract_cat_hi]

theorem machhW rd rx xp ry yp : Statement (.machhW rd rx xp ry yp) := by
  intro _
  simp [decodeCode, encodeCode, decodeWord, decodeWord00000, decodeWord00000x0000, extract_cat_lo, extract_cat_hi]

theorem macwhD rd rx ry yp : Statement (.macwhD rd rx ry yp) := by
  intro _
  simp [decodeCode, encodeCode, decodeWord, decodeWord00000, decodeWord00000x0000, extract_cat_lo, extract_cat_hi]

theorem mulhhW rd rx xp ry yp : Statement (.mulhhW rd rx xp ry yp) := by
  intro _
  simp [decodeCode, encodeCode, decodeWord, decodeWord00000, decodeWord00000x0000, extract_cat_lo, extract_cat_hi]

theorem mulwhD rd rx ry yp : Statement (.mulwhD rd rx ry yp) := by
  intro _
  simp [decodeCode, encodeCode, decodeWord, decodeWord00000, decodeWord00000x0000, extract_cat_lo, extract_cat_hi]

theorem mulnhhW rd rx xp ry yp : Statement (.mulnhhW rd rx xp ry yp) := by
  intro _
  simp [decodeCode, encodeCode, decodeWord, decodeWord00000, decodeWord00000x0000, extract_cat_lo, extract_cat_hi]

theorem mulnwhD rd rx ry yp : Statement (.mulnwhD rd rx ry yp) := by
  intro _
  simp [decodeCode, encodeCode, decodeWord, decodeWord00000, decodeWord00000x0000, extract_cat_lo, extract_cat_hi]

theorem sataddH rd rx ry : Statement (.sataddH rd rx ry) := by
  intro _
  simp [decodeCode, encodeCode, decodeWord, decodeWord00000, decodeWord00000x0000, extract_cat_lo, extract_cat_hi]

theorem sataddW rd rx ry : Statement (.sataddW rd rx ry) := by
  intro _
  simp [decodeCode, encodeCode, decodeWord, decodeWord00000, decodeWord00000x0000, extract_cat_lo, extract_cat_hi]

theorem satsubH rd rx ry : Statement (.satsubH rd rx ry) := by
  intro _
  simp [decodeCode, encodeCode, decodeWord, decodeWord00000, decodeWord00000x0000, extract_cat_lo, extract_cat_hi]

theorem satsubW f : Statement (.satsubW f) := by
  intro _
  cases f <;> simp [decodeCode, encodeCode, decodeWord, decodeWord00000, decodeWord00000x0000, decodeWord01101, extract_cat_lo, extract_cat_hi]

theorem satrnds rd sa bp : Statement (.satrnds rd sa bp) := by
  intro _
  simp [decodeCode, encodeCode, decodeWord, decodeWord11011, extract_cat_lo, extract_cat_hi]

theorem satrndu rd sa bp : Statement (.satrndu rd sa bp) := by
  intro _
  simp [decodeCode, encodeCode, decodeWord, decodeWord11011, extract_cat_lo, extract_cat_hi]

theorem sats rd sa bp : Statement (.sats rd sa bp) := by
  intro _
  simp [decodeCode, encodeCode, decodeWord, decodeWord11011, extract_cat_lo, extract_cat_hi]

theorem satu rd sa bp : Statement (.satu rd sa bp) := by
  intro _
  simp [decodeCode, encodeCode, decodeWord, decodeWord11011, extract_cat_lo, extract_cat_hi]

theorem subhhW rd rx xp ry yp : Statement (.subhhW rd rx xp ry yp) := by
  intro _
  simp [decodeCode, encodeCode, decodeWord, decodeWord00000, decodeWord00000x0000, extract_cat_lo, extract_cat_hi]

theorem mulsathhH rd rx xp ry yp : Statement (.mulsathhH rd rx xp ry yp) := by
  intro _
  simp [decodeCode, encodeCode, decodeWord, decodeWord00000, decodeWord00000x0000, extract_cat_lo, extract_cat_hi]

theorem mulsathhW rd rx xp ry yp : Statement (.mulsathhW rd rx xp ry yp) := by
  intro _
  simp [decodeCode, encodeCode, decodeWord, decodeWord00000, decodeWord00000x0000, extract_cat_lo, extract_cat_hi]

theorem mulsatrndhhH rd rx xp ry yp : Statement (.mulsatrndhhH rd rx xp ry yp) := by
  intro _
  simp [decodeCode, encodeCode, decodeWord, decodeWord00000, decodeWord00000x0000, extract_cat_lo, extract_cat_hi]

theorem mulsatrndwhW rd rx ry yp : Statement (.mulsatrndwhW rd rx ry yp) := by
  intro _
  simp [decodeCode, encodeCode, decodeWord, decodeWord00000, decodeWord00000x0000, extract_cat_lo, extract_cat_hi]

theorem mulsatwhW rd rx ry yp : Statement (.mulsatwhW rd rx ry yp) := by
  intro _
  simp [decodeCode, encodeCode, decodeWord, decodeWord00000, decodeWord00000x0000, extract_cat_lo, extract_cat_hi]

theorem macsathhW rd rx xp ry yp : Statement (.macsathhW rd rx xp ry yp) := by
  intro _
  simp [decodeCode, encodeCode, decodeWord, decodeWord00000, decodeWord00000x0000, extract_cat_lo, extract_cat_hi]

theorem and f : Statement (.and f) := by
  intro _
  cases f <;> simp [decodeCode, encodeCode, isExtended, decodeHalf, decodeHalf000, decodeWord, decodeWord11110, extract_cat_lo, extract_cat_hi]

theorem andCond c rd rx ry : Statement (.andCond c rd rx ry) := by
  intro _
  simp [decodeCode, encodeCode, decodeWord, decodeWord11101, extract_cat_lo, extract_cat_hi]

theorem eor f : Statement (.eor f) := by
  intro _
  cases f <;> simp [decodeCode, encodeCode, isExtended, decodeHalf, decodeHalf000, decodeWord, decodeWord11110, extract_cat_lo, extract_cat_hi]

theorem eorCond c rd rx ry : Statement (.eorCond c rd rx ry) := by
  intro _
  simp [decodeCode, encodeCode, decodeWord, decodeWord11101, extract_cat_lo, extract_cat_hi]

theorem or f : Statement (.or f) := by
  intro _
  cases f <;> simp [decodeCode, encodeCode, isExtended, decodeHalf, decodeHalf000, decodeWord, decodeWord11110, extract_cat_lo, extract_cat_hi]

theorem orCond c rd rx ry : Statement (.orCond c rd rx ry) := by
  intro _
  simp [decodeCode, encodeCode, decodeWord, decodeWord11101, extract_cat_lo, extract_cat_hi]

theorem andn rd rs : Statement (.andn rd rs) := by
  intro _
  simp [decodeCode, encodeCode, isExtended, decodeHalf, decodeHalf000, extract_cat_lo, extract_cat_hi]

theorem andh rd coh imm : Statement (.andh rd coh imm) := by
  intro _
  simp [decodeCode, encodeCode, decodeWord, decodeWord00001, extract_cat_lo, extract_cat_hi]

theorem andl rd coh imm : Statement (.andl rd coh imm) := by
  intro _
  simp [decodeCode, encodeCode, decodeWord, decodeWord00001, extract_cat_lo, extract_cat_hi]

theorem com rd : Statement (.com rd) := by
  intro _
  simp [decodeCode, encodeCode, isExtended, decodeHalf, decodeHalf010, extract_cat_lo, extract_cat_hi]

theorem eorh rd imm : Statement (.eorh rd imm) := by
  intro _
  simp [decodeCode, encodeCode, decodeWord, decodeWord00001, extract_cat_lo, extract_cat_hi]

theorem eorl rd imm : Statement (.eorl rd imm) := by
  intro _
  simp [decodeCode, encodeCode, decodeWord, decodeWord00001, extract_cat_lo, extract_cat_hi]

theorem orh rd imm : Statement (.orh rd imm) := by
  intro _
  simp [decodeCode, encodeCode, decodeWord, decodeWord00001, extract_cat_lo, extract_cat_hi]

theorem orl rd imm : Statement (.orl rd imm) := by
  intro _
  simp [decodeCode, encodeCode, decodeWord, decodeWord00001, extract_cat_lo, extract_cat_hi]

theorem tst rd rs : Statement (.tst rd rs) := by
  intro _
  simp [decodeCode, encodeCode, isExtended, decodeHalf, decodeHalf000, extract_cat_lo, extract_cat_hi]

theorem bfexts rd rs bp wd : Statement (.bfexts rd rs bp wd) := by
  intro _
  simp [decodeCode, encodeCode, decodeWord, decodeWord11101, extract_cat_lo, extract_cat_hi]

theorem bfextu rd rs bp wd : Statement (.bfextu rd rs bp wd) := by
  intro _
  simp [decodeCode, encodeCode, decodeWord, decodeWord11101, extract_cat_lo, extract_cat_hi]

theorem bfins rd rs bp wd : Statement (.bfins rd rs bp wd) := by
  intro _
  simp [decodeCode, encodeCode, decodeWord, decodeWord11101, extract_cat_lo, extract_cat_hi]

theorem bld rd bp : Statement (.bld rd bp) := by
  intro _
  simp [decodeCode, encodeCode, decodeWord, decodeWord11011, extract_cat_lo, extract_cat_hi]

theorem brev rd : Statement (.brev rd) := by
  intro _
  simp [decodeCode, encodeCode, isExtended, decodeHalf, decodeHalf010, extract_cat_lo, extract_cat_hi]

theorem bst rd bp : Statement (.bst rd bp) := by
  intro _
  simp [decodeCode, encodeCode, decodeWord, decodeWord11011, extract_cat_lo, extract_cat_hi]

theorem castsB rd : Statement (.castsB rd) := by
  intro _
  simp [decodeCode, encodeCode, isExtended, decodeHalf, decodeHalf010, extract_cat_lo, extract_cat_hi]

theorem castsH rd : Statement (.castsH rd) := by
  intro _
  simp [decodeCode, encodeCode, isExtended, decodeHalf, decodeHalf010, extract_cat_lo, extract_cat_hi]

theorem castuB rd : Statement (.castuB rd) := by
  intro _
  simp [decodeCode, encodeCode, isExtended, decodeHalf, decodeHalf010, extract_cat_lo, extract_cat_hi]

theorem castuH rd : Statement (.castuH rd) := by
  intro _
  simp [decodeCode, encodeCode, isExtended, decodeHalf, decodeHalf010, extract_cat_lo, extract_cat_hi]

theorem cbr rd bp : Statement (.cbr rd bp) := by
  intro _
  simp [decodeCode, encodeCode, isExtended, decodeHalf, decodeHalf101, extract_cat_lo, extract_cat_hi, cat_extract]

theorem clz rd rs : Statement (.clz rd rs) := by
  intro _
  simp [decodeCode, encodeCode, decodeWord, decodeWord00000, decodeWord00000x0001, extract_cat_lo, extract_cat_hi]

theorem sbr rd bp : Statement (.sbr rd bp) := by
  intro _
  simp [decodeCode, encodeCode, isExtended, decodeHalf, decodeHalf101, extract_cat_lo, extract_cat_hi, cat_extract]

theorem swapB rd : Statement (.swapB rd) := by
  intro _
  simp [decodeCode, encodeCode, isExtended, decodeHalf, decodeHalf010, extract_cat_lo, extract_cat_hi]

theorem swapBh rd : Statement (.swapBh rd) := by
  intro _
  simp [decodeCode, encodeCode, isExtended, decodeHalf, decodeHalf010, extract_cat_lo, extract_cat_hi]

theorem swapH rd : Statement (.swapH rd) := by
  intro _
  simp [decodeCode, encodeCode, isExtended, decodeHalf, decodeHalf010, extract_cat_lo, extract_cat_hi]

theorem asr f : Statement (.asr f) := by
  intro _
  cases f <;> simp [decodeCode, encodeCode, isExtended, decodeWord, decodeWord00000, decodeWord00000x0000, decodeHalf, decodeHalf101, decodeWord00000x0001, extract_cat_lo, extract_cat_hi, cat_extract]

theorem lsl f : Statement (.lsl f) := by
  intro _
  cases f <;> simp [decodeCode, encodeCode, isExtended, decodeWord, decodeWord00000, decodeWord00000x0000, decodeHalf, decodeHalf101, decodeWord00000x0001, extract_cat_lo, extract_cat_hi, cat_extract]

theorem lsr f : Statement (.lsr f) := by
  intro _
  cases f <;> simp [decodeCode, encodeCode, isExtended, decodeWord, decodeWord00000, decodeWord00000x0000, decodeHalf, decodeHalf101, decodeWord00000x0001, extract_cat_lo, extract_cat_hi, cat_extract]

theorem rol rd : Statement (.rol rd) := by
  intro _
  simp [decodeCode, encodeCode, isExtended, decodeHalf, decodeHalf010, extract_cat_lo, extract_cat_hi]

theorem ror rd : Statement (.ror rd) := by
  intro _
  simp [decodeCode, encodeCode, isExtended, decodeHalf, decodeHalf010, extract_cat_lo, extract_cat_hi]

theorem acall disp : Statement (.acall disp) := by
  intro _
  simp [decodeCode, encodeCode, isExtended, decodeHalf, decodeHalf110, extract_cat_lo, extract_cat_hi]

theorem brCond3 c disp : Statement (.brCond3 c disp) := by
  intro _
  simp [decodeCode, encodeCode, isExtended, decodeHalf, decodeHalf110, extract_cat_lo, extract_cat_hi]

theorem brCond4 c disp : Statement (.brCond4 c disp) := by
  intro _
  simp [decodeCode, encodeCode, decodeWord, decodeK21, extract_cat_lo, extract_cat_hi, cat_extract]

theorem icall rd : Statement (.icall rd) := by
  intro _
  simp [decodeCode, encodeCode, isExtended, decodeHalf, decodeHalf010, extract_cat_lo, extract_cat_hi]

theorem mcall rp disp : Statement (.mcall rp disp) := by
  intro _
  simp [decodeCode, encodeCode, decodeWord, decodeWord00001, extract_cat_lo, extract_cat_hi]

theorem rcall f : Statement (.rcall f) := by
  intro _
  cases f <;> simp [decodeCode, encodeCode, isExtended, decodeHalf, decodeHalf110, decodeWord, decodeK21, extract_cat_lo, extract_cat_hi, cat_extract]

theorem rjmp disp : Statement (.rjmp disp) := by
  intro _
  simp [decodeCode, encodeCode, isExtended, decodeHalf, decodeHalf110, extract_cat_lo, extract_cat_hi, cat_extract]

theorem retCond c rs : Statement (.retCond c rs) := by
  intro _
  simp [decodeCode, encodeCode, isExtended, decodeHalf, decodeHalf010, extract_cat_lo, extract_cat_hi]

theorem mov f : Statement (.mov f) := by
  intro _
  cases f <;> simp [decodeCode, encodeCode, isExtended, decodeHalf, decodeHalf001, decodeWord, decodeK21, decodeHalf000, extract_cat_lo, extract_cat_hi, cat_extract]

theorem movCond f : Statement (.movCond f) := by
  intro _
  cases f <;> simp [decodeCode, encodeCode, decodeWord, decodeWord00000, decodeWord00000x0001, decodeWord11011, extract_cat_lo, extract_cat_hi]

theorem movh rd imm : Statement (.movh rd imm) := by
  intro _
  simp [decodeCode, encodeCode, decodeWord, decodeWord00001, extract_cat_lo, extract_cat_hi]

theorem ldUb f : Statement (.ldUb f) := by
  intro _
  cases f <;> simp [decodeCode, encodeCode, isExtended, decodeHalf, decodeHalf000, decodeWord, decodeWord10011, decodeWord00000, decodeWord00000x0000, extract_cat_lo, extract_cat_hi]

theorem ldUbCond c rd rp disp : Statement (.ldUbCond c rd rp disp) := by
  intro _
  simp [decodeCode, encodeCode, decodeWord, decodeWord11111, extract_cat_lo, extract_cat_hi]

theorem ldSb f : Statement (.ldSb f) := by
  intro _
  cases f <;> simp [decodeCode, encodeCode, decodeWord, decodeWord10010, decodeWord00000, decodeWord00000x0000, extract_cat_lo, extract_cat_hi]

theorem ldSbCond c rd rp disp : Statement (.ldSbCond c rd rp disp) := by
  intro _
  simp [decodeCode, encodeCode, decodeWord, decodeWord11111, extract_cat_lo, extract_cat_hi]

theorem ldUh f : Statement (.ldUh f) := by
  intro _
  cases f <;> simp [decodeCode, encodeCode, isExtended, decodeHalf, decodeHalf000, decodeHalf100, decodeWord, decodeWord10001, decodeWord00000, decodeWord00000x0000, extract_cat_lo, extract_cat_hi]

theorem ldUhCond c rd rp disp : Statement (.ldUhCond c rd rp disp) := by
  intro _
  simp [decodeCode, encodeCode, decodeWord, decodeWord11111, extract_cat_lo, extract_cat_hi]

theorem ldSh f : Statement (.ldSh f) := by
  intro _
  cases f <;> simp [decodeCode, encodeCode, isExtended, decodeHalf, decodeHalf000, decodeHalf100, decodeWord, decodeWord10000, decodeWord00000, decodeWord00000x0000, extract_cat_lo, extract_cat_hi]

theorem ldShCond c rd rp disp : Statement (.ldShCond c rd rp disp) := by
  intro _
  simp [decodeCode, encodeCode, decodeWord, decodeWord11111, extract_cat_lo, extract_cat_hi]

theorem ldW f : Statement (.ldW f) := by
  intro _
  cases f <;> simp [decodeCode, encodeCode, isExtended, decodeHalf, decodeHalf000, decodeHalf011, decodeWord, decodeWord01111, decodeWord00000, decodeWord00000x0000, extract_cat_lo, extract_cat_hi]

theorem ldWCond c rd rp disp : Statement (.ldWCond c rd rp disp) := by
  intro _
  simp [decodeCode, encodeCode, decodeWord, decodeWord11111, extract_cat_lo, extract_cat_hi]

theorem ldD f : Statement (.ldD f) := by
  intro h
  cases f <;> simp_all [WellFormed, decodeCode, encodeCode, isExtended, decodeHalf, decodeHalf101, decodeWord, decodeWord01110, decodeWord00000, decodeWord00000x0000, extract_cat_lo, extract_cat_hi, even_pair, even_low]

theorem ldinsB rd rp part disp : Statement (.ldinsB rd rp part disp) := by
  intro _
  simp [decodeCode, encodeCode, decodeWord, decodeWord11101, extract_cat_lo, extract_cat_hi]

theorem ldinsH rd rp part disp : Statement (.ldinsH rd rp part disp) := by
  intro _
  simp [decodeCode, encodeCode, decodeWord, decodeWord11101, extract_cat_lo, extract_cat_hi]

theorem ldswpSh rd rp disp : Statement (.ldswpSh rd rp disp) := by
  intro _
  simp [decodeCode, encodeCode, decodeWord, decodeWord11101, extract_cat_lo, extract_cat_hi]

theorem ldswpUh rd rp disp : Statement (.ldswpUh rd rp disp) := by
  intro _
  simp [decodeCode, encodeCode, decodeWord, decodeWord11101, extract_cat_lo, extract_cat_hi]

theorem ldswpW rd rp disp : Statement (.ldswpW rd rp disp) := by
  intro _
  simp [decodeCode, encodeCode, decodeWord, decodeWord11101, extract_cat_lo, extract_cat_hi]

theorem lddpc rd disp : Statement (.lddpc rd disp) := by
  intro _
  simp [decodeCode, encodeCode, isExtended, decodeHalf, decodeHalf010, extract_cat_lo, extract_cat_hi]

theorem lddsp rd disp : Statement (.lddsp rd disp) := by
  intro _
  simp [decodeCode, encodeCode, isExtended, decodeHalf, decodeHalf010, extract_cat_lo, extract_cat_hi]

theorem stB f : Statement (.stB f) := by
  intro _
  cases f <;> simp [decodeCode, encodeCode, isExtended, decodeHalf, decodeHalf000, decodeHalf101, decodeWord, decodeWord10110, decodeWord00000, decodeWord00000x0000, extract_cat_lo, extract_cat_hi]

theorem stBCond c rp rs disp : Statement (.stBCond c rp rs disp) := by
  intro _
  simp [decodeCode, encodeCode, decodeWord, decodeWord11111, extract_cat_lo, extract_cat_hi]

theorem stH f : Statement (.stH f) := by
  intro _
  cases f <;> simp [decodeCode, encodeCode, isExtended, decodeHalf, decodeHalf000, decodeHalf101, decodeWord, decodeWord10101, decodeWord00000, decodeWord00000x0000, extract_cat_lo, extract_cat_hi]

theorem stHCond c rp rs disp : Statement (.stHCond c rp rs disp) := by
  intro _
  simp [decodeCode, encodeCode, decodeWord, decodeWord11111, extract_cat_lo, extract_cat_hi]

theorem stW f : Statement (.stW f) := by
  intro _
  cases f <;> simp [decodeCode, encodeCode, isExtended, decodeHalf, decodeHalf000, decodeHalf100, decodeWord, decodeWord10100, decodeWord00000, decodeWord00000x0000, extract_cat_lo, extract_cat_hi]

theorem stWCond c rp rs disp : Statement (.stWCond c rp rs disp) := by
  intro _
  simp [decodeCode, encodeCode, decodeWord, decodeWord11111, extract_cat_lo, extract_cat_hi]

theorem stD f : Statement (.stD f) := by
  intro h
  cases f <;> simp_all [WellFormed, decodeCode, encodeCode, isExtended, decodeHalf, decodeHalf101, decodeWord, decodeWord01110, decodeWord00000, decodeWord00000x0000, extract_cat_lo, extract_cat_hi, even_pair, even_low]

theorem stcond rp rs disp : Statement (.stcond rp rs disp) := by
  intro _
  simp [decodeCode, encodeCode, decodeWord, decodeWord10111, extract_cat_lo, extract_cat_hi]

theorem stdsp rs disp : Statement (.stdsp rs disp) := by
  intro _
  simp [decodeCode, encodeCode, isExtended, decodeHalf, decodeHalf010, extract_cat_lo, extract_cat_hi]

theorem sthhW f : Statement (.sthhW f) := by
  intro _
  cases f <;> simp [decodeCode, encodeCode, decodeWord, decodeWord11110, extract_cat_lo, extract_cat_hi]

theorem stswpH rp rs disp : Statement (.stswpH rp rs disp) := by
  intro _
  simp [decodeCode, encodeCode, decodeWord, decodeWord11101, extract_cat_lo, extract_cat_hi]

theorem stswpW rp rs disp : Statement (.stswpW rp rs disp) := by
  intro _
  simp [decodeCode, encodeCode, decodeWord, decodeWord11101, extract_cat_lo, extract_cat_hi]

theorem pushm list : Statement (.pushm list) := by
  intro _
  simp [decodeCode, encodeCode, isExtended, decodeHalf, decodeHalf110, extract_cat_lo, extract_cat_hi]

theorem popm k list : Statement (.popm k list) := by
  intro _
  simp [decodeCode, encodeCode, isExtended, decodeHalf, decodeHalf110, extract_cat_lo, extract_cat_hi]

theorem ldm rp wb list : Statement (.ldm rp wb list) := by
  intro _
  simp [decodeCode, encodeCode, decodeWord, decodeWord11100, extract_cat_lo, extract_cat_hi]

theorem stm rp wb list : Statement (.stm rp wb list) := by
  intro _
  simp [decodeCode, encodeCode, decodeWord, decodeWord11100, extract_cat_lo, extract_cat_hi]

theorem ldmts rp wb list : Statement (.ldmts rp wb list) := by
  intro _
  simp [decodeCode, encodeCode, decodeWord, decodeWord11100, extract_cat_lo, extract_cat_hi]

theorem stmts rp wb list : Statement (.stmts rp wb list) := by
  intro _
  simp [decodeCode, encodeCode, decodeWord, decodeWord11100, extract_cat_lo, extract_cat_hi]

theorem csrf bp : Statement (.csrf bp) := by
  intro _
  simp [decodeCode, encodeCode, isExtended, decodeHalf, decodeHalf110, extract_cat_lo, extract_cat_hi]

theorem csrfcz bp : Statement (.csrfcz bp) := by
  intro _
  simp [decodeCode, encodeCode, isExtended, decodeHalf, decodeHalf110, extract_cat_lo, extract_cat_hi]

theorem ssrf bp : Statement (.ssrf bp) := by
  intro _
  simp [decodeCode, encodeCode, isExtended, decodeHalf, decodeHalf110, extract_cat_lo, extract_cat_hi]

theorem breakpoint : Statement (.breakpoint) := by
  intro _; rfl

theorem frs : Statement (.frs) := by
  intro _; rfl

theorem cache op rp disp : Statement (.cache op rp disp) := by
  intro _
  simp [decodeCode, encodeCode, decodeWord, decodeWord00001, extract_cat_lo, extract_cat_hi]

theorem pref rp disp : Statement (.pref rp disp) := by
  intro _
  simp [decodeCode, encodeCode, decodeWord, decodeWord00001, extract_cat_lo, extract_cat_hi]

theorem mfsr rd n : Statement (.mfsr rd n) := by
  intro _
  simp [decodeCode, encodeCode, decodeWord, decodeWord11011, extract_cat_lo, extract_cat_hi]

theorem mfdr rd n : Statement (.mfdr rd n) := by
  intro _
  simp [decodeCode, encodeCode, decodeWord, decodeWord11011, extract_cat_lo, extract_cat_hi]

theorem mtsr rs n : Statement (.mtsr rs n) := by
  intro _
  simp [decodeCode, encodeCode, decodeWord, decodeWord11011, extract_cat_lo, extract_cat_hi]

theorem mtdr rs n : Statement (.mtdr rs n) := by
  intro _
  simp [decodeCode, encodeCode, decodeWord, decodeWord11011, extract_cat_lo, extract_cat_hi]

theorem musfr rs : Statement (.musfr rs) := by
  intro _
  simp [decodeCode, encodeCode, isExtended, decodeHalf, decodeHalf010, extract_cat_lo, extract_cat_hi]

theorem mustr rd : Statement (.mustr rd) := by
  intro _
  simp [decodeCode, encodeCode, isExtended, decodeHalf, decodeHalf010, extract_cat_lo, extract_cat_hi]

theorem nop : Statement (.nop) := by
  intro _; rfl

theorem scall : Statement (.scall) := by
  intro _; rfl

theorem sscall : Statement (.sscall) := by
  intro _; rfl

theorem rete : Statement (.rete) := by
  intro _; rfl

theorem rets : Statement (.rets) := by
  intro _; rfl

theorem retd : Statement (.retd) := by
  intro _; rfl

theorem sleep op : Statement (.sleep op) := by
  intro _
  simp [decodeCode, encodeCode, decodeWord, decodeWord11011, extract_cat_lo, extract_cat_hi]

theorem retss : Statement (.retss) := by
  intro _; rfl

theorem srCond c rd : Statement (.srCond c rd) := by
  intro _
  simp [decodeCode, encodeCode, isExtended, decodeHalf, decodeHalf010, extract_cat_lo, extract_cat_hi]

theorem sync op : Statement (.sync op) := by
  intro _
  simp [decodeCode, encodeCode, decodeWord, decodeWord11011, extract_cat_lo, extract_cat_hi]

theorem tlbr : Statement (.tlbr) := by
  intro _; rfl

theorem tlbs : Statement (.tlbs) := by
  intro _; rfl

theorem tlbw : Statement (.tlbw) := by
  intro _; rfl

theorem cop cp op crd crx cry : Statement (.cop cp op crd crx cry) := by
  intro _
  simp [decodeCode, encodeCode, decodeWord, decodeWord11010, extract_cat_lo, extract_cat_hi, cat_extract]

theorem ldcD f : Statement (.ldcD f) := by
  intro h
  cases f <;> simp_all [WellFormed, decodeCode, encodeCode, decodeWord, decodeWord11010, extract_cat_lo, extract_cat_hi, even_pair]

theorem ldcW f : Statement (.ldcW f) := by
  intro _
  cases f <;> simp [decodeCode, encodeCode, decodeWord, decodeWord11010, extract_cat_lo, extract_cat_hi]

theorem ldc0D crd rp disp : Statement (.ldc0D crd rp disp) := by
  intro h
  simp_all [WellFormed, decodeCode, encodeCode, decodeWord, decodeWord11010, extract_cat_lo, extract_cat_hi, cat_extract, even_pair]

theorem ldc0W crd rp disp : Statement (.ldc0W crd rp disp) := by
  intro _
  simp [decodeCode, encodeCode, decodeWord, decodeWord11010, extract_cat_lo, extract_cat_hi, cat_extract]

theorem ldcmD cp rp wb list : Statement (.ldcmD cp rp wb list) := by
  intro _
  simp [decodeCode, encodeCode, decodeWord, decodeWord11010, extract_cat_lo, extract_cat_hi]

theorem ldcmW f : Statement (.ldcmW f) := by
  intro _
  cases f <;> simp [decodeCode, encodeCode, decodeWord, decodeWord11010, extract_cat_lo, extract_cat_hi]

theorem mvcrD cp rd crs : Statement (.mvcrD cp rd crs) := by
  intro h
  simp_all [WellFormed, decodeCode, encodeCode, decodeWord, decodeWord11010, extract_cat_lo, extract_cat_hi, even_pair]

theorem mvcrW cp rd crs : Statement (.mvcrW cp rd crs) := by
  intro _
  simp [decodeCode, encodeCode, decodeWord, decodeWord11010, extract_cat_lo, extract_cat_hi]

theorem mvrcD cp crd rs : Statement (.mvrcD cp crd rs) := by
  intro h
  simp_all [WellFormed, decodeCode, encodeCode, decodeWord, decodeWord11010, extract_cat_lo, extract_cat_hi, even_pair]

theorem mvrcW cp crd rs : Statement (.mvrcW cp crd rs) := by
  intro _
  simp [decodeCode, encodeCode, decodeWord, decodeWord11010, extract_cat_lo, extract_cat_hi]

theorem stcD f : Statement (.stcD f) := by
  intro h
  cases f <;> simp_all [WellFormed, decodeCode, encodeCode, decodeWord, decodeWord11010, extract_cat_lo, extract_cat_hi, even_pair]

theorem stcW f : Statement (.stcW f) := by
  intro _
  cases f <;> simp [decodeCode, encodeCode, decodeWord, decodeWord11010, extract_cat_lo, extract_cat_hi]

theorem stc0D rp crs disp : Statement (.stc0D rp crs disp) := by
  intro h
  simp_all [WellFormed, decodeCode, encodeCode, decodeWord, decodeWord11010, extract_cat_lo, extract_cat_hi, cat_extract, even_pair]

theorem stc0W rp crs disp : Statement (.stc0W rp crs disp) := by
  intro _
  simp [decodeCode, encodeCode, decodeWord, decodeWord11010, extract_cat_lo, extract_cat_hi, cat_extract]

theorem stcmD cp rp wb list : Statement (.stcmD cp rp wb list) := by
  intro _
  simp [decodeCode, encodeCode, decodeWord, decodeWord11010, extract_cat_lo, extract_cat_hi]

theorem stcmW f : Statement (.stcmW f) := by
  intro _
  cases f <;> simp [decodeCode, encodeCode, decodeWord, decodeWord11010, extract_cat_lo, extract_cat_hi]

theorem incjosp imm : Statement (.incjosp imm) := by
  intro _
  simp [decodeCode, encodeCode, isExtended, decodeHalf, decodeHalf110, extract_cat_lo, extract_cat_hi]

theorem popjc : Statement (.popjc) := by
  intro _; rfl

theorem pushjc : Statement (.pushjc) := by
  intro _; rfl

theorem retj : Statement (.retj) := by
  intro _; rfl

theorem pabsSb rd rs : Statement (.pabsSb rd rs) := by
  intro _
  simp [decodeCode, encodeCode, decodeWord, decodeWord00000, decodeWord00000x0010, extract_cat_lo, extract_cat_hi]

theorem pabsSh rd rs : Statement (.pabsSh rd rs) := by
  intro _
  simp [decodeCode, encodeCode, decodeWord, decodeWord00000, decodeWord00000x0010, extract_cat_lo, extract_cat_hi]

theorem packshUb rd rx ry : Statement (.packshUb rd rx ry) := by
  intro _
  simp [decodeCode, encodeCode, decodeWord, decodeWord00000, decodeWord00000x0010, extract_cat_lo, extract_cat_hi]

theorem packshSb rd rx ry : Statement (.packshSb rd rx ry) := by
  intro _
  simp [decodeCode, encodeCode, decodeWord, decodeWord00000, decodeWord00000x0010, extract_cat_lo, extract_cat_hi]

theorem packwSh rd rx ry : Statement (.packwSh rd rx ry) := by
  intro _
  simp [decodeCode, encodeCode, decodeWord, decodeWord00000, decodeWord00000x0010, extract_cat_lo, extract_cat_hi]

theorem paddB rd rx ry : Statement (.paddB rd rx ry) := by
  intro _
  simp [decodeCode, encodeCode, decodeWord, decodeWord00000, decodeWord00000x0010, extract_cat_lo, extract_cat_hi]

theorem paddH rd rx ry : Statement (.paddH rd rx ry) := by
  intro _
  simp [decodeCode, encodeCode, decodeWord, decodeWord00000, decodeWord00000x0010, extract_cat_lo, extract_cat_hi]

theorem paddhUb rd rx ry : Statement (.paddhUb rd rx ry) := by
  intro _
  simp [decodeCode, encodeCode, decodeWord, decodeWord00000, decodeWord00000x0010, extract_cat_lo, extract_cat_hi]

theorem paddhSh rd rx ry : Statement (.paddhSh rd rx ry) := by
  intro _
  simp [decodeCode, encodeCode, decodeWord, decodeWord00000, decodeWord00000x0010, extract_cat_lo, extract_cat_hi]

theorem paddsUb rd rx ry : Statement (.paddsUb rd rx ry) := by
  intro _
  simp [decodeCode, encodeCode, decodeWord, decodeWord00000, decodeWord00000x0010, extract_cat_lo, extract_cat_hi]

theorem paddsSb rd rx ry : Statement (.paddsSb rd rx ry) := by
  intro _
  simp [decodeCode, encodeCode, decodeWord, decodeWord00000, decodeWord00000x0010, extract_cat_lo, extract_cat_hi]

theorem paddsUh rd rx ry : Statement (.paddsUh rd rx ry) := by
  intro _
  simp [decodeCode, encodeCode, decodeWord, decodeWord00000, decodeWord00000x0010, extract_cat_lo, extract_cat_hi]

theorem paddsSh rd rx ry : Statement (.paddsSh rd rx ry) := by
  intro _
  simp [decodeCode, encodeCode, decodeWord, decodeWord00000, decodeWord00000x0010, extract_cat_lo, extract_cat_hi]

theorem paddsubH rd rx xp ry yp : Statement (.paddsubH rd rx xp ry yp) := by
  intro _
  simp [decodeCode, encodeCode, decodeWord, decodeWord00000, decodeWord00000x0010, extract_cat_lo, extract_cat_hi]

theorem paddsubhSh rd rx xp ry yp : Statement (.paddsubhSh rd rx xp ry yp) := by
  intro _
  simp [decodeCode, encodeCode, decodeWord, decodeWord00000, decodeWord00000x0010, extract_cat_lo, extract_cat_hi]

theorem paddsubsUh rd rx xp ry yp : Statement (.paddsubsUh rd rx xp ry yp) := by
  intro _
  simp [decodeCode, encodeCode, decodeWord, decodeWord00000, decodeWord00000x0010, extract_cat_lo, extract_cat_hi]

theorem paddsubsSh rd rx xp ry yp : Statement (.paddsubsSh rd rx xp ry yp) := by
  intro _
  simp [decodeCode, encodeCode, decodeWord, decodeWord00000, decodeWord00000x0010, extract_cat_lo, extract_cat_hi]

theorem paddxH rd rx ry : Statement (.paddxH rd rx ry) := by
  intro _
  simp [decodeCode, encodeCode, decodeWord, decodeWord00000, decodeWord00000x0010, extract_cat_lo, extract_cat_hi]

theorem paddxhSh rd rx ry : Statement (.paddxhSh rd rx ry) := by
  intro _
  simp [decodeCode, encodeCode, decodeWord, decodeWord00000, decodeWord00000x0010, extract_cat_lo, extract_cat_hi]

theorem paddxsUh rd rx ry : Statement (.paddxsUh rd rx ry) := by
  intro _
  simp [decodeCode, encodeCode, decodeWord, decodeWord00000, decodeWord00000x0010, extract_cat_lo, extract_cat_hi]

theorem paddxsSh rd rx ry : Statement (.paddxsSh rd rx ry) := by
  intro _
  simp [decodeCode, encodeCode, decodeWord, decodeWord00000, decodeWord00000x0010, extract_cat_lo, extract_cat_hi]

theorem pasrB rd rs sa : Statement (.pasrB rd rs sa) := by
  intro _
  simp [decodeCode, encodeCode, decodeWord, decodeWord00000, decodeWord00000x0010, extract_cat_lo, extract_cat_hi]

theorem pasrH rd rs sa : Statement (.pasrH rd rs sa) := by
  intro _
  simp [decodeCode, encodeCode, decodeWord, decodeWord00000, decodeWord00000x0010, extract_cat_lo, extract_cat_hi]

theorem pavgUb rd rx ry : Statement (.pavgUb rd rx ry) := by
  intro _
  simp [decodeCode, encodeCode, decodeWord, decodeWord00000, decodeWord00000x0010, extract_cat_lo, extract_cat_hi]

theorem pavgSh rd rx ry : Statement (.pavgSh rd rx ry) := by
  intro _
  simp [decodeCode, encodeCode, decodeWord, decodeWord00000, decodeWord00000x0010, extract_cat_lo, extract_cat_hi]

theorem plslB rd rs sa : Statement (.plslB rd rs sa) := by
  intro _
  simp [decodeCode, encodeCode, decodeWord, decodeWord00000, decodeWord00000x0010, extract_cat_lo, extract_cat_hi]

theorem plslH rd rs sa : Statement (.plslH rd rs sa) := by
  intro _
  simp [decodeCode, encodeCode, decodeWord, decodeWord00000, decodeWord00000x0010, extract_cat_lo, extract_cat_hi]

theorem plsrB rd rs sa : Statement (.plsrB rd rs sa) := by
  intro _
  simp [decodeCode, encodeCode, decodeWord, decodeWord00000, decodeWord00000x0010, extract_cat_lo, extract_cat_hi]

theorem plsrH rd rs sa : Statement (.plsrH rd rs sa) := by
  intro _
  simp [decodeCode, encodeCode, decodeWord, decodeWord00000, decodeWord00000x0010, extract_cat_lo, extract_cat_hi]

theorem pmaxUb rd rx ry : Statement (.pmaxUb rd rx ry) := by
  intro _
  simp [decodeCode, encodeCode, decodeWord, decodeWord00000, decodeWord00000x0010, extract_cat_lo, extract_cat_hi]

theorem pmaxSh rd rx ry : Statement (.pmaxSh rd rx ry) := by
  intro _
  simp [decodeCode, encodeCode, decodeWord, decodeWord00000, decodeWord00000x0010, extract_cat_lo, extract_cat_hi]

theorem pminUb rd rx ry : Statement (.pminUb rd rx ry) := by
  intro _
  simp [decodeCode, encodeCode, decodeWord, decodeWord00000, decodeWord00000x0010, extract_cat_lo, extract_cat_hi]

theorem pminSh rd rx ry : Statement (.pminSh rd rx ry) := by
  intro _
  simp [decodeCode, encodeCode, decodeWord, decodeWord00000, decodeWord00000x0010, extract_cat_lo, extract_cat_hi]

theorem psad rd rx ry : Statement (.psad rd rx ry) := by
  intro _
  simp [decodeCode, encodeCode, decodeWord, decodeWord00000, decodeWord00000x0010, extract_cat_lo, extract_cat_hi]

theorem psubB rd rx ry : Statement (.psubB rd rx ry) := by
  intro _
  simp [decodeCode, encodeCode, decodeWord, decodeWord00000, decodeWord00000x0010, extract_cat_lo, extract_cat_hi]

theorem psubH rd rx ry : Statement (.psubH rd rx ry) := by
  intro _
  simp [decodeCode, encodeCode, decodeWord, decodeWord00000, decodeWord00000x0010, extract_cat_lo, extract_cat_hi]

theorem psubaddH rd rx xp ry yp : Statement (.psubaddH rd rx xp ry yp) := by
  intro _
  simp [decodeCode, encodeCode, decodeWord, decodeWord00000, decodeWord00000x0010, extract_cat_lo, extract_cat_hi]

theorem psubaddhSh rd rx xp ry yp : Statement (.psubaddhSh rd rx xp ry yp) := by
  intro _
  simp [decodeCode, encodeCode, decodeWord, decodeWord00000, decodeWord00000x0010, extract_cat_lo, extract_cat_hi]

theorem psubaddsUh rd rx xp ry yp : Statement (.psubaddsUh rd rx xp ry yp) := by
  intro _
  simp [decodeCode, encodeCode, decodeWord, decodeWord00000, decodeWord00000x0010, extract_cat_lo, extract_cat_hi]

theorem psubaddsSh rd rx xp ry yp : Statement (.psubaddsSh rd rx xp ry yp) := by
  intro _
  simp [decodeCode, encodeCode, decodeWord, decodeWord00000, decodeWord00000x0010, extract_cat_lo, extract_cat_hi]

theorem psubhUb rd rx ry : Statement (.psubhUb rd rx ry) := by
  intro _
  simp [decodeCode, encodeCode, decodeWord, decodeWord00000, decodeWord00000x0010, extract_cat_lo, extract_cat_hi]

theorem psubhSh rd rx ry : Statement (.psubhSh rd rx ry) := by
  intro _
  simp [decodeCode, encodeCode, decodeWord, decodeWord00000, decodeWord00000x0010, extract_cat_lo, extract_cat_hi]

theorem psubsUb rd rx ry : Statement (.psubsUb rd rx ry) := by
  intro _
  simp [decodeCode, encodeCode, decodeWord, decodeWord00000, decodeWord00000x0010, extract_cat_lo, extract_cat_hi]

theorem psubsSb rd rx ry : Statement (.psubsSb rd rx ry) := by
  intro _
  simp [decodeCode, encodeCode, decodeWord, decodeWord00000, decodeWord00000x0010, extract_cat_lo, extract_cat_hi]

theorem psubsUh rd rx ry : Statement (.psubsUh rd rx ry) := by
  intro _
  simp [decodeCode, encodeCode, decodeWord, decodeWord00000, decodeWord00000x0010, extract_cat_lo, extract_cat_hi]

theorem psubsSh rd rx ry : Statement (.psubsSh rd rx ry) := by
  intro _
  simp [decodeCode, encodeCode, decodeWord, decodeWord00000, decodeWord00000x0010, extract_cat_lo, extract_cat_hi]

theorem psubxH rd rx ry : Statement (.psubxH rd rx ry) := by
  intro _
  simp [decodeCode, encodeCode, decodeWord, decodeWord00000, decodeWord00000x0010, extract_cat_lo, extract_cat_hi]

theorem psubxhSh rd rx ry : Statement (.psubxhSh rd rx ry) := by
  intro _
  simp [decodeCode, encodeCode, decodeWord, decodeWord00000, decodeWord00000x0010, extract_cat_lo, extract_cat_hi]

theorem psubxsUh rd rx ry : Statement (.psubxsUh rd rx ry) := by
  intro _
  simp [decodeCode, encodeCode, decodeWord, decodeWord00000, decodeWord00000x0010, extract_cat_lo, extract_cat_hi]

theorem psubxsSh rd rx ry : Statement (.psubxsSh rd rx ry) := by
  intro _
  simp [decodeCode, encodeCode, decodeWord, decodeWord00000, decodeWord00000x0010, extract_cat_lo, extract_cat_hi]

theorem punpckubH rd rs k : Statement (.punpckubH rd rs k) := by
  intro _
  simp [decodeCode, encodeCode, decodeWord, decodeWord00000, decodeWord00000x0010, extract_cat_lo, extract_cat_hi]

theorem punpcksbH rd rs k : Statement (.punpcksbH rd rs k) := by
  intro _
  simp [decodeCode, encodeCode, decodeWord, decodeWord00000, decodeWord00000x0010, extract_cat_lo, extract_cat_hi]

theorem memc bp imm : Statement (.memc bp imm) := by
  intro _
  simp [decodeCode, encodeCode, decodeWord, decodeWord00001, extract_cat_lo, extract_cat_hi, cat_extract]

theorem mems bp imm : Statement (.mems bp imm) := by
  intro _
  simp [decodeCode, encodeCode, decodeWord, decodeWord00001, extract_cat_lo, extract_cat_hi, cat_extract]

theorem memt bp imm : Statement (.memt bp imm) := by
  intro _
  simp [decodeCode, encodeCode, decodeWord, decodeWord00001, extract_cat_lo, extract_cat_hi, cat_extract]

theorem xchg rd rx ry : Statement (.xchg rd rx ry) := by
  intro _
  simp [decodeCode, encodeCode, decodeWord, decodeWord00000, decodeWord00000x0000, extract_cat_lo, extract_cat_hi]

end Laws.DecodeEncode

end Sys2Proof
end

