-- ==== Sys2Proof/Tests/Slice0.lean ====
section
/-! SUPPORT. The tests: decoding against words of the spec, instructions against its vectors, the refusals of WellFormed,
  and a witness of the
hypotheses of each statement. -/

set_option Elab.async false
set_option maxRecDepth 4000

open Sys2Proof Sys2Proof.Machine

namespace Sys2Proof.Tests

/-! ## Helpers -/

/-- Memory that holds the words at their addresses. -/
def words (m : List (Word × Word)) : List Host.Cell := m.foldl (fun m p => writeBytes m p.1 (bytesOfWord p.2 4)) []

/-- The machine of the reference configuration with these registers and words, and the stacks of the vectors. -/
def startOf (sr pc : Word) (regs : List (RegNo × Word)) (mem : List (Word × Word)) : State :=
  { State.reset with sr := sr, pc := pc, spSys := 0x2000#32, spApp := 0x2000#32, mem := words mem }.setRegs regs

/-- The instruction of the word gives a next state with these registers, QVNZC, PC and words in memory. -/
def shows (nbits w : Nat) (s : State) (regs : List (RegNo × Word)) (flags : BitVec 5) (pc : Word) (mem : List (Word × Word)) : Bool :=
  match decodeTableWord nbits w with
  | none => false
  | some i =>
    match exec i s with
    | .next t =>
      regs.all (fun p => t.getReg p.1 == p.2) && t.sr.extractLsb' 0 5 == flags && t.pc == pc &&
        mem.all (fun p => wordOfBytes (readBytes t.mem p.1 4) == p.2)
    | _ => false

/-- Each table word decodes to the instruction beside it. -/
def decodes (l : List (Nat × Nat × Instr)) : Bool := l.all fun p => decodeTableWord p.1 p.2.1 == some p.2.2

/-- The next state of an outcome satisfies the check. -/
def leads (o : Out) (p : State → Bool) : Bool :=
  match o with
  | .next t => p t
  | _ => false

/-! ## Words of the spec decode to their instructions (95_test_vectors.md, 96_test_vectors_continued.md) -/

theorem test_decode_arithmetic : decodes [
    (16, 0x5C43, .abs 3#4), (16, 0x5C02, .acr 2#4), (32, 0xE2030041, .adc 1#4 1#4 3#4), (32, 0xE2020020, .add (.formII 0#4 1#4 2#4 2#2)),
    (32, 0xE3D2E000, .addCond 0#4 0#4 1#4 2#4), (32, 0xE2020E43, .addabs 3#4 1#4 2#4), (32, 0xE2001800, .cpB 0#4 1#4),
    (32, 0xE2001900, .cpH 0#4 1#4), (32, 0xEE50FFFF, .cpW (.formIII 0#4 1048575#21)), (32, 0xE2001300, .cpc (.formI 0#4 1#4)),
    (32, 0xE2020C40, .max 0#4 1#4 2#4), (32, 0xE2020D40, .min 0#4 1#4 2#4), (16, 0x5C30, .neg 0#4),
    (32, 0xE2001180, .rsub (.formII 0#4 1#4 128#8)), (32, 0xFBB00BFF, .rsubCond 11#4 0#4 255#8), (32, 0xE2020140, .sbc 0#4 1#4 2#4),
    (16, 0x5C12, .scr 2#4), (32, 0xE0352345, .sub (.formIV 5#4 74565#21)), (32, 0xE3D2E110, .subCond (.formII 1#4 0#4 1#4 2#4)),
    (16, 0x5CE0, .tnbz 0#4)] = true := by
  decide

theorem test_decode_multiplication : decodes [
    (32, 0xE4030C00, .divs 0#4 2#4 3#4), (32, 0xE4030D00, .divu 0#4 2#4 3#4), (32, 0xE2020340, .mac 0#4 1#4 2#4),
    (32, 0xE4030540, .macsD 0#4 2#4 3#4), (32, 0xE4030740, .macuD 0#4 2#4 3#4), (32, 0xE20010FE, .mul (.formIII 0#4 1#4 254#8)),
    (32, 0xE4030440, .mulsD 0#4 2#4 3#4), (32, 0xE4030640, .muluD 0#4 2#4 3#4)] = true := by
  decide

theorem test_decode_dsp : decodes [
    (32, 0xE4030E2A, .addhhW 10#4 2#4 1#1 3#4 0#1), (32, 0xE40305AA, .machhD 10#4 2#4 1#1 3#4 0#1),
    (32, 0xE40304AA, .machhW 10#4 2#4 1#1 3#4 0#1), (32, 0xE4030C8A, .macwhD 10#4 2#4 3#4 0#1), (32, 0xE40307AA,
    .mulhhW 10#4 2#4 1#1 3#4 0#1),
    (32, 0xE4030D8A, .mulwhD 10#4 2#4 3#4 0#1), (32, 0xE403018A, .mulnhhW 10#4 2#4 0#1 3#4 0#1), (32, 0xE403028A,
    .mulnwhD 10#4 2#4 3#4 0#1),
    (32, 0xE20202C0, .sataddH 0#4 1#4 2#4), (32, 0xE20200C0, .sataddW 0#4 1#4 2#4), (32, 0xE20203C0, .satsubH 0#4 1#4 2#4),
    (32, 0xE20201C0, .satsubW (.formI 0#4 1#4 2#4)), (32, 0xF3B00104, .satrnds 0#4 4#5 8#5), (32, 0xF3B00481, .satrndu 0#4 1#5 4#5),
    (32, 0xF1B00104, .sats 0#4 4#5 8#5), (32, 0xF1B00504, .satu 0#4 4#5 8#5), (32, 0xE4030F2A, .subhhW 10#4 2#4 1#1 3#4 0#1),
    (32, 0xE40308AA, .mulsathhH 10#4 2#4 1#1 3#4 0#1), (32, 0xE40309AA, .mulsathhW 10#4 2#4 1#1 3#4 0#1),
    (32, 0xE4030AAA, .mulsatrndhhH 10#4 2#4 1#1 3#4 0#1), (32, 0xE4030B8A, .mulsatrndwhW 10#4 2#4 3#4 0#1),
    (32, 0xE4030E8A, .mulsatwhW 10#4 2#4 3#4 0#1), (32, 0xE40306AA, .macsathhW 10#4 2#4 1#1 3#4 0#1)] = true := by
  decide

theorem test_decode_logic : decodes [
    (32, 0xE3E20040, .and (.formII 0#4 1#4 2#4 4#5)), (32, 0xE3D2E123, .andCond 1#4 3#4 1#4 2#4), (16, 0x0280, .andn 0#4 1#4),
    (32, 0xE41000FF, .andh 0#4 0#1 255#16), (32, 0xE210FF00, .andl 0#4 1#1 65280#16), (16, 0x5CD0, .com 0#4),
    (32, 0xE3E22210, .eor (.formIII 0#4 1#4 2#4 1#5)), (32, 0xE3D2E143, .eorCond 1#4 3#4 1#4 2#4), (32, 0xEE10FFFF, .eorh 0#4 65535#16),
    (32, 0xEC1000FF, .eorl 0#4 255#16), (32, 0xE3E211F0, .or (.formII 0#4 1#4 2#4 31#5)), (32, 0xE3D2E133, .orCond 1#4 3#4 1#4 2#4),
    (32, 0xEA108000, .orh 0#4 32768#16), (32, 0xE8100001, .orl 0#4 1#16), (16, 0x0270, .tst 0#4 1#4)] = true := by
  decide

theorem test_decode_bit : decodes [
    (32, 0xE1D1B088, .bfexts 0#4 1#4 4#5 8#5), (32, 0xE1D1C088, .bfextu 0#4 1#4 4#5 8#5), (32, 0xE1D1D104, .bfins 0#4 1#4 8#5 4#5),
    (32, 0xEDB0001F, .bld 0#4 31#5), (16, 0x5C90, .brev 0#4), (32, 0xEFB00004, .bst 0#4 4#5), (16, 0x5C60, .castsB 0#4),
    (16, 0x5C80, .castsH 0#4), (16, 0x5C50, .castuB 0#4), (16, 0x5C70, .castuH 0#4), (16, 0xBFD0, .cbr 0#4 31#5), (32, 0xE2001200,
    .clz 0#4 1#4),
    (16, 0xA1A0, .sbr 0#4 0#5), (16, 0x5CB0, .swapB 0#4), (16, 0x5CC0, .swapBh 0#4), (16, 0x5CA0, .swapH 0#4)] = true := by
  decide

theorem test_decode_shift : decodes [
    (32, 0xE2020840, .asr (.formI 0#4 1#4 2#4)), (32, 0xE2001504, .lsl (.formIII 0#4 1#4 4#5)), (32, 0xE2020A40, .lsr (.formI 0#4 1#4 2#4)),
    (16, 0x5CF0, .rol 0#4), (16, 0x5D00, .ror 0#4)] = true := by
  decide

theorem test_decode_flow : decodes [
    (16, 0xD020, .acall 2#8), (16, 0xCFD1, .brCond3 1#3 253#8), (32, 0xE08B0004, .brCond4 11#4 4#21), (16, 0x5D15, .icall 5#4),
    (32, 0xF01F0002, .mcall 15#4 2#16), (32, 0xE2A00000, .rcall (.formII 131072#21)), (16, 0xCFF9, .rjmp 511#10),
    (16, 0x5EFC, .retCond 15#4 12#4)] = true := by
  decide

theorem test_decode_loads : decodes [
    (32, 0xE0712345, .mov (.formII 1#4 74565#21)), (32, 0xF9B20001, .movCond (.formII 0#4 2#4 1#8)), (32, 0xFC148000, .movh 4#4 32768#16),
    (16, 0x0370, .ldUb (.formII 0#4 1#4)), (32, 0xE3F00805, .ldUbCond 0#4 0#4 1#4 5#9), (32, 0xE3200001, .ldSb (.formI 0#4 1#4 1#16)),
    (32, 0xE9F56603, .ldSbCond 6#4 5#4 4#4 3#9), (16, 0x8290, .ldUh (.formIII 0#4 1#4 1#3)), (32, 0xE9F53401, .ldUhCond 3#4 5#4 4#4 1#9),
    (16, 0x8210, .ldSh (.formIII 0#4 1#4 1#3)), (32, 0xE3F03201, .ldShCond 3#4 0#4 1#4 1#9), (16, 0x6210, .ldW (.formIII 0#4 1#4 1#5)),
    (32, 0xE3F01001, .ldWCond 1#4 0#4 1#4 1#9), (32, 0xE2040232, .ldD (.formV 2#4 1#4 4#4 3#2)), (32, 0xE3D06001, .ldinsB 0#4 1#4 2#2 1#12),
    (32, 0xE3D01001, .ldinsH 0#4 1#4 1#1 1#12), (32, 0xE3D02001, .ldswpSh 0#4 1#4 1#12), (32, 0xE3D03001, .ldswpUh 0#4 1#4 1#12),
    (32, 0xE3D08FFF, .ldswpW 0#4 1#4 4095#12), (16, 0x4820, .lddpc 0#4 2#7), (16, 0x4013, .lddsp 3#4 1#7)] = true := by
  decide

theorem test_decode_stores : decodes [
    (16, 0xA2F0, .stB (.formIII 1#4 0#4 7#3)), (32, 0xE3F21FFF, .stBCond 1#4 1#4 2#4 511#9), (32, 0xE2E30008, .stD (.formIV 1#4 2#4 8#16)),
    (16, 0xA210, .stH (.formIII 1#4 0#4 1#3)), (32, 0xE3F2FC01, .stHCond 15#4 1#4 2#4 1#9), (32, 0xE342FFFC,
    .stW (.formIV 1#4 2#4 65532#16)),
    (32, 0xE3F20A01, .stWCond 0#4 1#4 2#4 1#9), (16, 0x5023, .stdsp 3#4 2#7), (32, 0xE3E29320,
    .sthhW (.formII 1#4 0#1 2#4 1#1 0#4 3#4 2#2)),
    (32, 0xE3D09000, .stswpH 1#4 0#4 0#12), (32, 0xE3D0A001, .stswpW 1#4 0#4 1#12), (32, 0xE3700000, .stcond 1#4 0#4 0#16)] = true := by
  decide

theorem test_decode_multiple : decodes [
    (16, 0xD201, .pushm 32#8), (16, 0xD81A, .popm 1#1 129#8), (32, 0xE3CD800F, .ldm 13#4 1#1 32783#16), (32, 0xEBCD400F,
    .stm 13#4 1#1 16399#16),
    (32, 0xE5C02000, .ldmts 0#4 0#1 8192#16), (32, 0xEDC07FFF, .stmts 0#4 0#1 32767#16)] = true := by
  decide

theorem test_decode_system : decodes [
    (16, 0xD503, .csrf 16#5), (16, 0xD0E3, .csrfcz 14#5), (16, 0xD673, .breakpoint), (16, 0xD743, .frs), (32, 0xF4100000,
    .cache 0#5 0#4 0#11),
    (32, 0xF2110000, .pref 1#4 0#16), (32, 0xE1B10042, .mfsr 1#4 66#8), (32, 0xE5B30005, .mfdr 3#4 5#8), (32, 0xE3B20001, .mtsr 2#4 1#8),
    (32, 0xE7B30005, .mtdr 3#4 5#8), (16, 0x5D33, .musfr 3#4), (16, 0x5D24, .mustr 4#4), (16, 0xD703, .nop), (16, 0xD733, .scall),
    (16, 0xD753, .sscall), (16, 0xD603, .rete), (16, 0xD613, .rets), (16, 0xD623, .retd), (32, 0xE9B00080, .sleep 128#8), (16, 0xD763,
    .retss),
    (16, 0x5F10, .srCond 1#4 0#4), (32, 0xEBB00000, .sync 0#8), (16, 0xD253, .ssrf 5#5), (16, 0xD643, .tlbr), (16, 0xD653, .tlbs),
    (16, 0xD663, .tlbw)] = true := by
  decide

theorem test_decode_coprocessor : decodes [
    (32, 0xE1A04012, .cop 2#3 0#7 0#4 1#4 2#4), (32, 0xE9A25000, .ldcD (.formI 2#3 0#4 2#4 0#8)),
    (32, 0xE9A24101, .ldcW (.formI 2#3 1#4 2#4 1#8)), (32, 0xF3A20000, .ldc0D 0#4 2#4 0#12), (32, 0xF1A20000, .ldc0W 0#4 2#4 0#12),
    (32, 0xEDA45405, .ldcmD 2#3 4#4 1#1 5#8), (32, 0xEDAD503C, .ldcmW (.formLow 2#3 13#4 1#1 60#8)), (32, 0xEFA04210, .mvcrD 2#3 0#4 2#4),
    (32, 0xEFA54000, .mvcrW 2#3 5#4 0#4), (32, 0xEFA24030, .mvrcD 2#3 0#4 2#4), (32, 0xEFA24020, .mvrcW 2#3 0#4 2#4),
    (32, 0xEBA25000, .stcD (.formI 2#3 2#4 0#4 0#8)), (32, 0xEBA44903, .stcW (.formI 2#3 4#4 9#4 3#8)), (32, 0xF7A20000,
    .stc0D 2#4 0#4 0#12),
    (32, 0xF5A41903, .stc0W 4#4 9#4 259#12), (32, 0xEDA45505, .stcmD 2#3 4#4 1#1 5#8), (32, 0xEDAD523C,
    .stcmW (.formLow 2#3 13#4 1#1 60#8))] = true := by
  decide

theorem test_decode_java : decodes [
    (16, 0xD693, .incjosp 1#3), (16, 0xD713, .popjc), (16, 0xD723, .pushjc), (16, 0xD633, .retj)] = true := by
  decide

theorem test_decode_packed_one : decodes [
    (32, 0xE00223E1, .pabsSb 1#4 2#4), (32, 0xE00223F1, .pabsSh 1#4 2#4), (32, 0xE20224C0, .packshUb 0#4 1#4 2#4),
    (32, 0xE20224D0, .packshSb 0#4 1#4 2#4), (32, 0xE2022470, .packwSh 0#4 1#4 2#4), (32, 0xE2022300, .paddB 0#4 1#4 2#4),
    (32, 0xE2022000, .paddH 0#4 1#4 2#4), (32, 0xE2022360, .paddhUb 0#4 1#4 2#4), (32, 0xE20220C0, .paddhSh 0#4 1#4 2#4),
    (32, 0xE2022340, .paddsUb 0#4 1#4 2#4), (32, 0xE2022320, .paddsSb 0#4 1#4 2#4), (32, 0xE2022080, .paddsUh 0#4 1#4 2#4),
    (32, 0xE2022040, .paddsSh 0#4 1#4 2#4), (32, 0xE2022120, .paddsubH 0#4 1#4 1#1 2#4 0#1), (32, 0xE20222A0,
    .paddsubhSh 0#4 1#4 1#1 2#4 0#1),
    (32, 0xE2022200, .paddsubsUh 0#4 1#4 0#1 2#4 0#1), (32, 0xE20221B0, .paddsubsSh 0#4 1#4 1#1 2#4 1#1), (32, 0xE2022020,
    .paddxH 0#4 1#4 2#4),
    (32, 0xE20220E0, .paddxhSh 0#4 1#4 2#4), (32, 0xE20220A0, .paddxsUh 0#4 1#4 2#4), (32, 0xE2022060, .paddxsSh 0#4 1#4 2#4),
    (32, 0xE2012410, .pasrB 0#4 1#4 1#3), (32, 0xE20F2440, .pasrH 0#4 1#4 15#4), (32, 0xE20223C0, .pavgUb 0#4 1#4 2#4),
    (32, 0xE20223D0, .pavgSh 0#4 1#4 2#4)] = true := by
  decide

theorem test_decode_packed_two : decodes [
    (32, 0xE2012420, .plslB 0#4 1#4 1#3), (32, 0xE20F2450, .plslH 0#4 1#4 15#4), (32, 0xE2012430, .plsrB 0#4 1#4 1#3),
    (32, 0xE20F2460, .plsrH 0#4 1#4 15#4), (32, 0xE2022380, .pmaxUb 0#4 1#4 2#4), (32, 0xE2022390, .pmaxSh 0#4 1#4 2#4),
    (32, 0xE20223A0, .pminUb 0#4 1#4 2#4), (32, 0xE20223B0, .pminSh 0#4 1#4 2#4), (32, 0xE2022400, .psad 0#4 1#4 2#4),
    (32, 0xE2022310, .psubB 0#4 1#4 2#4), (32, 0xE2022010, .psubH 0#4 1#4 2#4), (32, 0xE2022140, .psubaddH 0#4 1#4 0#1 2#4 0#1),
    (32, 0xE20222E0, .psubaddhSh 0#4 1#4 1#1 2#4 0#1), (32, 0xE2022240, .psubaddsUh 0#4 1#4 0#1 2#4 0#1),
    (32, 0xE20221C0, .psubaddsSh 0#4 1#4 0#1 2#4 0#1), (32, 0xE2022370, .psubhUb 0#4 1#4 2#4), (32, 0xE20220D0, .psubhSh 0#4 1#4 2#4),
    (32, 0xE2022350, .psubsUb 0#4 1#4 2#4), (32, 0xE2022330, .psubsSb 0#4 1#4 2#4), (32, 0xE2022090, .psubsUh 0#4 1#4 2#4),
    (32, 0xE2022050, .psubsSh 0#4 1#4 2#4), (32, 0xE2022030, .psubxH 0#4 1#4 2#4), (32, 0xE20220F0, .psubxhSh 0#4 1#4 2#4),
    (32, 0xE20220B0, .psubxsUh 0#4 1#4 2#4), (32, 0xE2022070, .psubxsSh 0#4 1#4 2#4), (32, 0xE8002493, .punpckubH 3#4 4#4 1#1),
    (32, 0xE80024B3, .punpcksbH 3#4 4#4 1#1)] = true := by
  decide

theorem test_decode_rmw : decodes [
    (32, 0xF6128040, .memc 5#5 64#15), (32, 0xF8100040, .mems 0#5 64#15), (32, 0xFA1F8040, .memt 31#5 64#15), (32, 0xE2020B40,
    .xchg 0#4 1#4 2#4)] = true := by
  decide

/-! ## Words written bit by bit from the encodings of the spec -/

/-- One word per family, its fields as the encoding of its rule prints them (40 R450 to 49 R1040). -/
theorem test_decode_bits : decodes [
    (32, 0b1110010000000011_0000110000000000, .divs 0#4 2#4 3#4), (32, 0b1110010000000011_0000111000101010, .addhhW 10#4 2#4 1#1 3#4 0#1),
    (32, 0b1110000111010001_1011000010001000, .bfexts 0#4 1#4 4#5 8#5), (16, 0b0101110011110000, .rol 0#4),
    (16, 0b1101000000100000, .acall 2#8), (16, 0b0101110001000011, .abs 3#4), (16, 0b0000001010000000, .andn 0#4 1#4),
    (16, 0b0100100000100000, .lddpc 0#4 2#7), (16, 0b0101000000100011, .stdsp 3#4 2#7),
    (32, 0b1110101111001101_0100000000001111, .stm 13#4 1#1 0x400F#16), (32, 0b1110000110110001_0000000001000010, .mfsr 1#4 66#8),
    (32, 0b1110111110100010_0100000000100000, .mvrcW 2#3 0#4 2#4), (16, 0b1101011010010011, .incjosp 1#3),
    (32, 0b1110001000000010_0010001100000000, .paddB 0#4 1#4 2#4), (32, 0b1110001000000010_0000101101000000,
    .xchg 0#4 1#4 2#4)] = true := by
  decide

/-- A halfword with no row of the table, a reserved bit set in mfsr, and one in a conditional move (96_test_vectors_continued.md 4.1). -/
theorem test_decode_refuses :
    decodeTableWord 16 0xD803 = none ∧ decodeTableWord 32 0xE1B0FF00 = none ∧ decodeTableWord 32 0xE2001751 = none := by
  decide

/-! ## WellFormed refuses a pair named by its odd register, in each check -/

theorem test_wellFormed_refuses :
    ([.ldD (.formI 3#4 0#4), .ldD (.formII 3#4 0#4), .ldD (.formIII 3#4 0#4), .ldD (.formIV 3#4 0#4 0#16), .stD (.formI 0#4 3#4),
      .stD (.formII 0#4 3#4), .stD (.formIII 0#4 3#4), .stD (.formIV 0#4 3#4 0#16), .ldcD (.formI 0#3 3#4 0#4 0#8),
      .ldcD (.formII 0#3 3#4 0#4),
      .ldcD (.formIII 0#3 3#4 0#4 0#4 0#2), .ldc0D 3#4 0#4 0#12, .mvcrD 0#3 3#4 2#4, .mvcrD 0#3 2#4 3#4, .mvrcD 0#3 3#4 2#4,
      .mvrcD 0#3 2#4 3#4,
      .stcD (.formI 0#3 0#4 3#4 0#8), .stcD (.formII 0#3 0#4 3#4), .stcD (.formIII 0#3 0#4 0#4 3#4 0#2),
      .stc0D 0#4 3#4 0#12] : List Instr).all (fun i => !WellFormed i) = true := by
  decide

/-! ## Vectors of the spec -/

/-- `abs R0` of 95_test_vectors.md 3.1. -/
theorem test_abs :
    shows 16 0x5C40 (startOf 0x00410000#32 0x80001000#32 [(0#4, 0x80000000#32)] []) [(0#4,
    0x80000000#32)] 0b00000#5 0x80001002#32 [] = true := by
  decide

/-- `add R0, R1` of 95_test_vectors.md 3.1. -/
theorem test_add :
    shows 16 0x0200 (startOf 0x00410000#32 0x80001000#32 [(0#4, 0x7FFFFFFF#32), (1#4, 0x00000001#32)] []) [(0#4, 0x80000000#32)] 0b01100#5
      0x80001002#32 [] = true := by
  decide

/-- `adc R1, R1, R3` of 95_test_vectors.md 3.1. -/
theorem test_adc :
    shows 32 0xE2030041 (startOf 0x00410003#32 0x80001000#32 [(1#4, 0xFFFFFFFF#32), (3#4, 0x00000000#32)] []) [(1#4,
    0x00000000#32)] 0b00011#5
      0x80001004#32 [] = true := by
  decide

/-- `cp.b R0, R1` of 95_test_vectors.md 3.1. -/
theorem test_cp_b :
    shows 32 0xE2001800 (startOf 0x00410000#32 0x80001000#32 [(0#4, 0x12345680#32), (1#4,
    0xFFFFFF7F#32)] []) [] 0b01000#5 0x80001004#32 [] =
      true := by
  decide

/-- `cpc R0, R1` of 95_test_vectors.md 3.1. -/
theorem test_cpc :
    shows 32 0xE2001300 (startOf 0x00410003#32 0x80001000#32 [(0#4, 0x00000005#32), (1#4,
    0x00000004#32)] []) [] 0b00010#5 0x80001004#32 [] =
      true := by
  decide

/-- `max R0, R1, R2` of 95_test_vectors.md 3.1. -/
theorem test_max :
    shows 32 0xE2020C40 (startOf 0x00410000#32 0x80001000#32 [(1#4, 0xFFFFFFFF#32), (2#4, 0x00000001#32)] []) [(0#4,
    0x00000001#32)] 0b00000#5
      0x80001004#32 [] = true := by
  decide

/-- `rsub R0, R1` of 95_test_vectors.md 3.1. -/
theorem test_rsub :
    shows 16 0x0220 (startOf 0x00410000#32 0x80001000#32 [(0#4, 0x00000003#32), (1#4, 0x0000000A#32)] []) [(0#4, 0x00000007#32)] 0b00000#5
      0x80001002#32 [] = true := by
  decide

/-- `subne R0, R1, R2` of 95_test_vectors.md 3.1. -/
theorem test_sub_cond4 :
    shows 32 0xE3D2E110 (startOf 0x00410000#32 0x80001000#32 [(1#4, 0x00000000#32), (2#4, 0x00000001#32)] []) [(0#4,
    0xFFFFFFFF#32)] 0b00000#5
      0x80001004#32 [] = true := by
  decide

/-- `tnbz R0` of 95_test_vectors.md 3.1. -/
theorem test_tnbz :
    shows 16 0x5CE0 (startOf 0x00410000#32 0x80001000#32 [(0#4, 0x11002233#32)] []) [] 0b00010#5 0x80001002#32 [] = true := by
  decide

/-- `divs R0, R2, R3` of 95_test_vectors.md 3.2. -/
theorem test_divs :
    shows 32 0xE4030C00 (startOf 0x00410000#32 0x80001000#32 [(2#4, 0xFFFFFFF9#32), (3#4, 0x00000002#32)] []) [(0#4, 0xFFFFFFFD#32), (1#4,
    0xFFFFFFFF#32)] 0b00000#5 0x80001004#32 [] = true := by
  decide

/-- `mac R0, R1, R2` of 95_test_vectors.md 3.2. -/
theorem test_mac :
    shows 32 0xE2020340 (startOf 0x00410000#32 0x80001000#32 [(0#4, 0x0000000A#32), (1#4, 0x00000003#32), (2#4, 0x00000004#32)] []) [(0#4,
      0x00000016#32)] 0b00000#5 0x80001004#32 [] = true := by
  decide

/-- `muls.d R0, R2, R3` of 95_test_vectors.md 3.2. -/
theorem test_muls_d :
    shows 32 0xE4030440 (startOf 0x00410000#32 0x80001000#32 [(2#4, 0xFFFFFFFF#32), (3#4, 0x00000002#32)] []) [(0#4, 0xFFFFFFFE#32), (1#4,
    0xFFFFFFFF#32)] 0b00000#5 0x80001004#32 [] = true := by
  decide

/-- `mul R0, R1` of 95_test_vectors.md 3.2. -/
theorem test_mul :
    shows 16 0xA330 (startOf 0x00410006#32 0x80001000#32 [(0#4, 0x00010000#32), (1#4, 0x00010001#32)] []) [(0#4, 0x00010000#32)] 0b00110#5
      0x80001002#32 [] = true := by
  decide

/-- `addhh.w R10, R2:t, R3:b` of 95_test_vectors.md 3.3. -/
theorem test_addhh_w :
    shows 32 0xE4030E2A (startOf 0x00410000#32 0x80001000#32 [(2#4, 0x7FFF0000#32), (3#4, 0x00007FFF#32)] []) [(10#4,
    0x0000FFFE#32)] 0b00000#5
      0x80001004#32 [] = true := by
  decide

/-- `machh.d R10, R2:t, R3:b` of 95_test_vectors.md 3.3. -/
theorem test_machh_d :
    shows 32 0xE40305AA (startOf 0x00410000#32 0x80001000#32 [(2#4, 0x00020000#32), (3#4, 0x00000003#32), (10#4, 0x00010000#32), (11#4,
      0x00000000#32)] []) [(10#4, 0x00070000#32), (11#4, 0x00000000#32)] 0b00000#5 0x80001004#32 [] = true := by
  decide

/-- `macwh.d R10, R2, R3:b` of 95_test_vectors.md 3.3. -/
theorem test_macwh_d :
    shows 32 0xE4030C8A (startOf 0x00410000#32 0x80001000#32 [(2#4, 0x00010000#32), (3#4, 0x00000002#32), (10#4, 0xFFFF1234#32), (11#4,
      0x00000000#32)] []) [(10#4, 0xFFFF0000#32), (11#4, 0x00000002#32)] 0b00000#5 0x80001004#32 [] = true := by
  decide

/-- `mulnwh.d R10, R2, R3:b` of 95_test_vectors.md 3.3. -/
theorem test_mulnwh_d :
    shows 32 0xE403028A (startOf 0x00410000#32 0x80001000#32 [(2#4, 0x00010000#32), (3#4, 0x0000FFFF#32)] []) [(10#4, 0x00000000#32), (11#4,
      0x00000001#32)] 0b00000#5 0x80001004#32 [] = true := by
  decide

/-- `satadd.w R0, R1, R2` of 95_test_vectors.md 3.3. -/
theorem test_satadd_w :
    shows 32 0xE20200C0 (startOf 0x00410000#32 0x80001000#32 [(1#4, 0x7FFFFFFF#32), (2#4, 0x00000001#32)] []) [(0#4,
    0x7FFFFFFF#32)] 0b11000#5
      0x80001004#32 [] = true := by
  decide

/-- `satsub.h R0, R1, R2` of 95_test_vectors.md 3.3. -/
theorem test_satsub_h :
    shows 32 0xE20203C0 (startOf 0x00410000#32 0x80001000#32 [(1#4, 0x00008000#32), (2#4, 0x00000001#32)] []) [(0#4,
    0xFFFF8000#32)] 0b11100#5
      0x80001004#32 [] = true := by
  decide

/-- `satrnds R0 >> 4, 8` of 95_test_vectors.md 3.3. -/
theorem test_satrnds :
    shows 32 0xF3B00104 (startOf 0x00410000#32 0x80001000#32 [(0#4, 0x00000128#32)] []) [(0#4,
    0x00000013#32)] 0b00000#5 0x80001004#32 [] = true
      := by
  decide

/-- `satu R0 >> 0, 8` of 95_test_vectors.md 3.3. -/
theorem test_satu :
    shows 32 0xF1B00500 (startOf 0x00410000#32 0x80001000#32 [(0#4, 0xFFFFFFFF#32)] []) [(0#4,
    0x00000000#32)] 0b10000#5 0x80001004#32 [] = true
      := by
  decide

/-- `mulsathh.w R10, R2:t, R3:b` of 95_test_vectors.md 3.3. -/
theorem test_mulsathh_w :
    shows 32 0xE40309AA (startOf 0x00410000#32 0x80001000#32 [(2#4, 0x80000000#32), (3#4, 0x00008000#32)] []) [(10#4,
    0x7FFFFFFF#32)] 0b10000#5
      0x80001004#32 [] = true := by
  decide

/-- `mulsatrndwh.w R10, R2, R3:b` of 95_test_vectors.md 3.3. -/
theorem test_mulsatrndwh_w :
    shows 32 0xE4030B8A (startOf 0x00410000#32 0x80001000#32 [(2#4, 0x00000001#32), (3#4, 0x00004000#32)] []) [(10#4,
    0x00000001#32)] 0b00000#5
      0x80001004#32 [] = true := by
  decide

/-- `macsathh.w R10, R2:t, R3:b` of 95_test_vectors.md 3.3. -/
theorem test_macsathh_w :
    shows 32 0xE40306AA (startOf 0x00410000#32 0x80001000#32 [(10#4, 0x7FFFFFFF#32), (2#4, 0x40000000#32), (3#4, 0x00004000#32)] []) [(10#4,
      0x7FFFFFFF#32)] 0b10000#5 0x80001004#32 [] = true := by
  decide

/-- `and R0, R1` of 95_test_vectors.md 3.4. -/
theorem test_and :
    shows 16 0x0260 (startOf 0x00410009#32 0x80001000#32 [(0#4, 0xF0F0F0F0#32), (1#4, 0x80FF00FF#32)] []) [(0#4, 0x80F000F0#32)] 0b01101#5
      0x80001002#32 [] = true := by
  decide

/-- `andh R0, 0x00FF` of 95_test_vectors.md 3.4. -/
theorem test_andh :
    shows 32 0xE41000FF (startOf 0x00410000#32 0x80001000#32 [(0#4, 0x12345678#32)] []) [(0#4,
    0x00345678#32)] 0b00000#5 0x80001004#32 [] = true
      := by
  decide

/-- `com R0` of 95_test_vectors.md 3.4. -/
theorem test_com :
    shows 16 0x5CD0 (startOf 0x00410004#32 0x80001000#32 [(0#4, 0xFFFFFFFF#32)] []) [(0#4,
    0x00000000#32)] 0b00110#5 0x80001002#32 [] = true := by
  decide

/-- `eorl R0, 0x00FF` of 95_test_vectors.md 3.4. -/
theorem test_eorl :
    shows 32 0xEC1000FF (startOf 0x00410000#32 0x80001000#32 [(0#4, 0x0000FFFF#32)] []) [(0#4,
    0x0000FF00#32)] 0b00000#5 0x80001004#32 [] = true
      := by
  decide

/-- `tst R0, R1` of 95_test_vectors.md 3.4. -/
theorem test_tst :
    shows 16 0x0270 (startOf 0x00410000#32 0x80001000#32 [(0#4, 0x000000F0#32), (1#4,
    0x0000000F#32)] []) [] 0b00010#5 0x80001002#32 [] = true := by
  decide

/-- `bfexts R0, R1, 4, 8` of 95_test_vectors.md 3.4. -/
theorem test_bfexts :
    shows 32 0xE1D1B088 (startOf 0x00410000#32 0x80001000#32 [(1#4, 0x00000F50#32)] []) [(0#4,
    0xFFFFFFF5#32)] 0b00101#5 0x80001004#32 [] = true
      := by
  decide

/-- `bfins R0, R1, 8, 4` of 95_test_vectors.md 3.4. -/
theorem test_bfins :
    shows 32 0xE1D1D104 (startOf 0x00410000#32 0x80001000#32 [(0#4, 0xFFFFFFFF#32), (1#4, 0x00000005#32)] []) [(0#4,
    0xFFFFF5FF#32)] 0b00101#5
      0x80001004#32 [] = true := by
  decide

/-- `bld R0, 31` of 95_test_vectors.md 3.4. -/
theorem test_bld :
    shows 32 0xEDB0001F (startOf 0x00410000#32 0x80001000#32 [(0#4, 0x80000000#32)] []) [] 0b00011#5 0x80001004#32 [] = true := by
  decide

/-- `brev R0` of 95_test_vectors.md 3.4. -/
theorem test_brev :
    shows 16 0x5C90 (startOf 0x00410000#32 0x80001000#32 [(0#4, 0x00000001#32)] []) [(0#4,
    0x80000000#32)] 0b00000#5 0x80001002#32 [] = true := by
  decide

/-- `casts.h R0` of 95_test_vectors.md 3.4. -/
theorem test_casts_h :
    shows 16 0x5C80 (startOf 0x00410000#32 0x80001000#32 [(0#4, 0x12347FFF#32)] []) [(0#4,
    0x00007FFF#32)] 0b00000#5 0x80001002#32 [] = true := by
  decide

/-- `clz R0, R1` of 95_test_vectors.md 3.4. -/
theorem test_clz :
    shows 32 0xE2001200 (startOf 0x00410000#32 0x80001000#32 [(1#4, 0x00000000#32)] []) [(0#4,
    0x00000020#32)] 0b00001#5 0x80001004#32 [] = true
      := by
  decide

/-- `sbr R0, 0` of 95_test_vectors.md 3.4. -/
theorem test_sbr :
    shows 16 0xA1A0 (startOf 0x00410002#32 0x80001000#32 [(0#4, 0x00000000#32)] []) [(0#4,
    0x00000001#32)] 0b00000#5 0x80001002#32 [] = true := by
  decide

/-- `swap.bh R0` of 95_test_vectors.md 3.4. -/
theorem test_swap_bh :
    shows 16 0x5CC0 (startOf 0x00410000#32 0x80001000#32 [(0#4, 0x11223344#32)] []) [(0#4,
    0x22114433#32)] 0b00000#5 0x80001002#32 [] = true := by
  decide

/-- `asr R0, R1, R2` of 95_test_vectors.md 3.5. -/
theorem test_asr :
    shows 32 0xE2020840 (startOf 0x00410000#32 0x80001000#32 [(1#4, 0x80000001#32), (2#4, 0x00000004#32)] []) [(0#4,
    0xF8000000#32)] 0b00100#5
      0x80001004#32 [] = true := by
  decide

/-- `lsl R0, R1, R2` of 95_test_vectors.md 3.5. -/
theorem test_lsl :
    shows 32 0xE2020940 (startOf 0x00410000#32 0x80001000#32 [(1#4, 0xC0000001#32), (2#4, 0x00000021#32)] []) [(0#4,
    0x80000002#32)] 0b00101#5
      0x80001004#32 [] = true := by
  decide

/-- `ror R0` of 95_test_vectors.md 3.5. -/
theorem test_ror :
    shows 16 0x5D00 (startOf 0x00410000#32 0x80001000#32 [(0#4, 0x00000001#32)] []) [(0#4,
    0x00000000#32)] 0b00011#5 0x80001002#32 [] = true := by
  decide

/-- `brvs +0x1FFFFE` of 95_test_vectors.md 3.6. -/
theorem test_br_cond4 :
    shows 32 0xEE9CFFFF (startOf 0x00410008#32 0x80001000#32 [] []) [] 0b01000#5 0x80200FFE#32 [] = true := by
  decide

/-- `icall R5` of 95_test_vectors.md 3.6. -/
theorem test_icall :
    shows 16 0x5D15 (startOf 0x00410000#32 0x80001000#32 [(5#4, 0x80002001#32)] []) [(5#4, 0x80002001#32), (14#4, 0x80001002#32)] 0b00000#5
      0x80002000#32 [] = true := by
  decide

/-- `mcall PC[8]` of 95_test_vectors.md 3.6. -/
theorem test_mcall :
    shows 32 0xF01F0002 (startOf 0x00410000#32 0x80001002#32 [] [(0x80001008#32, 0x80005000#32)]) [(14#4,
    0x80001006#32)] 0b00000#5 0x80005000#32
      [] = true := by
  decide

/-- `rcall +0x20` of 95_test_vectors.md 3.6. -/
theorem test_rcall :
    shows 16 0xC10C (startOf 0x00410000#32 0x80001000#32 [] []) [(14#4, 0x80001002#32)] 0b00000#5 0x80001020#32 [] = true := by
  decide

/-- `rjmp +1022` of 95_test_vectors.md 3.6. -/
theorem test_rjmp :
    shows 16 0xCFF9 (startOf 0x00410000#32 0x80001000#32 [] []) [] 0b00000#5 0x800013FE#32 [] = true := by
  decide

/-- `retal R12` of 95_test_vectors.md 3.6. -/
theorem test_ret_cond4 :
    shows 16 0x5EFC (startOf 0x00410009#32 0x80001000#32 [(12#4, 0x80000000#32), (14#4,
    0x80002000#32)] []) [] 0b00100#5 0x80002000#32 [] = true
      := by
  decide

/-- `mov R0, -1` of 96_test_vectors_continued.md 3.7. -/
theorem test_mov :
    shows 16 0x3FF0 (startOf 0x00410002#32 0x80001000#32 [] []) [(0#4, 0xFFFFFFFF#32)] 0b00010#5 0x80001002#32 [] = true := by
  decide

/-- `movh R4, 0x8000` of 96_test_vectors_continued.md 3.7. -/
theorem test_movh :
    shows 32 0xFC148000 (startOf 0x00410000#32 0x80001000#32 [(4#4, 0xFFFFFFFF#32)] []) [(4#4,
    0x80000000#32)] 0b00000#5 0x80001004#32 [] = true
      := by
  decide

/-- `ld.ub R0, R1++` of 96_test_vectors_continued.md 3.7. -/
theorem test_ld_ub :
    shows 16 0x0330 (startOf 0x00410000#32 0x80001000#32 [(1#4, 0x00003000#32)] [(0x00003000#32, 0x81828384#32), (0x00003004#32,
    0x05060708#32)])
      [(0#4, 0x00000081#32), (1#4, 0x00003001#32)] 0b00000#5 0x80001002#32 [] = true := by
  decide

/-- `ld.sh R0, R1[2]` of 96_test_vectors_continued.md 3.7. -/
theorem test_ld_sh :
    shows 16 0x8210 (startOf 0x00410000#32 0x80001000#32 [(1#4, 0x00003000#32)] [(0x00003000#32, 0x81828384#32), (0x00003004#32,
    0x05060708#32)])
      [(0#4, 0xFFFF8384#32)] 0b00000#5 0x80001002#32 [] = true := by
  decide

/-- `ld.w R0, R1++` of 96_test_vectors_continued.md 3.7. -/
theorem test_ld_w :
    shows 16 0x0300 (startOf 0x00410000#32 0x80001000#32 [(1#4, 0x00003000#32)] [(0x00003000#32, 0x81828384#32), (0x00003004#32,
    0x05060708#32)])
      [(0#4, 0x81828384#32), (1#4, 0x00003004#32)] 0b00000#5 0x80001002#32 [] = true := by
  decide

/-- `ld.d R2, R1` of 96_test_vectors_continued.md 3.7. -/
theorem test_ld_d :
    shows 16 0xA302 (startOf 0x00410000#32 0x80001000#32 [(1#4, 0x00003000#32)] [(0x00003000#32, 0x81828384#32), (0x00003004#32,
    0x05060708#32)])
      [(2#4, 0x05060708#32), (3#4, 0x81828384#32)] 0b00000#5 0x80001002#32 [] = true := by
  decide

/-- `ldins.h R0:t, R1[2]` of 96_test_vectors_continued.md 3.7. -/
theorem test_ldins_h :
    shows 32 0xE3D01001 (startOf 0x00410000#32 0x80001000#32 [(0#4, 0x11223344#32), (1#4, 0x00003000#32)] [(0x00003000#32, 0x81828384#32),
      (0x00003004#32, 0x05060708#32)]) [(0#4, 0x83843344#32)] 0b00000#5 0x80001004#32 [] = true := by
  decide

/-- `ldswp.w R0, R1[-4]` of 96_test_vectors_continued.md 3.7. -/
theorem test_ldswp_w :
    shows 32 0xE3D08FFF (startOf 0x00410000#32 0x80001000#32 [(1#4, 0x00003004#32)] [(0x00003000#32, 0x81828384#32), (0x00003004#32,
      0x05060708#32)]) [(0#4, 0x84838281#32)] 0b00000#5 0x80001004#32 [] = true := by
  decide

/-- `lddpc R0, PC[8]` of 96_test_vectors_continued.md 3.7. -/
theorem test_lddpc :
    shows 16 0x4820 (startOf 0x00410000#32 0x80001002#32 [] [(0x80001008#32, 0x11112222#32)]) [(0#4,
    0x11112222#32)] 0b00000#5 0x80001004#32 [] =
      true := by
  decide

/-- `st.h R1[2], R0` of 96_test_vectors_continued.md 3.8. -/
theorem test_st_h :
    shows 16 0xA210 (startOf 0x00410000#32 0x80001000#32 [(0#4, 0x1234ABCD#32), (1#4, 0x00003000#32)] [(0x00003000#32, 0x81828384#32),
      (0x00003004#32, 0x05060708#32)]) [] 0b00000#5 0x80001002#32 [(0x00003000#32, 0x8182ABCD#32)] = true := by
  decide

/-- `st.weq R1[4], R2` of 96_test_vectors_continued.md 3.8. -/
theorem test_st_w_cond4 :
    shows 32 0xE3F20A01 (startOf 0x00410002#32 0x80001000#32 [(1#4, 0x00003000#32), (2#4, 0x11223344#32)] []) [] 0b00010#5 0x80001004#32
      [(0x00003004#32, 0x11223344#32)] = true := by
  decide

/-- `st.d R1, R2` of 96_test_vectors_continued.md 3.8. -/
theorem test_st_d :
    shows 16 0xA313 (startOf 0x00410000#32 0x80001000#32 [(1#4, 0x00003000#32), (2#4, 0x22222222#32), (3#4, 0x33333333#32)] []) [] 0b00000#5
      0x80001002#32 [(0x00003000#32, 0x33333333#32), (0x00003004#32, 0x22222222#32)] = true := by
  decide

/-- `stcond R1[0], R0` of 96_test_vectors_continued.md 3.8. -/
theorem test_stcond :
    shows 32 0xE3700000 (startOf 0x00410002#32 0x80001000#32 [(0#4, 0x00000055#32), (1#4, 0x00003000#32)] [(0x00003000#32, 0x81828384#32),
      (0x00003004#32, 0x05060708#32)]) [] 0b00000#5 0x80001004#32 [] = true := by
  decide

/-- `sthh.w R0[0], R1:t, R2:b` of 96_test_vectors_continued.md 3.8. -/
theorem test_sthh_w :
    shows 32 0xE3E2E000 (startOf 0x00410000#32 0x80001000#32 [(0#4, 0x00003000#32), (1#4, 0xAAAA1111#32), (2#4,
    0x2222BBBB#32)] []) [] 0b00000#5
      0x80001004#32 [(0x00003000#32, 0xAAAABBBB#32)] = true := by
  decide

/-- `stswp.w R1[4], R0` of 96_test_vectors_continued.md 3.8. -/
theorem test_stswp_w :
    shows 32 0xE3D0A001 (startOf 0x00410000#32 0x80001000#32 [(0#4, 0x12345678#32), (1#4, 0x00003000#32)] []) [] 0b00000#5 0x80001004#32
      [(0x00003004#32, 0x78563412#32)] = true := by
  decide

/-- `ldm R4, R0, R1` of 96_test_vectors_continued.md 3.9. -/
theorem test_ldm :
    shows 32 0xE1C40003 (startOf 0x00410000#32 0x80001000#32 [(4#4, 0x00003000#32)] [(0x00003000#32, 0x81828384#32), (0x00003004#32,
      0x05060708#32)]) [(0#4, 0x05060708#32), (1#4, 0x81828384#32)] 0b00000#5 0x80001004#32 [] = true := by
  decide

/-- The flags of ldm R12++ with the PC in its list are those of the final R12 (47_data_transfer_stores_multiple.md R851): 0 here, where the loaded
address is all that lies at R12. -/
theorem test_ldm_tests_final_r12 :
    leads (exec (.ldm 12#4 1#1 0x8000#16) (startOf 0#32 0x80000000#32 [(12#4, 0xFFFFFFFC#32)] [(0xFFFFFFFC#32, 0x80001001#32)]))
      (fun t => t.getReg 12#4 == 0#32 && t.flagZ && !t.flagN && t.pc == 0x80001000#32) = true := by
  decide

/-- Another master writes between the words (20_memory.md R208): ld.d has read the lower word by then, and not the upper one. -/
theorem test_ldD_other_master_between :
    leads (exec (.ldD (.formIII 2#4 1#4)) { startOf 0#32 0x80000000#32 [(1#4, 0x100#32)] [(0x100#32, 0x11111111#32), (0x104#32, 0x22222222#32)]
        with now := { Sample.quiet with busBetween := [[(0x100#32, 0xAA#8), (0x104#32, 0xBB#8)]] } })
      (fun t => t.getReg 3#4 == 0x11111111#32 && t.getReg 2#4 == 0xBB222222#32 && t.byteAt 0x100#32 == 0xAA#8) = true := by
  decide

/-- ldm and stm of three registers, with a write by another master behind the first word and one behind the second. -/
theorem test_multiple_other_master_between :
    let s := { startOf 0#32 0x80000000#32 [(0#4, 0#32), (1#4, 1#32), (2#4, 2#32), (4#4, 0x100#32)]
                [(0x100#32, 0x11111111#32), (0x104#32, 0x22222222#32), (0x108#32, 0x33333333#32)]
               with now := { Sample.quiet with
                 busBetween := [[(0x100#32, 0xAA#8), (0x104#32, 0xBB#8)], [(0x104#32, 0xCC#8), (0x108#32, 0xDD#8)], [(0x100#32, 0xEE#8)]] } }
    leads (exec (.ldm 4#4 0#1 0x0007#16) s) (fun t => t.getReg 2#4 == 0x11111111#32 && t.getReg 1#4 == 0xBB222222#32 &&
      t.getReg 0#4 == 0xDD333333#32 && t.byteAt 0x100#32 == 0xAA#8) = true ∧
    leads (exec (.stm 4#4 0#1 0x0007#16) s) (fun t => readBytes t.mem 0x100#32 12 ==
      [0xAA#8, 0#8, 0#8, 2#8, 0xCC#8, 0#8, 0#8, 1#8, 0#8, 0#8, 0#8, 0#8]) = true := by
  decide

/-- Nobody comes between the read and the write of xchg (20_memory.md R208). -/
theorem test_xchg_locked :
    leads (exec (.xchg 0#4 1#4 2#4) { startOf 0#32 0x80000000#32 [(1#4, 0x100#32), (2#4, 7#32)] [(0x100#32, 0x11111111#32)]
        with now := { Sample.quiet with busBetween := [[(0x100#32, 0xAA#8)]] } })
      (fun t => t.getReg 0#4 == 0x11111111#32 && readBytes t.mem 0x100#32 4 == [0#8, 0#8, 0#8, 7#8]) = true := by
  decide

/-- `stm R4, R0, R1` of 96_test_vectors_continued.md 3.9. -/
theorem test_stm :
    shows 32 0xE9C40003 (startOf 0x00410000#32 0x80001000#32 [(0#4, 0x000000A0#32), (1#4, 0x000000A1#32), (4#4,
    0x00003000#32)] []) [] 0b00000#5
      0x80001004#32 [(0x00003000#32, 0x000000A1#32), (0x00003004#32, 0x000000A0#32)] = true := by
  decide

/-- `stmts --R0, R12, LR, SP` of 96_test_vectors_continued.md 3.9. -/
theorem test_stmts :
    shows 32 0xEFC07000 (startOf 0x00410000#32 0x80001000#32 [(0#4, 0x00003000#32), (12#4, 0x000000CC#32), (14#4, 0x80002000#32), (13#4,
      0x00002000#32)] []) [(0#4, 0x00002FF4#32)] 0b00000#5 0x80001004#32 [(0x00002FF4#32, 0x80002000#32), (0x00002FF8#32, 0x00002000#32),
      (0x00002FFC#32, 0x000000CC#32)] = true := by
  decide

/-- `csrf 0` of 96_test_vectors_continued.md 3.11. -/
theorem test_csrf :
    shows 16 0xD403 (startOf 0x00010001#32 0x80001000#32 [] []) [] 0b00000#5 0x80001002#32 [] = true := by
  decide

/-- `csrfcz 14` of 96_test_vectors_continued.md 3.11. -/
theorem test_csrfcz :
    shows 16 0xD0E3 (startOf 0x00414000#32 0x80001000#32 [] []) [] 0b00011#5 0x80001002#32 [] = true := by
  decide

/-- `mfsr R0, 0` of 96_test_vectors_continued.md 3.11. -/
theorem test_mfsr :
    shows 32 0xE1B00000 (startOf 0x0041002A#32 0x80001000#32 [] []) [(0#4, 0x0041002A#32)] 0b01010#5 0x80001004#32 [] = true := by
  decide

/-- `musfr R3` of 96_test_vectors_continued.md 3.11. -/
theorem test_musfr :
    shows 16 0x5D33 (startOf 0x00410010#32 0x80001000#32 [(3#4, 0xFFFFFFF5#32)] []) [(3#4,
    0xFFFFFFF5#32)] 0b10101#5 0x80001002#32 [] = true := by
  decide

/-- `mustr R4` of 96_test_vectors_continued.md 3.11. -/
theorem test_mustr :
    shows 16 0x5D24 (startOf 0x0041001A#32 0x80001000#32 [] []) [(4#4, 0x0000000A#32)] 0b11010#5 0x80001002#32 [] = true := by
  decide

/-- `sreq R5` of 95_test_vectors.md 3.6. -/
theorem test_sr_cond4 :
    shows 16 0x5F05 (startOf 0x00410002#32 0x80001000#32 [(5#4, 0xFFFFFFFF#32)] []) [(5#4,
    0x00000001#32)] 0b00010#5 0x80001002#32 [] = true := by
  decide

/-- `rets` of 96_test_vectors_continued.md 4.2. -/
theorem test_rets :
    shows 16 0xD613 (startOf 0x01A10000#32 0x80001000#32 [(14#4, 0x80002222#32)] []) [] 0b00000#5 0x80002222#32 [] = true := by
  decide

/-- `pabs.sb R1, R2` of 96_test_vectors_continued.md 3.12. -/
theorem test_pabs_sb :
    shows 32 0xE00223E1 (startOf 0x00410000#32 0x80001000#32 [(2#4, 0xFF7F8001#32)] []) [(1#4,
    0x017F8001#32)] 0b00000#5 0x80001004#32 [] = true
      := by
  decide

/-- `packsh.ub R0, R1, R2` of 96_test_vectors_continued.md 3.12. -/
theorem test_packsh_ub :
    shows 32 0xE20224C0 (startOf 0x00410000#32 0x80001000#32 [(1#4, 0x01FFFFFF#32), (2#4, 0x0080007F#32)] []) [(0#4,
    0xFF00807F#32)] 0b10000#5
      0x80001004#32 [] = true := by
  decide

/-- `paddsub.h R0, R1:t, R2:b` of 96_test_vectors_continued.md 3.12. -/
theorem test_paddsub_h :
    shows 32 0xE2022120 (startOf 0x00410000#32 0x80001000#32 [(1#4, 0x00050000#32), (2#4, 0x00000003#32)] []) [(0#4,
    0x00080002#32)] 0b00000#5
      0x80001004#32 [] = true := by
  decide

/-- `padds.ub R0, R1, R2` of 96_test_vectors_continued.md 3.12. -/
theorem test_padds_ub :
    shows 32 0xE2022340 (startOf 0x00410000#32 0x80001000#32 [(1#4, 0xFF017F80#32), (2#4, 0x01010180#32)] []) [(0#4,
    0xFF0280FF#32)] 0b10000#5
      0x80001004#32 [] = true := by
  decide

/-- `pasr.b R0, R1, 1` of 96_test_vectors_continued.md 3.12. -/
theorem test_pasr_b :
    shows 32 0xE2012410 (startOf 0x00410000#32 0x80001000#32 [(1#4, 0x80407F01#32)] []) [(0#4,
    0xC0203F00#32)] 0b00000#5 0x80001004#32 [] = true
      := by
  decide

/-- `pavg.sh R0, R1, R2` of 96_test_vectors_continued.md 3.12. -/
theorem test_pavg_sh :
    shows 32 0xE20223D0 (startOf 0x00410000#32 0x80001000#32 [(1#4, 0x7FFFFFFF#32), (2#4, 0x7FFFFFFE#32)] []) [(0#4,
    0x7FFFFFFF#32)] 0b00000#5
      0x80001004#32 [] = true := by
  decide

/-- `pmax.ub R0, R1, R2` of 96_test_vectors_continued.md 3.12. -/
theorem test_pmax_ub :
    shows 32 0xE2022380 (startOf 0x00410000#32 0x80001000#32 [(1#4, 0x01FF8000#32), (2#4, 0x02FE7F00#32)] []) [(0#4,
    0x02FF8000#32)] 0b00110#5
      0x80001004#32 [] = true := by
  decide

/-- `psad R0, R1, R2` of 96_test_vectors_continued.md 3.12. -/
theorem test_psad :
    shows 32 0xE2022400 (startOf 0x00410000#32 0x80001000#32 [(1#4, 0xFF001020#32), (2#4, 0x00FF2010#32)] []) [(0#4,
    0x0000021E#32)] 0b00000#5
      0x80001004#32 [] = true := by
  decide

/-- `psubxs.sh R0, R1, R2` of 96_test_vectors_continued.md 3.12. -/
theorem test_psubxs_sh :
    shows 32 0xE2022070 (startOf 0x00410000#32 0x80001000#32 [(1#4, 0x80007FFF#32), (2#4, 0xFFFF0001#32)] []) [(0#4,
    0x80007FFF#32)] 0b10000#5
      0x80001004#32 [] = true := by
  decide

/-- `punpcksb.h R3, R4:t` of 96_test_vectors_continued.md 3.12. -/
theorem test_punpcksb_h :
    shows 32 0xE80024B3 (startOf 0x00410000#32 0x80001000#32 [(4#4, 0x80FF7F01#32)] []) [(3#4,
    0xFF80FFFF#32)] 0b00000#5 0x80001004#32 [] = true
      := by
  decide

/-- `memt 0x100, 31` of 96_test_vectors_continued.md 3.10. -/
theorem test_memt :
    shows 32 0xFA1F8040 (startOf 0x00410000#32 0x80001000#32 [] [(0x00000100#32,
    0x80000000#32)]) [] 0b00000#5 0x80001004#32 [(0x00000100#32,
      0x00000000#32)] = true := by
  decide

/-- `xchg R0, R1, R2` of 96_test_vectors_continued.md 3.10. -/
theorem test_xchg :
    shows 32 0xE2020B40 (startOf 0x00410000#32 0x80001000#32 [(1#4, 0x00003000#32), (2#4, 0x00000055#32)] [(0x00003000#32, 0x81828384#32),
      (0x00003004#32, 0x05060708#32)]) [(0#4, 0x81828384#32)] 0b00000#5 0x80001004#32 [(0x00003000#32, 0x00000055#32)] = true := by
  decide

/-! ## Events and returns, from 96_test_vectors_continued.md 4.1 and 4.2 -/

/-- The machine of section 4, whose handlers lie at EVBA 0x80004000. -/
def eventStart (sr : Word) (regs : List (RegNo × Word)) (mem : List (Word × Word)) : State :=
  let s := startOf sr 0x80001000#32 regs mem
  { s with ctl := { s.ctl with evba := 0x80004000#32 } }

/-- SR, PC, the system stack pointer, ECR and words of memory. -/
def holds (sr pc sp ecr : Word) (mem : List (Word × Word)) (t : State) : Bool :=
  t.sr == sr && t.pc == pc && t.spSys == sp && t.ctl.ecr == ecr && mem.all (fun p => wordOfBytes (readBytes t.mem p.1 4) == p.2)

/-- A misaligned load in Supervisor mode. -/
theorem test_misaligned_load : leads (exec (.ldW (.formIII 0#4 1#4 0#5)) (eventStart 0x00410000#32 [(1#4, 0x3002#32)] []))
    (holds 0x01A10000#32 0x80004034#32 0x1FF8#32 0xD#32 [(0x1FF8#32, 0x00410000#32), (0x1FFC#32, 0x80001000#32)]) = true := by
  decide

/-- The same with EM set, which makes it the Unrecoverable Exception. -/
theorem test_masked_exception : leads (exec (.ldW (.formIII 0#4 1#4 0#5)) (eventStart 0x00610000#32 [(1#4, 0x3002#32)] []))
    (holds 0x01A10000#32 0x80004000#32 0x1FF8#32 0#32 [(0x1FF8#32, 0x00610000#32), (0x1FFC#32, 0x80001000#32)]) = true := by
  decide

/-- A privileged register read in Application mode. -/
theorem test_privilege_violation : leads (exec (.mfsr 0#4 0#8) (eventStart 0x00010000#32 [] []))
    (holds 0x01A10000#32 0x80004028#32 0x1FF8#32 0xA#32 [(0x1FF8#32, 0x00010000#32), (0x1FFC#32, 0x80001000#32)]) = true := by
  decide

/-- No coprocessor is present. -/
theorem test_coprocessor_absent : leads (exec (.mvrcW 2#3 0#4 2#4) (eventStart 0x00010000#32 [] []))
    (holds 0x01A10000#32 0x80004030#32 0x1FF8#32 0xC#32 [(0x1FF8#32, 0x00010000#32), (0x1FFC#32, 0x80001000#32)]) = true := by
  decide

/-- A step whose fetched halfword no row matches. -/
theorem test_illegal_opcode : leads (step ((eventStart 0x00410000#32 [] []).withFetchWord 16 0xD803))
    (holds 0x01A10000#32 0x80004020#32 0x1FF8#32 0x8#32 [(0x1FF8#32, 0x00410000#32), (0x1FFC#32, 0x80001000#32)]) = true := by
  decide

theorem test_scall : leads (exec .scall (eventStart 0x00010000#32 [] []))
    (holds 0x00410000#32 0x80004100#32 0x1FF8#32 0#32 [(0x1FF8#32, 0x00010000#32), (0x1FFC#32, 0x80001002#32)]) = true := by
  decide

theorem test_scall_exception_mode : leads (exec .scall (eventStart 0x01A10000#32 [] []))
    (fun t => holds 0x01A10000#32 0x80004100#32 0x2000#32 0#32 [] t && t.getReg 14#4 == 0x80001002#32) = true := by
  decide

theorem test_rets_supervisor :
    leads (exec .rets (eventStart 0x00410000#32 [(13#4, 0x1FF8#32)] [(0x1FF8#32, 0x00000004#32), (0x1FFC#32, 0x80003000#32)]))
      (holds 0x00000004#32 0x80003000#32 0x2000#32 0#32 []) = true := by
  decide

/-- Two words from mode 110; L is cleared although the popped SR has it set. -/
theorem test_rete_exception :
    leads (exec .rete (eventStart 0x01A10000#32 [(13#4, 0x1FF8#32)] [(0x1FF8#32, 0x00000021#32), (0x1FFC#32, 0x80001234#32)]))
      (holds 0x00000001#32 0x80001234#32 0x2000#32 0#32 []) = true := by
  decide

/-- Eight words from an interrupt mode. -/
theorem test_rete_interrupt :
    leads (exec .rete (eventStart 0x00820000#32 [(13#4, 0x1FE0#32)]
        [(0x1FE0#32, 0x00400002#32), (0x1FE4#32, 0x80001236#32), (0x1FE8#32, 0xAAAA000E#32), (0x1FEC#32, 0xAAAA000C#32),
          (0x1FF0#32, 0xAAAA000B#32), (0x1FF4#32, 0xAAAA000A#32), (0x1FF8#32, 0xAAAA0009#32), (0x1FFC#32, 0xAAAA0008#32)]))
      (fun t => holds 0x00400002#32 0x80001236#32 0x2000#32 0#32 [] t && t.getReg 8#4 == 0xAAAA0008#32 && t.getReg 12#4 == 0xAAAA000C#32 &&
        t.getReg 14#4 == 0xAAAA000E#32) = true := by
  decide

/-- The machine with `p` presented at the next boundary. -/
def presenting (p : Sample) (s : State) : State := { s with env := [p] }

/-- INT0 with the autovector 0x140. -/
theorem test_interrupt :
    leads (step (presenting { Sample.quiet with int0 := some 0x140#32 } (eventStart 0x00400004#32 [(8#4, 0x88#32), (12#4, 0xCC#32),
        (14#4, 0x80000EEE#32)] [])))
      (holds 0x00820004#32 0x80004140#32 0x1FE0#32 0x50#32 [(0x1FE0#32, 0x00400004#32), (0x1FE4#32, 0x80001000#32), (0x1FE8#32,
      0x80000EEE#32),
        (0x1FEC#32, 0xCC#32), (0x1FFC#32, 0x88#32)]) = true := by
  decide

/-- GM masks INT1: the instruction at the PC runs. -/
theorem test_interrupt_masked :
    leads (step (presenting { Sample.quiet with int1 := some 0x140#32 } ((eventStart 0x00410000#32 [] []).withFetchWord 16 0xD703)))
      (holds 0x00410000#32 0x80001002#32 0x2000#32 0#32 []) = true := by
  decide

/-- Neither GM nor EM masks NMI. -/
theorem test_nmi : leads (step (presenting { Sample.quiet with nmi := true } (eventStart 0x00610000#32 [] [])))
    (holds 0x01E10000#32 0x80004010#32 0x1FF8#32 4#32 [(0x1FF8#32, 0x00610000#32), (0x1FFC#32, 0x80001000#32)]) = true := by
  decide

/-- The first step after reset runs the instruction placed at the reset address, 0x80000000 (10_state.md R160). -/
theorem test_first_step : leads (step (State.reset.withFetchWord 16 0xD703)) (fun t => t.pc == 0x80000002#32 && t.timer.count == 1#32) = true := by
  decide

/-- What another master writes to memory before a step is there in it (20_memory.md R219). -/
theorem test_bus_write :
    leads (step (presenting { Sample.quiet with busWrites := [(0x100#32, 0xAB#8)] } (State.reset.withFetchWord 16 0xD703)))
      (fun t => t.byteAt 0x100#32 == 0xAB#8) = true := by
  decide

/-- At revision 0 a nop raises Unimplemented Instruction, which EM masks after reset (00_scope.md R12, 30_encoding.md R411, R415). -/
theorem test_revision_zero :
    leads (step ((State.resetOf { Params.reference with archRev := 0#2 }).withFetchWord 16 0xD703))
      (fun t => t.taken == some .unrecoverable && t.pc == 0#32) = true := by
  decide

/-! ## Witnesses: states and operands that meet the hypotheses of each statement -/

/-- Every optional unit, and a value for every list. -/
def wide (archB secure : Bool) (mmut : Mmut) : Params :=
  { Params.reference with
    archB := archB, secure := secure, mmut := mmut, hasFpu := true, hasJava := true, hasPerf := true, hasOcd := true, ocdEnabled := true,
    sysRegs := referenceSysRegs ++ [12#8, 20#8, 79#8, 96#8, 97#8, 98#8, 99#8, 192#8], cops := 0xFF#8, debugRegs := [8#8], jospHazard := 2,
    sleepNop := [1#8], sleepStopsClock := [2#8] }

/-- The machine `wide` with RAM everywhere: R1 to R3 hold addresses, R4 is below 0, R12 is 1. -/
def machine (archB secure : Bool) (mmut : Mmut) (sr : Word) : State :=
  { State.resetOf (wide archB secure mmut) with sr := sr, pc := 0x80001000#32, spApp := 0x2000#32, spSys := 0x3000#32, spSec := 0x4000#32
  }.setRegs [(1#4, 0x100#32), (2#4, 0xFFFFFFF8#32), (3#4, 0x10#32), (4#4, 0xFFFFFFFF#32), (9#4, 0x5000#32), (12#4, 1#32), (14#4,
    0x80000124#32)]

/-- AVR32A in Supervisor mode. -/
abbrev ram : State := machine false false .none 0x00410000#32

/-- AVR32B in Supervisor mode. -/
abbrev ramB : State := machine true false .none 0x00410000#32

/-- In Application mode. -/
abbrev user : State := machine false false .none 0x00000000#32

/-- In Exception mode. -/
abbrev handler : State := machine false false .none 0x01A10000#32

/-- With secure state, in it. -/
abbrev inSecure : State := machine false true .none 0x80410000#32

theorem backed_everywhere (cfg : Params) (h : cfg.backed = [(0x00000000#32, 0xFFFFFFFF#32)]) (a : Word) : backedAt cfg a = true := by
  simp only [backedAt, h, List.any_cons, List.any_nil, Bool.or_false, Bool.and_eq_true, BitVec.ule, decide_eq_true_eq]
  exact ⟨Nat.zero_le _, by have := a.isLt; simp; omega⟩

theorem backed_of {s : State} (h : s.cfg.backed = [(0x00000000#32, 0xFFFFFFFF#32)]) (va : Word) (n : Nat) : Backed s va n :=
  fun _ _ => backed_everywhere _ h _

theorem bus_silent {s : State} (h : s.cfg.backed = [(0x00000000#32,
  0xFFFFFFFF#32)]) (hs : hasSecure s.cfg = false) (k : Access) (hk : k ≠ .fetch)
    (ps : List (Word × Nat)) : s.busErrorIn k ps = none := by
  have answers : ∀ a, s.busAnswers k a = true := fun a => by
    cases k with
    | fetch => exact absurd rfl hk
    | read => simp [State.busAnswers, backed_everywhere _ h, State.secureAt, hs]
    | write => simp [State.busAnswers, backed_everywhere _ h, State.secureAt, hs]
  exact busErrorIn_eq_none.mpr fun _ _ _ _ => answers _

/-- Every aligned load reads, on a machine with RAM everywhere. -/
theorem reads_of {s : State} (hu : s.now.busBetween = []) (hm : s.cfg.mmut = .none)
    (h : s.cfg.backed = [(0x00000000#32, 0xFFFFFFFF#32)]) (hs : hasSecure s.cfg = false) (kind : LsKind) {n : Nat} {va : Word} (ha : aligned n va = true) : ∃ bs, Reads s kind n va bs s :=
  ⟨_, _, checkAccess_direct hm .read s.privileged kind ha, bus_silent h hs .read (by decide) _, rfl, .inr hu⟩

/-- Every aligned store reaches memory there. -/
theorem reaches_of {s : State} (hu : s.now.busBetween = []) (hm : s.cfg.mmut = .none)
    (h : s.cfg.backed = [(0x00000000#32, 0xFFFFFFFF#32)]) (hs : hasSecure s.cfg = false) (kind : LsKind) {n : Nat} {va : Word} (ha : aligned n va = true) : ∃ ps, Reaches s kind n va ps s :=
  ⟨_, checkAccess_direct hm .write s.privileged kind ha, bus_silent h hs .write (by decide) _, .inr hu⟩

/-- So do sequences of word loads. -/
theorem readsAll_of {s : State} (hu : s.now.busBetween = []) (hm : s.cfg.mmut = .none)
    (h : s.cfg.backed = [(0x00000000#32, 0xFFFFFFFF#32)]) (hs : hasSecure s.cfg = false) (kind : LsKind) (vas : List Word) (ha : vas.all (aligned 4) = true) : ∃ vs, ReadsAll kind vas s vs s := by
  induction vas with
  | nil => exact ⟨_, rfl, rfl⟩
  | cons va vas ih =>
    simp only [List.all_cons, Bool.and_eq_true] at ha
    obtain ⟨vs, hv⟩ := ih ha.2
    obtain ⟨bs, hb⟩ := reads_of hu hm h hs kind ha.1
    exact ⟨_, bs, vs, s, hb, .inr hu, rfl, hv⟩

/-- And sequences of word stores. -/
theorem reachesAll_of (kind : LsKind) (ws : List (Word × Word)) (ha : (ws.map Prod.fst).all (aligned 4) = true) :
    ∀ {s : State}, s.now.busBetween = [] → s.cfg.mmut = .none → s.cfg.backed = [(0x00000000#32, 0xFFFFFFFF#32)] → hasSecure s.cfg = false →
      ∃ ps s1, ReachesAll kind ws s ps s1 := by
  induction ws with
  | nil => exact fun _ _ _ _ => ⟨_, _, rfl, rfl⟩
  | cons p ws ih =>
    simp only [List.map_cons, List.all_cons, Bool.and_eq_true] at ha
    intro s hu hm h hs
    obtain ⟨qs, hq⟩ := reaches_of hu hm h hs kind ha.1
    obtain ⟨ps, s1, hp⟩ := ih ha.2 (s := { s with mem := writeTransfers s.mem qs (bytesOfWord p.2 4) }) hu hm h hs
    exact ⟨_, s1, qs, ps, s, hq, .inr hu, rfl, hp⟩

/-- The read and the write of a word. -/
theorem swaps_of {s : State} (hm : s.cfg.mmut = .none) (h : s.cfg.backed = [(0x00000000#32, 0xFFFFFFFF#32)]) (hs : hasSecure s.cfg = false)
    (kind : LsKind) {va : Word} (ha : aligned 4 va = true) : ∃ w ws, Swaps s kind va w ws s :=
  ⟨_, _, _, s, checkAccess_direct hm .read s.privileged kind ha, checkAccess_direct hm .write s.privileged kind ha,
    bus_silent h hs .read (by decide) _, bus_silent h hs .write (by decide) _, rfl⟩

/-- Loads of kinds, sizes and addresses. -/
theorem ram_reads (l : List (LsKind × Nat × Word)) (ha : l.all (fun p => aligned p.2.1 p.2.2) = true) :
    ∀ p ∈ l, ∃ bs, Reads ram p.1 p.2.1 p.2.2 bs ram :=
  fun p hp => reads_of rfl rfl rfl rfl p.1 (List.all_eq_true.mp ha p hp)

/-- Stores of kinds, sizes and addresses. -/
theorem ram_reaches (l : List (LsKind × Nat × Word)) (ha : l.all (fun p => aligned p.2.1 p.2.2) = true) :
    ∀ p ∈ l, ∃ ps, Reaches ram p.1 p.2.1 p.2.2 ps ram :=
  fun p hp => reaches_of rfl rfl rfl rfl p.1 (List.all_eq_true.mp ha p hp)

/-- A valid entry of 1 Kbyte for page 0 with these permissions and this dirty bit. -/
def entry (ap : BitVec 3) (d : Bool) : TlbEntry := { TlbEntry.invalid with v := true, ap := ap, d := d, a := true }

/-- A machine with two TLBs, MMUCR and the data entries `es`. -/
def paging (mmucr : Word) (es : List TlbEntry) : State :=
  let s := machine false false .split 0x00410000#32
  { s with
    cfg := { s.cfg with dmmuSz := 1#6 }
    mmu := { s.mmu with mmucr := mmucr, dtlb := (s.mmu.dtlb.set 0 (es.getD 0 TlbEntry.invalid)).set 1 (es.getD 1 TlbEntry.invalid) } }

/-- A step that nothing interrupts: the boundary of `s` is quiet. -/
def quietBoundary (s : State) : Bool :=
  !s.now.reset && !s.ocdStopped && !(s.cfg.hasOcd && s.now.ocdStop) && s.pendingEvent == none && !s.breakAccepted && s.sleeping == none &&
    !s.srBit bitJ

/-- With a halfword, with a word, and with the remap bit set and an instruction that ignores it. -/
theorem witness_StepRunsDecodedInstruction :
    (let s := (ram.withFetchWord 16 0xD703).sample
     quietBoundary s = true ∧ fetchCode s = .ok (.half 0xD703#16) s ∧ decodeCode (.half 0xD703#16) = some .nop ∧ s.srBit bitR = false) ∧
    (let s := (ram.withFetchWord 32 0xE2030041).sample
     quietBoundary s = true ∧ fetchCode s = .ok (.word 0xE2030041#32) s ∧ decodeCode (.word 0xE2030041#32) = some (.adc 1#4 1#4 3#4) ∧
       s.srBit bitR = false) ∧
    (let s := ((machine false false .none 0x00418000#32).withFetchWord 16 0xD201).sample
     quietBoundary s = true ∧ fetchCode s = .ok (.half 0xD201#16) s ∧ decodeCode (.half 0xD201#16) = some (.pushm 0x20#8) ∧
       s.srBit bitR = true ∧ ignoresRemap (.pushm 0x20#8) = true) := by
  refine ⟨⟨?_, rfl, ?_, ?_⟩, ⟨?_, rfl, ?_, ?_⟩, ⟨?_, rfl, ?_, ?_, ?_⟩⟩ <;> decide

/-- Revision 3, and revision 0, where no instruction exists. -/
theorem witness_revisions : hasRev ram.cfg 1 = true ∧ hasRev { ram.cfg with archRev := 0#2 } 1 = false := by decide

theorem witness_StepRunsBytesAtPc :
    let s := ram.withFetchWord 32 0xE2030041
    WellFormed (.adc 1#4 1#4 3#4) = true ∧ Direct s ∧ s.pc.getLsbD 0 = false ∧ Backed s s.pc (instrLength (.adc 1#4 1#4 3#4)) ∧
    readBytes s.mem s.pc (instrLength (.adc 1#4 1#4 3#4)) = encode (.adc 1#4 1#4 3#4) ∧ s.env.headD Sample.quiet = Sample.quiet ∧
    s.busErr = [] ∧ s.sleeping = none ∧ s.ocdStopped = false ∧ s.srBit bitJ = false ∧ s.srBit bitR = false := by
  refine ⟨?_, ⟨rfl, rfl⟩, ?_, backed_of rfl _ _, ?_, ?_, ?_, ?_, ?_, ?_, ?_⟩ <;> decide

/-- A pair at each end of the registers, and a word with every operand bit set. -/
theorem witness_DecodeOfEncode :
    WellFormed (.ldD (.formIV 0#4 15#4 0xFFFF#16)) = true ∧ WellFormed (.ldD (.formIV 14#4 0#4 0#16)) = true ∧
    WellFormed (.mvcrD 7#3 14#4 14#4) = true := by
  decide

theorem witness_EncodeOfDecode :
    decodeCode (.half 0xD803#16) = none ∧ decodeCode (.half 0x0000#16) = some (.add (.formI 0#4 0#4)) ∧
    decodeCode (.word 0xE2040232#32) = some (.ldD (.formV 2#4 1#4 4#4 3#2)) := by
  decide

/-! ### Reset, the invariant and the whole machine -/

theorem witness_ResetLeavesResetState : ((presenting { Sample.quiet with reset := true } ram).env.headD Sample.quiet).reset = true := by decide

theorem witness_ResetMeetsInvariant :
    ∃ cfg : Params, cfg.resetSS = true ∧ hasSecure cfg = true ∧ (cfg.resetSS = true → hasSecure cfg = true) :=
  ⟨{ wide true true .split with resetSS := true }, rfl, rfl, fun _ => rfl⟩

theorem witness_StepKeepsInvariant : (State.reset.withFetchWord 16 0xD703).Inv ∧ ∃ t,
  step (State.reset.withFetchWord 16 0xD703) = .next t := by
  refine ⟨⟨?_, ?_, ?_, ?_, ?_, ?_, ?_, ?_, ?_, ?_, nofun, nofun, ?_⟩, _, rfl⟩ <;> decide

theorem witness_SecureBitOnlyBySecureCalls :
    (∃ t, exec .nop inSecure = .next t) ∧ (∃ t, takeEvent .nmi inSecure.pc inSecure = .next t) :=
  ⟨⟨_, rfl⟩, ⟨_, rfl⟩⟩

/-- csrf of bit 14 where it is set, and an event. -/
theorem witness_ScratchBitOnlyExplicit :
    (∃ t, exec (.csrf 14#5) (machine true false .none 0x00414000#32) = .next t ∧
      t.srBit bitT ≠ (machine true false .none 0x00414000#32).srBit bitT) ∧
    (∃ t, takeEvent .illegalOpcode 0#32 ramB = .next t) :=
  ⟨⟨_, rfl, by decide⟩, ⟨_, rfl⟩⟩

theorem witness_ApplicationKeepsSystemState :
    user.inApplication = true ∧ user.taken = none ∧ leavesApplication (.csrf 0#5) = false ∧
    ∃ t, exec (.csrf 0#5) user = .next t ∧ t.taken = none := by
  exact ⟨by decide, rfl, rfl, _, rfl, rfl⟩

theorem witness_PrivilegedInstructionsTrap :
    (user.inApplication = true ∧ needsPrivilege (.csrf 16#5) = true ∧ unitPresent (.csrf 16#5) user.cfg = true) ∧
    (needsPrivilege (.csrf 31#5) = true ∧ needsPrivilege (.mtsr 0#4 20#8) = true ∧ needsPrivilege (.mfsr 0#4 23#8) = true) ∧
    user.mode = 0#3 ∧ ram.mode = 1#3 ∧
    (unitPresent .retss (machine false true .none 0x00410000#32).cfg = true ∧
    (machine false true .none 0x00410000#32).srBit bitSS = false) := by
  decide

theorem witness_MissingUnitsTrap :
    unitPresent .tlbw ram.cfg = false ∧ unitPresent .sscall ram.cfg = false ∧
    (coprocessorOf (.ldc0W 0#4 0#4 0#12) = some 0#3 ∧ (State.reset.now.fpSignal && State.reset.cfg.hasFpu) = false ∧
      State.reset.cfg.cops.getLsbD 0 = false) ∧
    (let s := { ram with now := { Sample.quiet with fpSignal := true } }
     coprocessorOf (.cop 7#3 0#7 0#4 0#4 0#4) = some 7#3 ∧ (s.now.fpSignal && s.cfg.hasFpu) = true) := by
  decide

/-- Codes that decode to nothing, a fetch at an odd address, one without translation, one without memory, and an extended instruction whose
second halfword has neither. -/
theorem witness_MissingUnitsTrap_fetch :
    (∃ s1, quietBoundary (ram.withFetchWord 16 0xD803).sample = true ∧
      fetchCode (ram.withFetchWord 16 0xD803).sample = .ok (.half 0xD803#16) s1 ∧ decodeCode (.half 0xD803#16) = none) ∧
    ((0x80001001#32 : Word).toNat % 2 = 1) ∧
    ((0x400#32 : Word).toNat % 2 = 0 ∧
      translate .fetch ram.privileged 0x400#32 (paging 0x11#32 []) = .raise (.itlbMiss 0x400#32) (paging 0x11#32 [])) ∧
    (let s := { ram with cfg := { ram.cfg with backed := [(0x80001000#32, 0x80001001#32)] } }
     translate .fetch s.privileged 0x80001002#32 s = .ok ⟨0x80001002#32, s.cfg.directAttrs⟩ s ∧ s.busAnswers .fetch 0x80001002#32 = false) ∧
    (let s := (({ ram with cfg := { ram.cfg with backed := [(0x80001000#32, 0x80001001#32)] } } : State).withFetchWord 32 0xE2030041)
     quietBoundary s.sample = true ∧ fetchHalf s.pc s.sample = .ok 0xE203#16 s.sample ∧ isExtended 0xE203#16 = true ∧
       fetchHalf (s.pc + 2#32) s.sample = .raise .busErrorFetch s.sample) :=
  ⟨⟨_, by decide, rfl, by decide⟩, by decide, ⟨by decide, rfl⟩, ⟨rfl, by decide⟩, by decide, rfl, by decide, rfl⟩

/-- A machine of the second class; incjosp below 0, from an empty Java stack, and above 8. -/
theorem witness_StopsAreRare :
    ramB.cfg.archB = true ∧ exec (.incjosp 7#3) ram = .refused (.javaTrap 4) ∧
    exec (.incjosp 0#3) { ram with java := { ram.java with josp := 8#32 } } = .refused (.javaTrap 3) :=
  ⟨rfl, rfl, rfl⟩

/-! ### Register instructions -/

theorem witness_ArithmeticAndMoveFrame :
    (arithmeticFrame (.divs 14#4 1#4 2#4) = some ([14#4, 15#4], []) ∧ unitPresent (.divs 14#4 1#4 2#4) ram.cfg = true) ∧
    (moveFrame (.srCond 15#4 0#4) = some ([0#4], []) ∧ unitPresent (.srCond 15#4 0#4) ram.cfg = true) := by
  decide

theorem witness_LogicBitShiftFrame :
    logicFrame (.orCond 0#4 1#4 2#4 3#4) = some ([1#4], []) ∧ unitPresent (.orCond 0#4 1#4 2#4 3#4) ram.cfg = true := by
  decide

theorem witness_DspAndPackedFrame :
    (dspFrame (.sats 3#4 0#5 31#5) = some ([3#4], [4]) ∧ unitPresent (.sats 3#4 0#5 31#5) ram.cfg = true) ∧
    (packedFrame (.psad 0#4 1#4 2#4) = some ([0#4], []) ∧ unitPresent (.psad 0#4 1#4 2#4) ram.cfg = true) := by
  decide

theorem witness_SubtractionExact : (12#4 : RegNo) ≠ 13#4 ∧ (14#4 : RegNo) ≠ 13#4 ∧ ram.cond 1#4 = true := by decide

/-- A condition that holds, one that fails, and revision 2; for the conditional forms of all families (AbsoluteAndConditional, LogicBitwise,
Moves, CallsAndReturns, SingleLoads, SingleStores). -/
theorem witness_conditions : hasRev ram.cfg 2 = true ∧ ram.cond 1#4 = true ∧ ram.cond 0#4 = false := by decide

theorem witness_MultiplicationExact : evenNo 0#4 = true ∧ evenNo 14#4 = true := by decide

/-- The divisor -1 with the dividend just above the one that overflows, and the most negative dividend with another divisor. -/
theorem witness_DivisionExact :
    (let s := startOf 0#32 0#32 [(1#4, 0x80000001#32), (2#4, 0xFFFFFFFF#32), (3#4, 0x80000000#32), (4#4, 1#32)] []
     (s.getReg 2#4 ≠ 0#32 ∧ ¬ (s.getReg 1#4 = 0x80000000#32 ∧ s.getReg 2#4 = 0xFFFFFFFF#32)) ∧
     (s.getReg 4#4 ≠ 0#32 ∧ ¬ (s.getReg 3#4 = 0x80000000#32 ∧ s.getReg 4#4 = 0xFFFFFFFF#32)) ∧ evenNo 14#4 = true) := by
  decide

theorem witness_DspProducts : ram.cfg.hasDsp = true ∧ evenNo 14#4 = true := by decide

theorem witness_DspSaturation : ram.cfg.hasDsp = true := by decide

/-- The widest field, the highest and the lowest one. -/
theorem witness_FieldsAndBits :
    (0 < (31#5).toNat ∧ (1#5).toNat + (31#5).toNat ≤ 32) ∧ (0 < (1#5).toNat ∧ (31#5).toNat + (1#5).toNat ≤ 32) ∧
    (0 < (31#5).toNat ∧ (0#5).toNat + (31#5).toNat ≤ 32) := by
  decide

theorem witness_Branches : ram.pc.getLsbD 0 = false := by decide

theorem witness_CallsAndReturns :
    ∀ p ∈ [(LsKind.acall, 4, ram.ctl.acba + (zext (255#8 : BitVec 8) <<< 2)), (LsKind.acall, 4,
    ram.ctl.acba + (zext (0#8 : BitVec 8) <<< 2)),
      (LsKind.mcall, 4, ram.wordBase 15#4 + (sext (0x8000#16 : BitVec 16) <<< 2)), (LsKind.mcall, 4,
      ram.wordBase 1#4 + (sext (0x7FFF#16 : BitVec 16) <<< 2))],
      ∃ bs, Reads ram p.1 p.2.1 p.2.2 bs ram :=
  ram_reads _ (by decide)

/-! ### Loads and stores -/

/-- Each form at an end of the range of its displacement, or with an index. R4 is -1, R2 is -8. -/
theorem witness_SingleLoads :
    ∀ p ∈ [(LsKind.byte, 1, ram.dispZ 4#4 (7#3 : BitVec 3) 0), (.byte, 1, ram.dispS 1#4 (0x8000#16 : BitVec 16) 0), (.byte, 1,
    ram.indexed 1#4 4#4 3#2),
      (.ldUh, 2, ram.dispZ 2#4 (7#3 : BitVec 3) 1), (.ldUh, 2, ram.dispS 2#4 (0x7FFE#16 : BitVec 16) 0), (.ldUh, 2,
      ram.indexed 1#4 4#4 1#2),
      (.ldSh, 2, ram.dispZ 1#4 (0#3 : BitVec 3) 1), (.ldSh, 2, ram.dispS 1#4 (0x8000#16 : BitVec 16) 0), (.ldSh, 2,
      ram.indexed 2#4 1#4 3#2),
      (.ldW, 4, ram.dispZ 1#4 (31#5 : BitVec 5) 2), (.ldW, 4, ram.dispS 2#4 (0x8000#16 : BitVec 16) 0), (.ldW, 4, ram.indexed 1#4 4#4 2#2),
      (.ldW, 4, ram.getReg 1#4 + (((ram.getReg 4#4).extractLsb' (8 * ((1#1 : BitVec 1) ++ (1#1 : BitVec 1)).toNat) 8).setWidth 32 <<< 2)),
      (.ldinsH, 2, ram.dispS 1#4 (0x800#12 : BitVec 12) 1), (.ldswpSh, 2, ram.dispS 1#4 (0x7FF#12 : BitVec 12) 1),
      (.ldswpUh, 2, ram.dispS 2#4 (0xFFF#12 : BitVec 12) 1), (.ldswpW, 4, ram.dispS 1#4 (0x800#12 : BitVec 12) 2),
      (.lddpc, 4, (ram.pc &&& 0xFFFFFFFC#32) + ((127#7 : BitVec 7).setWidth 32 <<< 2)),
      (.lddsp, 4, (ram.getReg 13#4 &&& 0xFFFFFFFC#32) + ((127#7 : BitVec 7).setWidth 32 <<< 2)),
      (.byte, 1, ram.dispZ 1#4 (0x1FF#9 : BitVec 9) 0), (.ldUh, 2, ram.dispZ 1#4 (0x1FF#9 : BitVec 9) 1), (.ldSh, 2,
      ram.dispZ 1#4 (0x1FF#9 : BitVec 9) 1),
      (.ldW, 4, ram.dispZ 1#4 (0x1FF#9 : BitVec 9) 2)], ∃ bs, Reads ram p.1 p.2.1 p.2.2 bs ram :=
  ram_reads _ (by decide)

/-- Pointers at each end of memory; the hypotheses on the registers with the pair that ends in R15. -/
theorem witness_PointerAndDoubleLoads :
    (∀ p ∈ [(LsKind.byte, 1, ram.getReg 4#4), (.byte, 1, ram.getReg 0#4 - 1#32), (.ldUh, 2, ram.getReg 2#4), (.ldUh, 2,
    ram.getReg 0#4 - 2#32),
      (.ldSh, 2, ram.getReg 1#4), (.ldSh, 2, ram.getReg 0#4 - 2#32), (.ldW, 4, ram.getReg 2#4), (.ldW, 4, ram.getReg 0#4 - 4#32),
      (.ldD, 8, ram.getReg 2#4), (.ldD, 8, ram.getReg 0#4 - 8#32), (.ldD, 8, ram.dispS 1#4 (0x7FFC#16 : BitVec 16) 0), (.ldD, 8,
      ram.indexed 1#4 4#4 3#2)],
      ∃ bs, Reads ram p.1 p.2.1 p.2.2 bs ram) ∧
    (evenNo 14#4 = true ∧ (14#4 : RegNo) ≠ 0#4 ∧ (14#4 : RegNo) + 1#4 ≠ 0#4 ∧ (14#4 : RegNo).toNat ≠ (0#4 : RegNo).toNat + 1) ∧
    (evenNo 0#4 = true ∧ (0#4 : RegNo) ≠ 2#4 ∧ (0#4 : RegNo) + 1#4 ≠ 2#4 ∧ (0#4 : RegNo).toNat ≠ (2#4 : RegNo).toNat + 1) :=
  ⟨ram_reads _ (by decide), by decide⟩

/-- stcond with L set, at an end of its displacement, and with L clear. -/
theorem witness_SingleStores :
    (∀ p ∈ [(LsKind.byte, 1, ram.dispZ 4#4 (7#3 : BitVec 3) 0), (.byte, 1, ram.dispS 1#4 (0x8000#16 : BitVec 16) 0), (.byte, 1,
    ram.indexed 1#4 4#4 3#2),
      (.stH, 2, ram.dispZ 2#4 (7#3 : BitVec 3) 1), (.stH, 2, ram.dispS 2#4 (0x7FFE#16 : BitVec 16) 0), (.stH, 2, ram.indexed 1#4 4#4 1#2),
      (.stW, 4, ram.dispZ 1#4 (15#4 : BitVec 4) 2), (.stW, 4, ram.dispS 2#4 (0x8000#16 : BitVec 16) 0), (.stW, 4, ram.indexed 1#4 4#4 2#2),
      (.stdsp, 4, (ram.getReg 13#4 &&& 0xFFFFFFFC#32) + ((127#7 : BitVec 7).setWidth 32 <<< 2)), (.sthhW, 4,
      ram.dispZ 1#4 (0xFF#8 : BitVec 8) 2),
      (.sthhW, 4, ram.indexed 1#4 4#4 3#2), (.stswpH, 2, ram.dispS 1#4 (0x800#12 : BitVec 12) 1), (.stswpW, 4,
      ram.dispS 1#4 (0x7FF#12 : BitVec 12) 2),
      (.byte, 1, ram.dispZ 1#4 (0x1FF#9 : BitVec 9) 0), (.stH, 2, ram.dispZ 1#4 (0x1FF#9 : BitVec 9) 1), (.stW, 4,
      ram.dispZ 1#4 (0x1FF#9 : BitVec 9) 2)],
      ∃ ps, Reaches ram p.1 p.2.1 p.2.2 ps ram) ∧
    (let s := machine false false .none 0x00410020#32
     s.flagL = true ∧ ∃ ps, Reaches s .stcond 4 (s.dispS 1#4 (0x7FFC#16 : BitVec 16) 0) ps s) ∧
    ram.flagL = false :=
  ⟨ram_reaches _ (by decide), ⟨by decide, reaches_of rfl rfl rfl rfl .stcond (by decide)⟩, by decide⟩

/-- Pointers at each end of memory, equal and different registers, even and odd ones. -/
theorem witness_PointerAndDoubleStores :
    (∀ p ∈ [(LsKind.byte, 1, ram.getReg 4#4), (.byte, 1, ram.getReg 0#4 - 1#32), (.stH, 2, ram.getReg 2#4), (.stH, 2,
    ram.getReg 0#4 - 2#32),
      (.stW, 4, ram.getReg 2#4), (.stW, 4, ram.getReg 0#4 - 4#32), (.stD, 8, ram.getReg 2#4), (.stD, 8, ram.getReg 0#4 - 8#32),
      (.stD, 8, ram.dispS 1#4 (0x8000#16 : BitVec 16) 0), (.stD, 8, ram.indexed 1#4 4#4 2#2)], ∃ ps, Reaches ram p.1 p.2.1 p.2.2 ps ram) ∧
    (∀ p ∈ [(LsKind.byte, 1, ram.getReg 4#4), (.byte, 1, ram.getReg 0#4 - 1#32), (.stH, 2, ram.getReg 2#4), (.stH, 2,
    ram.getReg 0#4 - 2#32),
      (.stW, 4, ram.getReg 2#4), (.stW, 4, ram.getReg 0#4 - 4#32), (.stD, 8, ram.indexed 1#4 4#4 2#2)],
      ∃ ps, Reaches (ram.drawFree 2) p.1 p.2.1 p.2.2 ps (ram.drawFree 2)) ∧
    (∀ p ∈ [(LsKind.stD, 8, ram.getReg 2#4), (.stD, 8, ram.getReg 0#4 - 8#32)],
      ∃ ps, Reaches (ram.drawFree 3) p.1 p.2.1 p.2.2 ps (ram.drawFree 3)) ∧
    ((1#4 : RegNo) ≠ 0#4 ∧ evenNo 14#4 = true ∧ (0#4 : RegNo) ≠ 14#4 ∧ (0#4 : RegNo) ≠ (14#4 : RegNo) + 1#4 ∧ (15#4 : RegNo) = 14#4 + 1#4 ∧
      evenNo 15#4 = false) :=
  ⟨ram_reaches _ (by decide),
    fun p hp => reaches_of rfl rfl rfl rfl p.1 (List.all_eq_true (p := fun p => aligned p.2.1 p.2.2).mp (by decide) p hp),
    fun p hp => reaches_of rfl rfl rfl rfl p.1 (List.all_eq_true (p := fun p => aligned p.2.1 p.2.2).mp (by decide) p hp), by decide⟩

/-- The highest and the lowest word the immediate reaches, and an exchange at the top of memory. -/
theorem witness_ReadModifyWrite :
    ram.cfg.hasRmw = true ∧ (∃ w ws, Swaps ram .memc (rmwAddress 0x3FFF#15) w ws ram) ∧ (∃ w ws,
    Swaps ram .mems (rmwAddress 0x4000#15) w ws ram) ∧
    (∃ w ws, Swaps ram .memt (rmwAddress 0x7FFF#15) w ws ram) ∧
    ((0#4 : RegNo) ≠ 15#4 ∧ (2#4 : RegNo) ≠ 15#4 ∧ (3#4 : RegNo) ≠ 15#4 ∧ (0#4 : RegNo) ≠ 2#4 ∧ (0#4 : RegNo) ≠ 3#4 ∧
      ∃ w ws, Swaps ram .xchg (ram.getReg 2#4) w ws ram) ∧
    (xchgUndefined 2#4 2#4 0#4 = true ∧ ∃ w ws, Swaps (ram.drawFree 2) .xchg (ram.getReg 2#4) w ws (ram.drawFree 2)) :=
  ⟨rfl, swaps_of rfl rfl rfl _ (by decide), swaps_of rfl rfl rfl _ (by decide), swaps_of rfl rfl rfl _ (by decide),
    ⟨by decide, by decide, by decide, by decide, by decide, swaps_of rfl rfl rfl _ (by decide)⟩, by decide,
    swaps_of rfl rfl rfl _ (by decide)⟩

/-- popm with the R12 option and without, ldm with R15 in the list, with the pointer in it, and through R15,
  ldmts with and without R15; full
and one-register lists. -/
theorem witness_MultipleLoads :
    ((0x80#8 : BitVec 8) ≠ 0#8 ∧ (0x80#8 : BitVec 8).getLsbD 7 = true ∧
      ∃ vs, ReadsAll .popm (wordsFrom (ram.getReg 13#4) (listAscending (reglist8 0x80#8 &&& 0xAFFF#16)).length) ram vs ram) ∧
    (∃ vs, ReadsAll .popm (wordsFrom (ram.getReg 13#4) (listAscending (reglist8 0xFF#8)).length) ram vs ram) ∧
    ((0xFFFF#16 : BitVec 16) ≠ 0#16 ∧ ¬ ((2#4 : RegNo) = 15#4 ∧ (0xFFFF#16 : BitVec 16).getLsbD 15 = true) ∧
      ∃ vs, ReadsAll .ldm (wordsFrom (ram.getReg 2#4) (listAscending 0xFFFF#16).length) ram vs ram) ∧
    (¬ ((15#4 : RegNo) = 15#4 ∧ (0x0001#16 : BitVec 16).getLsbD 15 = true) ∧
      ∃ vs, ReadsAll .ldm (wordsFrom (ram.getReg 15#4) (listAscending 0x0001#16).length) ram vs ram) ∧
    ((0x8000#16 : BitVec 16).getLsbD 15 = true ∧
      ∃ vs, ReadsAll .ldm (wordsFrom (ram.getReg 13#4) (listAscending (0x8000#16 &&& 0x8FFF#16)).length) ram vs ram) ∧
    ((0x7FFF#16 : BitVec 16) ≠ 0#16 ∧ (0x7FFF#16 : BitVec 16).getLsbD 15 = false ∧
      ∃ vs, ReadsAll .ldmts (wordsFrom (ram.getReg 2#4) (listAscending 0x7FFF#16).length) ram vs ram) ∧
    (∃ vs, ReadsAll .ldmts (wordsFrom (ram.getReg 2#4) (listAscending 0x8000#16).length) ram vs ram) := by
  refine ⟨⟨by decide, by decide, ?_⟩, ?_, ⟨by decide, by decide, ?_⟩, ⟨by decide, ?_⟩, ⟨by decide, ?_⟩, ⟨by decide, by decide, ?_⟩, ?_⟩ <;>
    exact readsAll_of rfl rfl rfl rfl _ _ (by decide)

/-- Full and one-register lists, with and without write-back, with the pointer in the list, and with R15 in that of stmts. -/
theorem witness_MultipleStores :
    (∃ ps s1, ReachesAll .pushm (listStores (ram.getReg 13#4) 1#1 (reglist8 0xFF#8) ram.getReg) ram ps s1) ∧
    (∃ ps s1, ReachesAll .stm (listStores (ram.getReg 2#4) 0#1 0xFFFF#16 ram.getReg) ram ps s1) ∧
    ((0x8000#16 : BitVec 16) ≠ 0#16 ∧ (0x8000#16 : BitVec 16).getLsbD (0#4 : RegNo).toNat = false ∧
      ∃ ps s1, ReachesAll .stm (listStores (ram.getReg 0#4) 1#1 0x8000#16 ram.getReg) ram ps s1) ∧
    ((0x0001#16 : BitVec 16).getLsbD (0#4 : RegNo).toNat = true ∧
      ∃ ps s1, ReachesAll .stm (listStores (ram.getReg 0#4) 1#1 0x0001#16 fun i => if i = 0#4 then ram.free else ram.getReg i)
        (ram.drawFree 2) ps s1) ∧
    ((0x7FFF#16 : BitVec 16) ≠ 0#16 ∧ (0x7FFF#16 : BitVec 16).getLsbD 15 = false ∧
      (∃ ps s1, ReachesAll .stmts (listStores (ram.getReg 2#4) 0#1 0x7FFF#16 fun i => ram.readPhys (appReg i)) ram ps s1) ∧
      (∃ ps s1, ReachesAll .stmts (listStores (ram.getReg 0#4) 1#1 0x7FFF#16 fun i => ram.readPhys (appReg i)) ram ps s1)) ∧
    ((0x8000#16 : BitVec 16).getLsbD 15 = true ∧
      ∃ ps s1, ReachesAll .stmts (listStores (ram.getReg 2#4) 0#1 0x8000#16 fun i => ram.freeAt ((listAscending 0x8000#16).idxOf i))
        (ram.drawFree (listAscending 0x8000#16).length) ps s1) := by
  refine ⟨?_, ?_, ⟨by decide, by decide, ?_⟩, ⟨by decide, ?_⟩, ⟨by decide, by decide, ?_, ?_⟩, ⟨by decide, ?_⟩⟩ <;>
    exact reachesAll_of _ _ (by decide) rfl rfl rfl rfl

/-- A machine of physical addresses on which another master writes between two words. -/
abbrev disturbed : State := { ram with now := { Sample.quiet with busBetween := [[(0x104#32, 0xAA#8)]] } }

/-- The clauses on what other agents do between the words of ld.d, st.d, ldm and stm, of scall, rets and rete: a machine where they act, blocks at
each end of memory, even pairs and full lists. -/
theorem witness_words_in_turn :
    ¬ Undisturbed disturbed ∧ Direct disturbed ∧ evenNo 14#4 = true ∧ (disturbed.getReg 2#4).toNat % 4 = 0 ∧
    (disturbed.getReg 0#4).toNat % 4 = 0 ∧ (∀ n, Backed disturbed (disturbed.getReg 2#4) n) ∧
    ((0x7FFF#16 : BitVec 16) ≠ 0#16 ∧ (0x7FFF#16 : BitVec 16).getLsbD 15 = false ∧ (0xFFFF#16 : BitVec 16) ≠ 0#16) ∧
    (disturbed.mode = 1#3 ∧ disturbed.cfg.archB = false ∧ Memory.wf disturbed.mem = true ∧ disturbed.systemSp.toNat % 4 = 0 ∧
      Backed disturbed (disturbed.systemSp - 8#32) 8 ∧ Backed disturbed disturbed.systemSp 8) ∧
    Undisturbed ram := by
  refine ⟨by unfold Undisturbed; decide, ⟨rfl, rfl⟩, by decide, by decide, by decide, fun n => backed_of rfl _ n, by decide,
    ⟨by decide, rfl, by decide, by decide, backed_of rfl _ _, backed_of rfl _ _⟩, rfl⟩

/-- R4 is -1: each group of forms at an odd address, or 1, 2 or 3 above a multiple of 4; the stack pointers and ACBA moved off it. -/
theorem witness_MisalignedAccessesTrap :
    ram.cfg.unalignedOk = [] ∧
    (ram.getReg 4#4).toNat % 2 = 1 ∧ (ram.getReg 4#4 - 2#32).toNat % 2 = 1 ∧ (ram.dispZ 4#4 (7#3 : BitVec 3) 1).toNat % 2 = 1 ∧
    (ram.dispS 4#4 (0x8000#16 : BitVec 16) 0).toNat % 2 = 1 ∧ (ram.indexed 3#4 4#4 0#2).toNat % 2 = 1 ∧
    (ram.getReg 4#4 - 4#32).toNat % 4 = 3 ∧ (ram.getReg 4#4 - 8#32).toNat % 4 = 3 ∧ (ram.dispZ 4#4 (0#5 : BitVec 5) 2).toNat % 4 = 3 ∧
    (ram.indexed 3#4 4#4 1#2).toNat % 4 = 2 ∧
    (ram.getReg 4#4 + (((ram.getReg 1#4).extractLsb' (8 * ((0#1 : BitVec 1) ++ (1#1 : BitVec 1)).toNat) 8).setWidth 32 <<< 2)).toNat % 4 = 3 ∧
    (hasRev ram.cfg 2 = true ∧ ram.cond 1#4 = true ∧ (ram.dispZ 4#4 (0x1FF#9 : BitVec 9) 1).toNat % 2 = 1) ∧
    (ram.dispS 4#4 (0x800#12 : BitVec 12) 1).toNat % 2 = 1 ∧ (ram.dispS 4#4 (0x7FF#12 : BitVec 12) 2).toNat % 4 = 3 ∧
    ((1#4 : RegNo) ≠ 4#4 ∧ evenNo 14#4 = true ∧ evenNo 15#4 = false ∧ (4#4 : RegNo) = 3#4 + 1#4) ∧
    (machine false false .none 0x00410020#32).flagL = true ∧ (xchgUndefined 0#4 4#4 1#4 = false ∧ xchgUndefined 4#4 4#4 1#4 = true) ∧
    (({ ram with ctl := { ram.ctl with acba := 2#32 } } : State).ctl.acba + (zext (0xFF#8 : BitVec 8) <<< 2)).toNat % 4 = 2 ∧
    ((0x80#8 : BitVec 8) ≠ 0#8 ∧ (0x8000#16 : BitVec 16) ≠ 0#16 ∧ (0x8000#16 : BitVec 16).getLsbD 15 = true) ∧
    (let s := { ram with spSys := 0x2002#32, spApp := 0x2002#32 }
     (s.getReg 13#4).toNat % 4 = 2 ∧ (s.getReg 13#4 - 4#32).toNat % 4 = 2 ∧ s.systemSp.toNat % 4 = 2 ∧ (s.systemSp - 4#32).toNat % 4 = 2) ∧
    (firstStored (ram.getReg 4#4) 1#1).toNat % 4 = 3 ∧ (firstStored (ram.getReg 4#4) 0#1).toNat % 4 = 3 ∧
    (ram.cfg.hasJava = true ∧ (({ ram with pc := 2#32 } : State).setReg 9#4 1#32).getReg 9#4 = 1#32) ∧
    (ram.cfg.archB = false ∧ ram.mode = 1#3 ∧ user.mode = 0#3 ∧ handler.mode ≠ 0#3 ∧ handler.mode ≠ 1#3) ∧
    (ram.dispZ 4#4 (0xFF#8 : BitVec 8) 2).toNat % 4 = 3 := by
  decide

/-- A coprocessor, for the transfers of the statements on coprocessors too. -/
theorem witness_copReady : copReady ram 7#3 ∧ copReady ram 0#3 := ⟨⟨by decide, by decide⟩, by decide, by decide⟩

/-- A store at the top of memory, and the word below it. -/
theorem witness_StoreThenLoad :
    let a := ram.dispS 2#4 (4#16 : BitVec 16) 0
    Direct ram ∧ Memory.wf ram.mem = true ∧ a.toNat % 4 = 0 ∧ Backed ram a 4 ∧ (∃ t, exec (.stW (.formIV 2#4 12#4 4#16)) ram = .next t) ∧
    a - 4#32 ≠ a ∧ (a - 4#32).toNat % 4 = 0 ∧ Backed ram (a - 4#32) 4 :=
  ⟨⟨rfl, rfl⟩, by decide, by decide, backed_of rfl _ _, ⟨_, rfl⟩, by decide, by decide, backed_of rfl _ _⟩

/-! ### Translation -/

/-- Each segment at its lowest or highest address, each number of hits, and each permission. -/
theorem witness_SegmentsAndPages :
    ram.cfg.mmut = .none ∧ (paging 0x10#32 []).cfg.mmut = .split ∧
    ((paging 0x10#32 []).mmu.mmucr.getLsbD 4 = true ∧ 4 ≤ (0x80000000#32).toNat / 2 ^ 29) ∧
    ((paging 0#32 []).mmu.mmucr.getLsbD 4 = false ∧ (paging 0#32 []).mmu.mmucr.getLsbD 0 = false) ∧
    ((0x7FFFFFFF#32).toNat / 2 ^ 29 = 3 ∧ (0x80000000#32).toNat / 2 ^ 29 = 4 ∧ (0xBFFFFFFF#32).toNat / 2 ^ 29 = 5 ∧
      (0xC0000000#32).toNat / 2 ^ 29 = 6 ∧ (0xE0000000#32).toNat / 2 ^ 29 = 7) ∧
    ((paging 0x11#32 []).mmu.mmucr.getLsbD 4 = true ∧ (paging 0x11#32 []).mmu.mmucr.getLsbD 0 = true) ∧
    (paging 0x11#32 [entry 7#3 true]).tlbHits false 0x400#32 = [] ∧
    1 < ((paging 0x11#32 [entry 7#3 true, entry 7#3 true]).tlbHits false 0x3FF#32).length ∧
    (paging 0x11#32 [entry 7#3 true]).tlbHits false 0x3FF#32 = [(entry 7#3 true, 0)] ∧
    (paging 0x11#32 [entry 7#3 false]).tlbHits false 0x3FF#32 = [(entry 7#3 false, 0)] ∧
    (paging 0x11#32 [entry 1#3 false]).tlbHits false 0x3FF#32 = [(entry 1#3 false, 0)] ∧
    (entry 7#3 true).ap.getLsbD 2 = true ∧ (entry 1#3 false).ap.getLsbD 2 = false := by
  decide

/-- A machine with an MPU of two regions, MPUCR, their MPUARn and MPUAPRA. -/
def protecting (cr ar0 ar1 apra : Word) : State :=
  let s := machine false false .mpu 0x00410000#32
  { s with
    cfg := { s.cfg with dmmuSz := 2#6 }
    mpu := { s.mpu with cr := cr, ar := (s.mpu.ar.set 0 ar0).set 1 ar1, apra := apra } }

/-- Region 0 of 4 Kbytes from 0x1000; with region 1 over all of memory too; and of 4 Gbytes from 0x1000. -/
abbrev oneRegion : State := protecting 1#32 0x00001017#32 0#32 0x00000003#32
abbrev twoRegions : State := protecting 1#32 0x00001017#32 0x0000003F#32 0x0000000B#32
abbrev noRegion : State := protecting 1#32 0x0000103F#32 0#32 0#32

theorem below_two {m : Nat} {P : Prop} (h : m < 2) (p0 : m = 0 → P) (p1 : m = 1 → P) : P := by
  obtain h0 | h1 : m = 0 ∨ m = 1 := by omega
  · exact p0 h0
  · exact p1 h1

/-- A region at its first and its last address and next to them, a permission code with a meaning and one without, two regions, and a start that
the size does not divide. -/
theorem witness_SegmentsAndPages_mpu :
    ((protecting 0#32 0#32 0#32 0#32).cfg.mmut = .mpu ∧ (protecting 0#32 0#32 0#32 0#32).mpu.cr.getLsbD 0 = false) ∧
    (oneRegion.mpu.cr.getLsbD 0 = true ∧ 3 ≤ oneRegion.cfg.mpuMinRegion.toNat ∧ RegionsDefined oneRegion) ∧
    (RegionHolds oneRegion 0 0x1000#32 ∧ RegionHolds oneRegion 0 0x1FFF#32 ∧ (∀ m, RegionHolds oneRegion m 0x1000#32 → m = 0)) ∧
    ((∀ n, ¬ RegionHolds oneRegion n 0x2000#32) ∧ ∀ n, ¬ RegionHolds oneRegion n 0xFFF#32) ∧
    mpuRights ((oneRegion.mpu.apra.extractLsb' 0 4).toNat) = some ([.read, .write, .fetch], []) ∧
    (RegionsDefined twoRegions ∧ RegionHolds twoRegions 0 0x1000#32 ∧ RegionHolds twoRegions 1 0x1000#32) ∧
    mpuRights ((twoRegions.mpu.apra.extractLsb' 0 4).toNat) = none ∧
    ¬ RegionsDefined noRegion := by
  refine ⟨by decide, ⟨by decide, by decide, ?_⟩, ⟨⟨by decide, by decide⟩, ⟨by decide, by decide⟩, ?_⟩, ⟨?_, ?_⟩, rfl,
    ⟨?_, ⟨by decide, by decide⟩, ⟨by decide, by decide⟩⟩, rfl, ?_⟩
  · intro n h hn; refine below_two hn ?_ ?_ <;> rintro rfl <;> decide +revert
  · rintro m ⟨_, h, hv, _⟩; refine below_two h id ?_; rintro rfl; revert hv; decide +revert
  · rintro n ⟨_, hn, h⟩; refine below_two hn ?_ ?_ <;> rintro rfl <;> revert h <;> decide +revert
  · rintro n ⟨_, hn, h⟩; refine below_two hn ?_ ?_ <;> rintro rfl <;> revert h <;> decide +revert
  · intro n h hn; refine below_two hn ?_ ?_ <;> rintro rfl <;> decide +revert
  · intro h; have := h 0 (by decide) (by decide) (by decide); revert this; decide

/-! ### Events and system -/

theorem witness_EventEntrySavesInRegisters : ramB.cfg.archB = true := by decide

/-- In Application mode, for an exception, an interrupt and NMI, with the stack ending at the top of memory too. -/
theorem witness_EventEntryPushesFrame :
    (user.cfg.archB = false ∧ Direct user ∧ Memory.wf user.mem = true ∧ user.systemSp.toNat % 4 = 0 ∧
    Backed user (user.systemSp - 32#32) 32 ∧
      Backed user (user.systemSp - 8#32) 8) ∧
    (let s := { user with spSys := 0#32 }
     s.systemSp.toNat % 4 = 0 ∧ Backed s (s.systemSp - 32#32) 32) :=
  ⟨⟨rfl, ⟨rfl, rfl⟩, by decide, by decide, backed_of rfl _ _, backed_of rfl _ _⟩, by decide, backed_of rfl _ _⟩

theorem witness_EventTableAndMask :
    (machine true false .none 0x00610000#32).srBit bitEM = true ∧ ramB.srBit bitEM = false ∧
    (∃ t, enterEvent .nmi 0#32 ramB = .ok () t) ∧ (∃ t, enterEvent .illegalOpcode 0#32 ramB = .ok () t) :=
  ⟨by decide, by decide, ⟨_, rfl⟩, ⟨_, rfl⟩⟩

/-- An address to record with a TLB, without one, and masked; and a TLB whose replacement pointer moves, the ITLB's and the DTLB's. -/
theorem witness_EventTableAndMask_records :
    (Event.itlbMiss 4#32, some true) ∈ addressEvents 4#32 false ∧
    (let s := machine true false .split 0x00410000#32
     hasMmu s.cfg = true ∧ hasBear s.cfg = true ∧ ∃ t, enterEvent (.itlbMiss 4#32) 0#32 s = .ok () t) ∧
    (hasMmu ramB.cfg = false ∧ ∃ t, enterEvent (.dataAddressRead 1#32) 0#32 ramB = .ok () t) ∧
    (let s := machine true false .split 0x00610000#32
     (Event.dtlbMissRead 4#32).maskable = true ∧ s.srBit bitEM = true ∧ ∃ u, enterEvent .unrecoverable 0#32 s = .ok () u) ∧
    (let s := machine true false .split 0x00410000#32
     let s1 := { s with cfg := { s.cfg with tlbReplace := true } }
     s1.cfg.mmut = .split ∧ (∃ t, enterEvent (.itlbMiss 4#32) 0#32 s1 = .ok () t) ∧ ∃ t, enterEvent (.dtlbMissWrite 4#32) 0#32 s1 = .ok () t) :=
  ⟨by decide, ⟨by decide, by decide, _, rfl⟩, ⟨by decide, _, rfl⟩, ⟨by decide, by decide, _, rfl⟩, rfl, ⟨_, rfl⟩, _, rfl⟩

/-- The boundary of `s` is not a reset, and the OCD system leaves the core alone. -/
def atBoundary (s : State) : Bool := !s.now.reset && !s.ocdStopped && !(s.cfg.hasOcd && s.now.ocdStop)

/-- Each line at the boundary, NMI before it, and a bus error before that. -/
theorem witness_InterruptAcceptance :
    (let s := (presenting { Sample.quiet with int0 := some 0x140#32 } user).sample
     atBoundary s = true ∧ s.pendingEvent = some (.interrupt 0#2 0x140#32)) ∧
    (let s := (presenting { Sample.quiet with int3 := some 0x180#32, int0 := some 0x140#32 } user).sample
     atBoundary s = true ∧ s.pendingEvent = some (.interrupt 3#2 0x180#32)) ∧
    (let s := (presenting { Sample.quiet with nmi := true, int3 := some 0x180#32 } user).sample
     atBoundary s = true ∧ s.pendingEvent = some .nmi) ∧
    (let s := ({ user with busErr := [4#32], env := [{ Sample.quiet with nmi := true }] }).sample
     atBoundary s = true ∧ s.pendingEvent = some (.busErrorData 4#32)) := by
  decide

/-- A word of which only the last byte has no memory; a deferred error that a sync has made due, and one that it has not. -/
theorem witness_InterruptAcceptance_busError :
    (let s := { ram with cfg := { ram.cfg with backed := [(0#32, ram.dispS 1#4 (0x8000#16 : BitVec 16) 0 + 2#32)] } }
     Direct s ∧ (s.dispS 1#4 (0x8000#16 : BitVec 16) 0).toNat % 4 = 0 ∧ ¬ Backed s (s.dispS 1#4 (0x8000#16 : BitVec 16) 0) 4) ∧
    (let s := { ram with busErr := [4#32], busErrDue := 1, now := { Sample.quiet with deferBusError := true } }
     s.pendingEvent = some (.busErrorData 4#32)) ∧
    (let s := { user with busErr := [4#32], now := { Sample.quiet with deferBusError := true, int1 := some 8#32 } }
     s.pendingEvent = some (.interrupt 1#2 8#32)) :=
  ⟨⟨⟨rfl, rfl⟩, by decide, fun h => absurd (h 3 (by decide)) (by decide)⟩, by decide, by decide⟩

/-- R261: a doubleword whose second word lies in a page that misses is recorded by its effective address. -/
theorem test_second_word_miss :
    (match checkAccess .read true .ldD 8 0x3FC#32 (paging 0x11#32 [entry 7#3 true]) with
      | .raise e _ => some e
      | .ok _ _ => none) = some (.dtlbMissRead 0x3FC#32) := by
  decide

/-- R312: a sync makes both errors due, and the boundaries report one after the other. -/
theorem test_sync_reports_all :
    let s := { ram with busErr := [4#32, 8#32], now := { Sample.quiet with deferBusError := true } }
    s.pendingEvent = none ∧
    (let t := { s with busErrDue := s.busErr.length }
     t.pendingEvent = some (.busErrorData 4#32) ∧ (t.clearPending (.busErrorData 4#32)).pendingEvent = some (.busErrorData 8#32)) ∧
    ((s.noteBusError 12#32).busErr = [4#32, 8#32, 12#32]) := by
  decide

/-- R1068, R208: the address of the word, of which only the last byte has no memory, and of the failing word of a doubleword. -/
theorem test_bus_error_address :
    let s := { ram with cfg := { ram.cfg with backed := [(0#32, 0x102#32)] } }
    s.busErrorIn .read [(0x100#32, 4)] = some 0x100#32 ∧ s.busErrorIn .write [(0xFC#32, 4), (0x100#32, 4)] = some 0x100#32 ∧
    s.busErrorIn .read [(0x102#32, 1), (0x103#32, 1)] = some 0x103#32 := by
  decide

/-- R1068, U50 (notes/assumptions/39.md): acall and mcall whose word has no memory complete; the PC they leave is any value, LR is not. -/
theorem test_call_bus_error :
    let s := { ram with cfg := { ram.cfg with backed := [(0x80000000#32, 0xFFFFFFFF#32)] } }
    leads (exec (.acall 2#8) s) (fun t => t.busErr == [8#32] && t.getReg 14#4 == 0x80001002#32) = true ∧
    leads (exec (.mcall 1#4 0#16) s) (fun t => t.busErr == [0x100#32] && t.getReg 14#4 == 0x80001004#32) = true := by
  decide

theorem witness_SupervisorCallAndReturn :
    (user.mode = 0#3 ∧ (machine true false .none 0#32).mode = 0#3 ∧ ramB.mode = 1#3 ∧ ramB.cfg.archB = true) ∧
    (ram.mode = 1#3 ∧ ram.cfg.archB = false ∧ Direct ram ∧ Memory.wf ram.mem = true ∧ ram.systemSp.toNat % 4 = 0 ∧
      Backed ram (ram.systemSp - 8#32) 8 ∧ Backed ram ram.systemSp 8) ∧
    (handler.mode ≠ 0#3 ∧ handler.mode ≠ 1#3) :=
  ⟨by decide, ⟨by decide, rfl, ⟨rfl, rfl⟩, by decide, by decide, backed_of rfl _ _, backed_of rfl _ _⟩, by decide⟩

/-- Exception mode and INT0 mode, of both classes. -/
theorem witness_ReturnFromEvent :
    ((machine true false .none 0x01A10000#32).mode ≠ 0#3 ∧ (machine true false .none 0x01A10000#32).mode ≠ 1#3 ∧
      (machine true false .none 0x01A10000#32).cfg.archB = true) ∧
    (handler.mode ≠ 0#3 ∧ handler.mode ≠ 1#3 ∧ handler.mode = 6#3 ∧ handler.cfg.archB = false ∧ Direct handler ∧
      handler.systemSp.toNat % 4 = 0 ∧ Backed handler handler.systemSp 8) ∧
    (let s := machine false false .none 0x00820000#32
     s.mode = 2#3 ∧ Direct s ∧ s.systemSp.toNat % 4 = 0 ∧ Backed s s.systemSp 32) :=
  ⟨by decide, ⟨by decide, by decide, by decide, rfl, ⟨rfl, rfl⟩, by decide, backed_of rfl _ _⟩,
    by decide, ⟨rfl, rfl⟩, by decide, backed_of rfl _ _⟩

theorem witness_SecureAndDebugTransfers :
    (unitPresent .sscall inSecure.cfg = true ∧ unitPresent .retss inSecure.cfg = true ∧ inSecure.srBit bitSS = true) ∧
    (ram.privileged = true ∧ hasRsrDbg ram.cfg = true ∧ hasRarDbg ram.cfg = true) ∧ (ram.cfg.hasOcd = true ∧ ram.cfg.ocdEnabled = true ∧ ram.srBit bitDM = false) ∧
    ¬ (State.reset.cfg.hasOcd = true ∧ State.reset.cfg.ocdEnabled = true ∧ State.reset.srBit bitDM = false) := by
  decide

/-- The first privileged bit in both modes, the last bit of an application, and the two kinds of bit that stay. -/
theorem witness_StatusBits :
    (15 < (16#5).toNat ∧ user.inApplication = true) ∧ (15#5).toNat ≤ 15 ∧ ram.privileged = true ∧
    srImplemented.getLsbD (16#5).toNat = true ∧
    srImplemented.getLsbD (30#5).toNat = false := by
  decide

/-- The register of every clause, in a configuration that has it. -/
theorem witness_SystemRegisters :
    ram.privileged = true ∧ user.privileged = false ∧
    ([1, 4, 12, 20, 21, 32, 66, 67, 75, 77].all (plainSysReg ram.cfg) && [5, 19].all (plainSysReg ramB.cfg) &&
      [68, 71].all (plainSysReg (wide false false .split)) && [100, 101].all (plainSysReg (wide false false .mpu))) = true ∧
    ram.readSysReg 255#8 = none ∧ ram.readSysReg 66#8 = some 0#32 := by
  decide

/-- The registers that are not plain storage, each where it exists. -/
theorem witness_SystemRegisters_special :
    (machine false false .split 0x00410000#32).readSysReg 72#8 ≠ none ∧ ram.readSysReg 78#8 ≠ none ∧
    (let s := { protecting 0#32 0#32 0#32 0#32 with cfg := { wide false false .mpu with dmmuSz := 8#6 } }
     [80#8, 87#8, 88#8, 95#8, 96#8, 97#8, 98#8, 99#8, 102#8].all (fun n => s.readSysReg n != none)) = true ∧
    (inSecure.readSysReg 103#8 ≠ none ∧ inSecure.readSysReg 111#8 ≠ none ∧ inSecure.srBit bitSS = true ∧
      (machine false true .none 0x00410000#32).srBit bitSS = false) ∧
    ram.readSysReg 192#8 = some 0#32 ∧
    ({ wide false false .none with cpucr := .own } : Params).cpucr = .own := by
  decide

/-- The registers whose reading has a rule of its own, where they exist and where not. -/
theorem witness_SystemRegisters_read :
    ram.readSysReg 64#8 ≠ none ∧ ram.readSysReg 65#8 ≠ none ∧ ram.readSysReg 79#8 ≠ none ∧ ram.readSysReg 73#8 = none ∧
    (paging 0x11#32 [entry 7#3 true]).readSysReg 73#8 ≠ none ∧ (paging 0x11#32 [entry 7#3 true]).readSysReg 74#8 ≠ none ∧
    inSecure.readSysReg 108#8 = some inSecure.spSys ∧ inSecure.readSysReg 109#8 = some inSecure.spApp ∧ ram.readSysReg 108#8 = none := by
  decide

/-- R246: entry 0 in bit 31; R151: AVR32A, revision 3, no MMU, SIMD, DSP and RMW. -/
theorem test_accessed_and_config :
    (paging 0x11#32 [{ entry 7#3 true with a := true }]).readSysReg 73#8 = some 0x80000000#32 ∧
    State.reset.readSysReg 64#8 = some 0x00000C07#32 := by
  decide

theorem witness_DebugRegistersCacheAndSleep :
    ram.privileged = true ∧ 8#8 ∈ ram.cfg.debugRegs ∧ ¬ 9#8 ∈ ram.cfg.debugRegs ∧ 1#8 ∈ ram.cfg.sleepNop ∧ ¬ 0x80#8 ∈ ram.cfg.sleepNop ∧
    (0x80#8).getLsbD 7 = true := by
  decide

/-- A pointer to the last entry, one past it, and a search that finds an entry and one that does not, in two TLBs and in a shared one. -/
theorem witness_TlbInstructions :
    (hasMmu (paging 0x4011#32 []).cfg = true ∧ (paging 0x4011#32 []).privileged = true ∧
      ((paging 0x4011#32 []).mmu.mmucr.extractLsb' 14 6).toNat = 1 ∧ (paging 0x4011#32 []).cfg.dmmuSz.toNat + 1 = 2) ∧
    (paging 0x8011#32 []).cfg.dmmuSz.toNat + 1 ≤ ((paging 0x8011#32 []).mmu.mmucr.extractLsb' 14 6).toNat ∧
    (Matches (entry 7#3 true) 0x11#32 0#32 ∧ ¬ Matches (entry 7#3 true) 0x11#32 0x400#32 ∧ ¬ Matches TlbEntry.invalid 0x11#32 0#32) ∧
    ((paging 0x11#32 [entry 7#3 true]).mmu.dtlb[0] = entry 7#3 true ∧ (paging 0x11#32 [entry 7#3 true]).mmu.dtlb[1] = TlbEntry.invalid ∧
      (paging 0x11#32 [entry 7#3 true]).mmu.tlbehi = 0#32) ∧
    (machine false false .shared 0x00410000#32).cfg.mmut = .shared := by
  refine ⟨by decide, by decide, ⟨⟨by decide, by decide, by decide⟩, ?_, ?_⟩, by decide, rfl⟩
  · rintro ⟨_, h, _⟩; revert h; decide
  · rintro ⟨h, _⟩; revert h; decide

/-! ### Coprocessors, Java, packed data and time -/

/-- The last coprocessor; each form at an end of its range; even and odd pairs. -/
theorem witness_CoprocessorTransfers :
    copReady ram 7#3 ∧ evenNo 14#4 = true ∧ evenNo 15#4 = false ∧
    (∀ p ∈ [(LsKind.ldcW, 4, ram.dispZ 1#4 (0xFF#8 : BitVec 8) 2), (.ldcD, 8, ram.dispZ 1#4 (0xFF#8 : BitVec 8) 2), (.ldcW, 4,
    ram.getReg 0#4 - 4#32),
      (.ldcD, 8, ram.getReg 0#4 - 8#32), (.ldcW, 4, ram.indexed 1#4 4#4 3#2), (.ldcD, 8, ram.indexed 1#4 4#4 3#2),
      (.ldc0W, 4, ram.dispZ 1#4 (0xFFF#12 : BitVec 12) 2), (.ldc0D, 8, ram.dispZ 1#4 (0xFFF#12 : BitVec 12) 2)], ∃ bs,
      Reads ram p.1 p.2.1 p.2.2 bs ram) ∧
    (∀ p ∈ [(LsKind.stcW, 4, ram.dispZ 1#4 (0xFF#8 : BitVec 8) 2), (.stcD, 8, ram.dispZ 1#4 (0xFF#8 : BitVec 8) 2), (.stcW, 4,
    ram.getReg 2#4),
      (.stcD, 8, ram.getReg 2#4), (.stcW, 4, ram.indexed 1#4 4#4 3#2), (.stcD, 8, ram.indexed 1#4 4#4 3#2),
      (.stc0W, 4, ram.dispZ 1#4 (0xFFF#12 : BitVec 12) 2), (.stc0D, 8, ram.dispZ 1#4 (0xFFF#12 : BitVec 12) 2)], ∃ ps,
      Reaches ram p.1 p.2.1 p.2.2 ps ram) ∧
    (∃ ps, Reaches (ram.drawFree 2) .stcD 8 (ram.getReg 2#4) ps (ram.drawFree 2)) :=
  ⟨⟨by decide, by decide⟩, by decide, by decide, ram_reads _ (by decide), ram_reaches _ (by decide), reaches_of rfl rfl rfl rfl _ (by decide)⟩

/-- Full and one-register lists. -/
theorem witness_CoprocessorMultiple :
    copReady ram 0#3 ∧ (copPairs 0x80#8 ≠ 0#16 ∧ copHigh 0x80#8 ≠ 0#16 ∧ copLow 0x01#8 ≠ 0#16 ∧ copLow 0#8 = 0#16) ∧
    (∃ vs, ReadsAll .ldcmD (wordsFrom (ram.getReg 2#4) (listAscending (copPairs 0xFF#8)).length) ram vs ram) ∧
    (∃ vs, ReadsAll .ldcmW (wordsFrom (ram.getReg 2#4) (listAscending (copHigh 0x80#8)).length) ram vs ram) ∧
    (∃ vs, ReadsAll .ldcmW (wordsFrom (ram.getReg 2#4) (listAscending (copLow 0x01#8)).length) ram vs ram) ∧
    (∃ ps s1, ReachesAll .stcmD (listStores (ram.getReg 0#4) 1#1 (copPairs 0xFF#8) (ram.copReg 0#3)) ram ps s1) ∧
    (∃ ps s1, ReachesAll .stcmW (listStores (ram.getReg 0#4) 0#1 (copHigh 0x80#8) (ram.copReg 0#3)) ram ps s1) ∧
    (∃ ps s1, ReachesAll .stcmW (listStores (ram.getReg 0#4) 1#1 (copLow 0x01#8) (ram.copReg 0#3)) ram ps s1) := by
  refine ⟨⟨by decide, by decide⟩, by decide, ?_, ?_, ?_, ?_, ?_, ?_⟩
  iterate 3 exact readsAll_of rfl rfl rfl rfl _ _ (by decide)
  iterate 3 exact reachesAll_of _ _ (by decide) rfl rfl rfl rfl

/-- The Java stack pointer moved to 8 from below and to 0 from above; local variables below R9. -/
theorem witness_JavaInstructions :
    ram.cfg.hasJava = true ∧ ((3#3 : BitVec 3).toNat < 4 ∧ (4 : Int) = ((3#3 : BitVec 3).toNat : Int) + 1 ∧
    ((4#32 : Word).toNat % 16 : Nat) + 4 ≤ 8) ∧
    (4 ≤ (4#3 : BitVec 3).toNat ∧ (-4 : Int) = ((4#3 : BitVec 3).toNat : Int) - 8 ∧ 0 ≤ ((((4#32 : Word).toNat % 16 : Nat) : Int) + (-4))) ∧
    (∃ vs, ReadsAll .popjc ((List.range 8).map fun k => ram.getReg 9#4 - BitVec.ofNat 32 (4 * k)) ram vs ram) ∧
    (∃ ps s1, ReachesAll .pushjc (((List.range 8).map fun k => ram.getReg 9#4 - BitVec.ofNat 32 (4 * k)).zip ram.java.lv.toList) ram ps s1) :=
  ⟨rfl, by decide, by decide, readsAll_of rfl rfl rfl rfl _ _ (by decide), reachesAll_of _ _ (by decide) rfl rfl rfl rfl⟩

/-- `s` with these bytes from its PC on. -/
def fetching (s : State) (bs : List Byte) : State := { s with mem := writeBytes s.mem s.pc bs }

/-- mtsr JOSP with R1; a code that decodes to nothing; incjosp 2. -/
def windowCode : List Byte := [0xE3#8, 0xB1#8, 0x00#8, 0x16#8, 0xD8#8, 0x03#8, 0xD6#8, 0x93#8]

/-- A write of JOSP, and a nop and an incjosp behind it. -/
theorem witness_JavaInstructions_window :
    let s := fetching ram [0xE3#8, 0xB1#8, 0x00#8, 0x16#8, 0xD7#8, 0x03#8, 0xD6#8, 0x93#8]
    let t := { s with hazardLeft := 2 }
    listed s.cfg 22 = true ∧ Direct s ∧ s.pc.getLsbD 0 = false ∧ ([Instr.nop] ++ [Instr.incjosp 1#3]).all WellFormed = true ∧
    hazardous (.incjosp 1#3) = true ∧ hazardous .retj = true ∧ writesJosp (.mtsr 1#4 22#8) = true ∧ writesJosp .retj = false ∧
    0 < t.hazardLeft ∧ [Instr.nop].length < (t.hazard (.mtsr 1#4 22#8) s).hazardLeft ∧
    readBytes s.mem (s.after (.mtsr 1#4 22#8)) (([Instr.nop] ++ [Instr.incjosp 1#3]).flatMap encode).length =
      ([Instr.nop] ++ [Instr.incjosp 1#3]).flatMap encode ∧
    Backed s (s.after (.mtsr 1#4 22#8)) (([Instr.nop] ++ [Instr.incjosp 1#3]).flatMap encode).length := by
  refine ⟨by decide, ⟨rfl, rfl⟩, ?_, ?_, ?_, ?_, ?_, ?_, ?_, ?_, ?_, backed_of rfl _ _⟩ <;> decide

/-- R1223: the incjosp is in a window of two instructions, though the one before it raises an event, and in none of one. -/
theorem test_josp_window_in_fetch_order :
    leads (step (fetching ram windowCode)) (fun t => t.hazardLeft == 2 && t.hazardFlag) = true ∧
    leads (step (fetching { ram with cfg := { ram.cfg with jospHazard := 1 } } windowCode)) (fun t => t.hazardLeft == 1 && !t.hazardFlag) = true := by
  decide

/-- An illegal code in the window counts; the incjosp behind it is flagged. -/
theorem test_josp_window_illegal :
    leads (step { fetching ram (windowCode.drop 4) with hazardLeft := 2 }) (fun t => t.hazardLeft == 1 && t.hazardFlag) = true := by
  decide

/-- U40: an empty list leaves any value in R15 as its pointer, with write-back or without; a list that is not empty moves it with write-back. -/
theorem test_empty_list_changes_flow :
    ([.stm 15#4 0#1 0#16, .stmts 15#4 0#1 0#16, .ldmts 15#4 0#1 0#16, .ldcmD 0#3 15#4 0#1 0#8, .ldcmW (.formLow 0#3 15#4 0#1 0#8),
      .stcmD 0#3 15#4 0#1 0#8, .stcmW (.formHigh 0#3 15#4 0#1 0#8), .stm 15#4 1#1 1#16].all changesFlow &&
      !changesFlow (.stm 15#4 0#1 1#16) && !changesFlow (.stcmD 0#3 15#4 0#1 1#8)) = true := by
  decide

theorem witness_PackedLanes : ram.cfg.hasSimd = true := by decide

/-- Each event that a counter selects, occurring and not, at the overflow of the counter. -/
theorem witness_TimeAndSleep_events :
    (ram.cfg.hasPerf = true ∧ ({ ram with perf := { ram.perf with pccr := 1#32 } } : State).perf.pccr.getLsbD 0 = true) ∧
    Occurrences 3#6 (some (.itlbMiss 0#32)) false 9 1 ∧ Occurrences 4#6 (some (.dtlbMissWrite 0#32)) false 9 1 ∧
    Occurrences 4#6 none true 9 0 ∧ Occurrences 7#6 none true 9 1 ∧ Occurrences 26#6 none true 9 0 ∧ Occurrences 0#6 none false 9 9 ∧
    2 ^ 32 ≤ (0xFFFFFFFF#32 : Word).toNat + 1 := by
  refine ⟨by decide, ?_, ?_, ?_, ?_, ?_, ?_, by decide⟩ <;> simp [Occurrences]

/-- R1150: revisions 1 and 2 always clear COUNT on the match; revision 3 may be told not to. -/
theorem test_match_clears_below_revision_3 :
    let machineAt (rev : BitVec 2) : State :=
      { ram with cfg := { ram.cfg with archRev := rev, countClear := false }, timer := { ram.timer with count := 7#32, compare := 7#32 } }
    (machineAt 1#2).tick.timer.count = 0#32 ∧ (machineAt 2#2).tick.timer.count = 0#32 ∧ (machineAt 3#2).tick.timer.count = 8#32 := by
  decide

/-- COMPARE off, and a cycle before the match; the counters off, on,
  and divided by 64; a sleep that stops the clock and one that does not. -/
theorem witness_TimeAndSleep :
    ram.timer.compare = 0#32 ∧
    (let s := { ram with timer := { ram.timer with count := 0xFFFFFFFE#32, compare := 0xFFFFFFFF#32 } }
     (∀ k, k < 1 → s.timer.count + BitVec.ofNat 32 k ≠ s.timer.compare) ∧ s.timer.compare ≠ 0#32 ∧
       s.timer.count + BitVec.ofNat 32 1 = s.timer.compare) ∧
    (ram.cfg.hasPerf = true ∧ ram.perf.pccr.getLsbD 0 = false ∧ (1#32 : Word).getLsbD 0 = true ∧ (1#32 : Word).getLsbD 3 = false ∧
      (9#32 : Word).getLsbD 3 = true) ∧
    (let s := { ram with sleeping := some 2#8 }
     atBoundary s.sample = true ∧ s.sample.pendingEvent = none ∧ s.sample.breakAccepted = false ∧
     s.cfg.sleepStopsClock.contains 2#8 = true ∧
       s.cfg.sleepStopsClock.contains 3#8 = false) := by
  decide

end Sys2Proof.Tests
end

section
/-! PROOFS. The system registers as mfsr and mtsr see them (10_state.md R130 to R152): what every number reads, what every write leaves, and
the two instructions. -/

namespace Sys2Proof.Machine

/-! ## The registers that are one field -/

/-- Each register that is one field reads that field, where it exists. -/
theorem registerFields_read (s : State) : ∀ r ∈ registerFields s, Reads8 s r.1 r.2.1 r.2.2 := by
  simp only [registerFields, List.cons_append, List.nil_append, List.forall_mem_cons, List.not_mem_nil, false_imp_iff, implies_true, and_true]
  and_intros
  all_goals rfl

/-! ## CONFIG0 and CONFIG1 -/

/-- The multi-bit fields of CONFIG0 (10_state.md R151); the units are the low seven bits. -/
theorem config0_field (id : BitVec 8) (z rev : BitVec 4) (ty arch mmut : BitVec 3) (units : BitVec 7) :
    let w := id ++ z ++ rev ++ ty ++ arch ++ mmut ++ units
    (w.extractLsb' 24 8 = id ∧ w.extractLsb' 16 4 = rev ∧ w.extractLsb' 13 3 = ty ∧ w.extractLsb' 10 3 = arch ∧ w.extractLsb' 7 3 = mmut) ∧
    ∀ k, k < 7 → w.getLsbD k = units.getLsbD k := by
  intro w
  constructor
  · simp (disch := omega) only [w, BitVec.extractLsb'_append_eq_of_le, BitVec.extractLsb'_append_eq_of_add_le]
    simp
  · intro k hk
    simp only [w, BitVec.getLsbD_append, hk, if_true]

/-- The unit bits of CONFIG0, each a bit of its own (10_state.md R151). -/
theorem config0_unit (fpu java perf ocd simd dsp rmw : BitVec 1) :
    let w := fpu ++ java ++ perf ++ ocd ++ simd ++ dsp ++ rmw
    w.getLsbD 6 = fpu.getLsbD 0 ∧ w.getLsbD 5 = java.getLsbD 0 ∧ w.getLsbD 4 = perf.getLsbD 0 ∧ w.getLsbD 3 = ocd.getLsbD 0 ∧
    w.getLsbD 2 = simd.getLsbD 0 ∧ w.getLsbD 1 = dsp.getLsbD 0 ∧ w.getLsbD 0 = rmw.getLsbD 0 := by
  simp only [BitVec.getLsbD_append]
  simp

theorem getLsbD_zero_ofBool (b : Bool) : (if b then 1#1 else 0#1).getLsbD 0 = b := by cases b <;> rfl

theorem configRead (s : State) : ConfigRead s := by
  refine ⟨⟨config0 s.cfg, rfl, ?_⟩, config1 s.cfg, rfl, ?_⟩
  · obtain ⟨⟨hid, hrev, hty, harch, hmmut⟩, hunits⟩ := config0_field s.cfg.procId 0#4 s.cfg.procRev
      ((if s.cfg.archB then 1#1 else 0#1).setWidth 3) (s.cfg.archRev.setWidth 3)
      (match s.cfg.mmut with | .none => 0#3 | .split => 1#3 | .shared => 2#3 | .mpu => 3#3) _
    obtain ⟨h6, h5, h4, h3, h2, h1, h0⟩ := config0_unit (if s.cfg.hasFpu then 1#1 else 0#1) (if s.cfg.hasJava then 1#1 else 0#1)
      (if s.cfg.hasPerf then 1#1 else 0#1) (if s.cfg.hasOcd then 1#1 else 0#1) (if s.cfg.hasSimd then 1#1 else 0#1)
      (if s.cfg.hasDsp then 1#1 else 0#1) (if s.cfg.hasRmw then 1#1 else 0#1)
    rw [getLsbD_zero_ofBool] at h6 h5 h4 h3 h2 h1 h0
    refine ⟨hid, hrev, hty.trans ?_, (congrArg BitVec.toNat harch).trans ?_, hmmut.trans ?_, (hunits 6 (by decide)).trans h6,
      (hunits 5 (by decide)).trans h5, (hunits 4 (by decide)).trans h4, (hunits 3 (by decide)).trans h3, (hunits 2 (by decide)).trans h2,
      (hunits 1 (by decide)).trans h1, (hunits 0 (by decide)).trans h0⟩
    · cases s.cfg.archB <;> rfl
    · have := s.cfg.archRev.isLt
      rw [BitVec.toNat_setWidth]; omega
    · cases s.cfg.mmut <;> rfl
  · simp (disch := omega) only [config1, BitVec.extractLsb'_append_eq_of_le, BitVec.extractLsb'_append_eq_of_add_le]
    simp

/-! ## The Accessed bits -/

/-- A number built from bits, the first the most significant: bit `n - 1 - i` is the `i`-th. -/
theorem testBit_foldl_bits (f : Nat → Bool) (n : Nat) : ∀ i, i < n →
    ((List.range n).foldl (fun acc i => 2 * acc + (if f i then 1 else 0)) 0).testBit (n - 1 - i) = f i := by
  induction n with
  | zero => intro i h; omega
  | succ n ih =>
    intro i hi
    rw [List.range_succ, List.foldl_append, List.foldl_cons, List.foldl_nil]
    generalize (List.range n).foldl (fun acc i => 2 * acc + (if f i then 1 else 0)) 0 = x at ih
    rcases Nat.lt_succ_iff_lt_or_eq.mp hi with h | rfl
    · rw [show n + 1 - 1 - i = n - 1 - i + 1 by omega, Nat.testBit_succ, ← ih i h]
      congr 1
      split <;> omega
    · rw [show i + 1 - 1 - i = 0 by omega, Nat.testBit_zero]
      cases f i <;> simp

/-- Bit `31 - i` of TLBARLO or TLBARHI is the Accessed bit of entry `base + i`, where that entry is there (20_memory.md R246). -/
theorem State.getLsbD_accessedBits (s : State) {base i : Nat} (hi : i < 32) (h : base + i < 64) :
    (s.accessedBits base).getLsbD (31 - i) =
      (base + i < s.tlbSize (s.mmu.tlbehi.getLsbD 8) && (s.tlb (s.mmu.tlbehi.getLsbD 8))[base + i].a) := by
  simp only [State.accessedBits, BitVec.getLsbD_ofNat, show 31 - i < 32 by omega, decide_true, Bool.true_and]
  rw [show 31 - i = 32 - 1 - i by omega, testBit_foldl_bits _ 32 i hi]
  generalize s.mmu.tlbehi.getLsbD 8 = instr
  by_cases hs : base + i < s.tlbSize instr <;> simp [List.getD_eq_getElem?_getD, hs, h, TlbEntry.invalid]

theorem accessedRead (s : State) : AccessedRead s := by
  unfold AccessedRead
  intro itlb size half hhalf
  have read : s.readSysReg (BitVec.ofNat 8 (73 + half)) =
      ifUnit (hasMmu s.cfg && s.cfg.sysRegs.contains (BitVec.ofNat 8 (73 + half))) (s.accessedBits (32 * half)) := by
    obtain rfl | rfl : half = 0 ∨ half = 1 := by omega
    · rfl
    · rfl
  have uses : usesItlb s.cfg (s.mmu.tlbehi.getLsbD 8) = decide itlb := by
    rw [Bool.eq_iff_iff]; simp [usesItlb, itlb, and_comm]
  split
  · next there =>
    refine ⟨s.accessedBits (32 * half), by rw [read, there.1, there.2]; rfl, fun i h hi => ?_⟩
    rw [s.getLsbD_accessedBits hi h, State.tlbSize, State.tlb, uses]
    by_cases hit : itlb <;> simp [size, hit]
  · next absent => simpa [read, ifUnit] using absent

/-! ## The registers that come in a row -/

theorem State.readSysReg_lv (s : State) {n : BitVec 8} {i : Nat} (hi : i < 8) (hn : n.toNat = 23 + i) :
    s.readSysReg n = ifUnit (s.cfg.hasJava && listed s.cfg n.toNat) s.java.lv[i] := by
  simp (disch := omega) only [State.readSysReg, if_neg, if_pos]
  simp [hn, hi]

theorem State.readSysReg_mpuAr (s : State) {n : BitVec 8} {i : Nat} (hi : i < 8) (hn : n.toNat = 80 + i) :
    s.readSysReg n = ifUnit (s.cfg.mmut == .mpu && listed s.cfg n.toNat && n.toNat - 80 < mpuRegions s.cfg) s.mpu.ar[i] := by
  simp (disch := omega) only [State.readSysReg, if_neg, if_pos]
  simp [hn, hi]

theorem State.readSysReg_mpuPsr (s : State) {n : BitVec 8} {i : Nat} (hi : i < 8) (hn : n.toNat = 88 + i) :
    s.readSysReg n = ifUnit (s.cfg.mmut == .mpu && listed s.cfg n.toNat && n.toNat - 88 < mpuRegions s.cfg) s.mpu.psr[i] := by
  simp (disch := omega) only [State.readSysReg, if_neg, if_pos]
  simp [hn, hi]

theorem State.readSysReg_impl (s : State) {n : BitVec 8} {i : Nat} (hi : i < 64) (hn : n.toNat = 192 + i) :
    s.readSysReg n = ifUnit (listed s.cfg n.toNat) s.impl[i] := by
  simp (disch := omega) only [State.readSysReg, if_neg, if_pos]
  simp [hn, hi]

/-- There is no register 33 to 63 and 112 to 191. -/
theorem State.readSysReg_reserved (s : State) {n : BitVec 8} (h : (33 ≤ n.toNat ∧ n.toNat < 64) ∨ (112 ≤ n.toNat ∧ n.toNat < 192)) :
    s.readSysReg n = none := by
  simp (disch := omega) only [State.readSysReg, if_neg]

/-- What every number reads, from the fields, CONFIG0 and CONFIG1, the Accessed bits and the rows. -/
theorem registersRead (s : State) : RegistersRead s := by
  refine ⟨registerFields_read s, configRead s, accessedRead s, fun i h => ?_, fun i h => ⟨?_, ?_⟩, fun i h => ?_, fun n h => ?_⟩
  · have hn : (BitVec.ofNat 8 (23 + i)).toNat = 23 + i := by simp; omega
    rw [Reads8, s.readSysReg_lv h hn, hn]; rfl
  · have hn : (BitVec.ofNat 8 (80 + i)).toNat = 80 + i := by simp; omega
    rw [Reads8, s.readSysReg_mpuAr h hn, hn]
    simp [ifUnit, listed, mpuRegions, h]
  · have hn : (BitVec.ofNat 8 (88 + i)).toNat = 88 + i := by simp; omega
    rw [Reads8, s.readSysReg_mpuPsr h hn, hn]
    simp [ifUnit, listed, mpuRegions, h]
  · have hn : (BitVec.ofNat 8 (192 + i)).toNat = 192 + i := by simp; omega
    rw [Reads8, s.readSysReg_impl h hn, hn]; rfl
  · exact s.readSysReg_reserved (by simp; omega)

/-! ## What a write leaves -/

/-- What a register that exists and holds `old` holds after a write of `v`. -/
def State.storedSysReg (s : State) (n : BitVec 8) (old v : Word) : Word :=
  let k := n.toNat
  if k = 0 then setBit (v &&& srImplemented) bitSS (s.srBit bitSS)
  else if k = 3 then s.cpucrAfter v
  else if k = 72 then v &&& 0xFFFFFF1B#32
  else if k = 78 then (s.perf.writePccr v).pccr
  else if 80 ≤ k ∧ k ≤ 87 then v &&& 0xFFFFF03F#32
  else if 88 ≤ k ∧ k ≤ 95 then v &&& 0x0000FFFF#32
  else if 96 ≤ k ∧ k ≤ 99 then v &&& 0x000000FF#32
  else if k = 102 then v &&& 0x00000001#32
  else if (103 ≤ k ∧ k ≤ 107) ∨ k = 110 ∨ k = 111 then (if s.srBit bitSS then v else old)
  else if 192 ≤ k then Config.implStored n old v
  else if k ∈ [64, 65, 73, 74, 79, 108, 109] then old
  else v

/-- `t` has the physical registers of `s`, its memory and its core. -/
structure KeepsMachine (s t : State) : Prop where
  pc : t.pc = s.pc
  shared : t.shared = s.shared
  int0 : t.int0 = s.int0
  int1 : t.int1 = s.int1
  int2 : t.int2 = s.int2
  int3 : t.int3 = s.int3
  spApp : t.spApp = s.spApp
  spSys : t.spSys = s.spSys
  spSec : t.spSec = s.spSec
  mem : t.mem = s.mem
  cfg : t.cfg = s.cfg
  busErr : t.busErr = s.busErr
  busErrDue : t.busErrDue = s.busErrDue
  ocdStopped : t.ocdStopped = s.ocdStopped
  now : t.now = s.now
  env : t.env = s.env
  taken : t.taken = s.taken

theorem KeepsMachine.refl (s : State) : KeepsMachine s s := by constructor <;> rfl

theorem KeepsMachine.readPhys {s t : State} (h : KeepsMachine s t) (p : PhysReg) : t.readPhys p = s.readPhys p := by
  cases p with
  | pc => exact h.pc
  | spApp => exact h.spApp
  | spSys => exact h.spSys
  | spSec => exact h.spSec
  | bank c i => cases c <;> simp [State.readPhys, State.bank, h.shared, h.int0, h.int1, h.int2, h.int3]

theorem KeepsMachine.sameCore {s t : State} (h : KeepsMachine s t) : SameCore s t :=
  ⟨h.cfg, h.busErr, h.busErrDue, h.ocdStopped, h.now, h.env, h.taken⟩

theorem KeepsMachine.sameMem {s t : State} (h : KeepsMachine s t) : SameMem s t := fun _ => by rw [State.byteAt, State.byteAt, h.mem]

/-- `t` is `s` after a write of `v` to system register `n`: the register holds what is stored, the others read as before but for the side
effects of PCCR and TLBEHI, and a register that does not exist is not written (48_system_coprocessor_java.md R914). -/
structure SysWrite (s t : State) (n : BitVec 8) (v : Word) : Prop where
  keeps : KeepsMachine s t
  sr : n ≠ 0#8 → t.sr = s.sr
  here : t.readSysReg n = (s.readSysReg n).map (s.storedSysReg n · v)
  others : ∀ m : BitVec 8, m ≠ n → (n = 78#8 → m ∉ [75#8, 76#8, 77#8]) → (n = 68#8 → m ∉ [73#8, 74#8]) →
    t.readSysReg m = s.readSysReg m
  absent : s.readSysReg n = none → t = s

/-- The number is `c` or another one. -/
theorem SysWrite.number {s t t' : State} {n : BitVec 8} {v : Word} {c : Nat} (hpos : n = BitVec.ofNat 8 c → SysWrite s t n v)
    (hneg : n.toNat ≠ c → SysWrite s t' n v) : SysWrite s (if n.toNat = c then t else t') n v :=
  iteInduction (motive := (SysWrite s · n v)) (fun h => hpos (by rw [← h, BitVec.ofNat_toNat, BitVec.setWidth_eq])) hneg

/-- The number is in a range or not. -/
theorem SysWrite.range {s t t' : State} {n : BitVec 8} {v : Word} {p : Prop} [Decidable p] (hpos : p → SysWrite s t n v)
    (hneg : ¬p → SysWrite s t' n v) : SysWrite s (if p then t else t') n v :=
  iteInduction (motive := (SysWrite s · n v)) hpos hneg

/-- No write at all, of a register that keeps its value. -/
theorem SysWrite.unwritten {s : State} {n : BitVec 8} {v : Word} (h : ∀ old, s.readSysReg n = some old → s.storedSysReg n old v = old) :
    SysWrite s s n v where
  keeps := .refl s
  sr _ := rfl
  here := by
    cases hr : s.readSysReg n with
    | none => rfl
    | some old => rw [Option.map_some, h old hr]
  others _ _ _ _ := rfl
  absent _ := rfl

/-- A write where `ok`, of a register that exists where `ok`. -/
theorem SysWrite.of_reads {s t : State} {n : BitVec 8} {v old : Word} {ok : Bool} (keeps : KeepsMachine s t) (sr : n ≠ 0#8 → t.sr = s.sr)
    (others : ∀ m : BitVec 8, m ≠ n → (n = 78#8 → m ∉ [75#8, 76#8, 77#8]) → (n = 68#8 → m ∉ [73#8, 74#8]) →
      t.readSysReg m = s.readSysReg m)
    (before : s.readSysReg n = ifUnit ok old) (after : t.readSysReg n = ifUnit ok (s.storedSysReg n old v)) :
    SysWrite s (s.writeIf ok t) n v := by
  cases ok with
  | false => exact .unwritten fun w hw => by simp [before, ifUnit] at hw
  | true => exact ⟨keeps, sr, by simp [State.writeIf, before, after, ifUnit], others, by simp [before, ifUnit]⟩

/-- A write of register `c` that changes one field and no other, where the register exists. Given the two states, each hypothesis holds by
their shape and that of `readSysReg`, so each is given its proof here. -/
theorem SysWrite.of_field {s t : State} {c : Nat} {v old : Word} {ok : Bool}
    (before : s.readSysReg (BitVec.ofNat 8 c) = ifUnit ok old := by rfl)
    (after : t.readSysReg (BitVec.ofNat 8 c) = ifUnit ok (s.storedSysReg (BitVec.ofNat 8 c) old v) := by rfl)
    (keeps : KeepsMachine s t := by constructor <;> rfl) (sr : t.sr = s.sr := by rfl)
    (others : ∀ m : BitVec 8, m.toNat ≠ c → t.readSysReg m = s.readSysReg m := by
      intro m hm
      simp only [State.readSysReg, if_neg hm] <;> rfl) :
    SysWrite s (s.writeIf ok t) (BitVec.ofNat 8 c) v :=
  .of_reads keeps (fun _ => sr) (fun m hm _ _ => others m fun e => hm (by rw [← e, BitVec.ofNat_toNat, BitVec.setWidth_eq])) before after

/-- A write of a secure register, which needs SR[SS] set (61_timers_counters_secure_state.md R1173). -/
theorem SysWrite.of_secure {s t : State} {c : Nat} {v old : Word} {ok : Bool}
    (stored : s.storedSysReg (BitVec.ofNat 8 c) old v = if s.srBit bitSS then v else old := by rfl)
    (before : s.readSysReg (BitVec.ofNat 8 c) = ifUnit ok old := by rfl)
    (after : t.readSysReg (BitVec.ofNat 8 c) = ifUnit ok v := by rfl)
    (keeps : KeepsMachine s t := by constructor <;> rfl) (sr : t.sr = s.sr := by rfl)
    (others : ∀ m : BitVec 8, m.toNat ≠ c → t.readSysReg m = s.readSysReg m := by
      intro m hm
      simp only [State.readSysReg, if_neg hm] <;> rfl) :
    SysWrite s (s.writeIf (ok && s.srBit bitSS) t) (BitVec.ofNat 8 c) v := by
  cases hss : s.srBit bitSS with
  | true =>
    rw [hss, if_pos rfl] at stored
    rw [Bool.and_true]
    exact .of_field before (by rw [stored]; exact after) keeps sr others
  | false =>
    rw [Bool.and_false]
    refine .unwritten fun w hw => ?_
    rw [hss, if_neg Bool.false_ne_true] at stored
    cases ok with
    | false => rw [before] at hw; cases hw
    | true =>
      obtain rfl : old = w := by rw [before] at hw; exact Option.some.inj hw
      exact stored

/-! ### The registers in a row -/

theorem getElem_setAt {α : Type} {n : Nat} (x : Vector α n) (i : Nat) (v : α) {j : Nat} (hj : j < n) :
    (setAt x i v)[j] = if i = j then v else x[j] := by
  unfold setAt
  split
  · exact Vector.getElem_set _ _
  · next h => rw [if_neg (by omega)]

/-- Only JAVA_LV0 to JAVA_LV7 are read from the local variables. -/
theorem State.readSysReg_of_lv (s : State) (lv : Vector Word 8) {m : BitVec 8} (hm : m.toNat < 23 ∨ 30 < m.toNat) :
    ({ s with java := { s.java with lv := lv } } : State).readSysReg m = s.readSysReg m := by
  unfold State.readSysReg
  iterate 23 refine ite_congr rfl (fun _ => rfl) fun _ => ?_
  exact ite_congr rfl (fun _ => by omega) fun _ => rfl

/-- Only registers 80 to 87 are read from the MPUARs. -/
theorem State.readSysReg_of_mpuAr (s : State) (ar : Vector Word 8) {m : BitVec 8} (hm : ¬ (80 ≤ m.toNat ∧ m.toNat ≤ 87)) :
    ({ s with mpu := { s.mpu with ar := ar } } : State).readSysReg m = s.readSysReg m := by
  simp only [State.readSysReg, if_neg hm]
  rfl

/-- Only registers 88 to 95 are read from the MPUPSRs. -/
theorem State.readSysReg_of_mpuPsr (s : State) (psr : Vector Word 8) {m : BitVec 8} (hm : ¬ (88 ≤ m.toNat ∧ m.toNat ≤ 95)) :
    ({ s with mpu := { s.mpu with psr := psr } } : State).readSysReg m = s.readSysReg m := by
  simp only [State.readSysReg, if_neg hm]
  rfl

/-- Only registers 192 to 255 are read from the registers of the implementation. -/
theorem State.readSysReg_of_impl (s : State) (impl : Vector Word 64) {m : BitVec 8} (hm : ¬ 192 ≤ m.toNat) :
    ({ s with impl := impl } : State).readSysReg m = s.readSysReg m := by
  simp only [State.readSysReg, if_neg hm]
  rfl

/-- A write of one register of a row that is read from a vector. -/
theorem SysWrite.of_row {s t : State} {n : BitVec 8} {v w : Word} {first count : Nat} {x : Vector Word count} {exist : BitVec 8 → Bool}
    (low : first ≤ n.toNat) (high : n.toNat < first + count) (stored : s.storedSysReg n (x[n.toNat - first]'(by omega)) v = w)
    (before : ∀ {m : BitVec 8} {i : Nat} (hi : i < count), m.toNat = first + i → s.readSysReg m = ifUnit (exist m) x[i])
    (after : ∀ {m : BitVec 8} {i : Nat} (hi : i < count), m.toNat = first + i →
      t.readSysReg m = ifUnit (exist m) (setAt x (n.toNat - first) w)[i])
    (outside : ∀ m : BitVec 8, m.toNat < first ∨ first + count ≤ m.toNat → t.readSysReg m = s.readSysReg m)
    (keeps : KeepsMachine s t := by constructor <;> rfl) (sr : t.sr = s.sr := by rfl) :
    SysWrite s (s.writeIf (exist n) t) n v := by
  have hi : n.toNat - first < count := by omega
  refine .of_reads keeps (fun _ => sr) (fun m hm _ _ => ?_) (before hi (by omega)) ?_
  · by_cases hr : m.toNat < first ∨ first + count ≤ m.toNat
    · exact outside m hr
    · have hne : n.toNat - first ≠ m.toNat - first := fun e => hm (BitVec.eq_of_toNat_eq (by omega))
      rw [before (i := m.toNat - first) (by omega) (by omega), after (i := m.toNat - first) (by omega) (by omega), getElem_setAt, if_neg hne]
  · rw [after hi (by omega), getElem_setAt, if_pos rfl, stored]

theorem SysWrite.lv (s : State) (n : BitVec 8) (v : Word) (low : 23 ≤ n.toNat) (high : n.toNat ≤ 30) :
    SysWrite s (s.writeIf (s.cfg.hasJava && listed s.cfg n.toNat) { s with java := { s.java with lv := setAt s.java.lv (n.toNat - 23) v } })
      n v :=
  .of_row (exist := fun m => s.cfg.hasJava && listed s.cfg m.toNat) low (by omega)
    (by simp (disch := omega) [State.storedSysReg, if_neg]) s.readSysReg_lv
    (fun hi hm => State.readSysReg_lv _ hi hm) fun m hm => s.readSysReg_of_lv _ (by omega)

theorem SysWrite.mpuAr (s : State) (n : BitVec 8) (v : Word) (h : 80 ≤ n.toNat ∧ n.toNat ≤ 87) :
    SysWrite s (s.writeIf (s.cfg.mmut == .mpu && listed s.cfg n.toNat && n.toNat - 80 < mpuRegions s.cfg)
      { s with mpu := { s.mpu with ar := setAt s.mpu.ar (n.toNat - 80) (v &&& 0xFFFFF03F#32) } }) n v :=
  .of_row (exist := fun m => s.cfg.mmut == .mpu && listed s.cfg m.toNat && m.toNat - 80 < mpuRegions s.cfg) h.1 (by omega)
    (by simp (disch := omega) only [State.storedSysReg, if_neg, if_pos]) s.readSysReg_mpuAr
    (fun hi hm => State.readSysReg_mpuAr _ hi hm) fun m hm => s.readSysReg_of_mpuAr _ (by omega)

theorem SysWrite.mpuPsr (s : State) (n : BitVec 8) (v : Word) (h : 88 ≤ n.toNat ∧ n.toNat ≤ 95) :
    SysWrite s (s.writeIf (s.cfg.mmut == .mpu && listed s.cfg n.toNat && n.toNat - 88 < mpuRegions s.cfg)
      { s with mpu := { s.mpu with psr := setAt s.mpu.psr (n.toNat - 88) (v &&& 0x0000FFFF#32) } }) n v :=
  .of_row (exist := fun m => s.cfg.mmut == .mpu && listed s.cfg m.toNat && m.toNat - 88 < mpuRegions s.cfg) h.1 (by omega)
    (by simp (disch := omega) only [State.storedSysReg, if_neg, if_pos]) s.readSysReg_mpuPsr
    (fun hi hm => State.readSysReg_mpuPsr _ hi hm) fun m hm => s.readSysReg_of_mpuPsr _ (by omega)

theorem SysWrite.impl (s : State) (n : BitVec 8) (v : Word) (h : 192 ≤ n.toNat) :
    SysWrite s (s.writeIf (listed s.cfg n.toNat)
      { s with impl := setAt s.impl (n.toNat - 192) (Config.implStored n (s.impl.toList.getD (n.toNat - 192) 0#32) v) }) n v := by
  have hi : n.toNat - 192 < 64 := by omega
  have old : s.impl.toList.getD (n.toNat - 192) 0#32 = s.impl[n.toNat - 192] := by simp [hi]
  rw [old]
  exact .of_row (w := Config.implStored n s.impl[n.toNat - 192] v) (exist := fun m => listed s.cfg m.toNat) h (by omega)
    (by simp (disch := omega) only [State.storedSysReg, if_neg, if_pos]) s.readSysReg_impl
    (fun hi hm => by rw [State.readSysReg_impl _ hi hm]) fun m hm => s.readSysReg_of_impl _ (by omega)

/-! ### The registers whose write has side effects -/

theorem SysWrite.sr_written (s : State) (v : Word) : SysWrite s (s.writeSr v) 0#8 v :=
  .of_reads (ok := true) (by constructor <;> rfl) (fun h => absurd rfl h)
    (fun m hm _ _ => by
      have h0 : ¬ m.toNat = 0 := fun e => hm (BitVec.eq_of_toNat_eq e)
      simp only [State.readSysReg, if_neg h0]
      rfl) rfl rfl

/-- TLBEHI[I] chooses the Accessed bits that registers 73 and 74 show. -/
theorem SysWrite.tlbehi (s : State) (v : Word) :
    SysWrite s (s.writeIf (hasMmu s.cfg && listed s.cfg 68) { s with mmu := { s.mmu with tlbehi := v } }) 68#8 v :=
  .of_reads (by constructor <;> rfl) (fun _ => rfl)
    (fun m hm _ hm' => by
      have h68 : ¬ m.toNat = 68 := fun e => hm (BitVec.eq_of_toNat_eq e)
      have h73 : ¬ m.toNat = 73 := fun e => hm' rfl (by rw [BitVec.eq_of_toNat_eq (y := 73#8) e]; simp)
      have h74 : ¬ m.toNat = 74 := fun e => hm' rfl (by rw [BitVec.eq_of_toNat_eq (y := 74#8) e]; simp)
      simp only [State.readSysReg, if_neg h68, if_neg h73, if_neg h74]) rfl rfl

theorem getElem_invalidateTlb (x : Vector TlbEntry 64) {i : Nat} (hi : i < 64) : (invalidateTlb x)[i] = { x[i] with v := false } := by
  simp [invalidateTlb]

/-- Each entry after a write of MMUCR: invalid where I is written (20_memory.md R258). -/
theorem MmuRegs.getElem_writeMmucr (m : MmuRegs) (v : Word) {i : Nat} (hi : i < 64) :
    (m.writeMmucr v).itlb[i] = { m.itlb[i] with v := m.itlb[i].v && !v.getLsbD 2 } ∧
    (m.writeMmucr v).dtlb[i] = { m.dtlb[i] with v := m.dtlb[i].v && !v.getLsbD 2 } := by
  cases h : v.getLsbD 2 <;> simp only [MmuRegs.writeMmucr, h] <;> simp [getElem_invalidateTlb]

/-- The registers beside MMUCR after a write of it, and MMUCR itself: I and the reserved bits are not stored (20_memory.md R245). -/
theorem MmuRegs.writeMmucr_regs (m : MmuRegs) (v : Word) :
    (m.writeMmucr v).tlbehi = m.tlbehi ∧ (m.writeMmucr v).tlbelo = m.tlbelo ∧ (m.writeMmucr v).ptbr = m.ptbr ∧
    (m.writeMmucr v).tlbear = m.tlbear ∧ (m.writeMmucr v).mmucr = v &&& 0xFFFFFF1B#32 := by
  unfold MmuRegs.writeMmucr
  split <;> exact ⟨rfl, rfl, rfl, rfl, rfl⟩

/-- Invalid entries keep their Accessed bits. -/
theorem State.accessedBits_writeMmucr (s : State) (v : Word) {base : Nat} (hb : base ≤ 32) :
    ({ s with mmu := s.mmu.writeMmucr v } : State).accessedBits base = s.accessedBits base := by
  refine BitVec.eq_of_getLsbD_eq fun k hk => ?_
  rw [show k = 31 - (31 - k) by omega, State.getLsbD_accessedBits _ (by omega) (by omega), State.getLsbD_accessedBits _ (by omega) (by omega),
    (s.mmu.writeMmucr_regs v).1]
  congr 1
  unfold State.tlb
  split
  · rw [(s.mmu.getElem_writeMmucr v _).1]
  · rw [(s.mmu.getElem_writeMmucr v _).2]

theorem SysWrite.mmucr (s : State) (v : Word) :
    SysWrite s (s.writeIf (hasMmu s.cfg && listed s.cfg 72) { s with mmu := s.mmu.writeMmucr v }) 72#8 v := by
  obtain ⟨hhi, hlo, hptbr, hear, hmmucr⟩ := s.mmu.writeMmucr_regs v
  refine .of_reads (by constructor <;> rfl) (fun _ => rfl) (fun m hm _ _ => ?_) rfl (congrArg (ifUnit _) hmmucr)
  have h72 : ¬ m.toNat = 72 := fun e => hm (BitVec.eq_of_toNat_eq e)
  simp only [State.readSysReg, if_neg h72, s.accessedBits_writeMmucr v (Nat.zero_le _), s.accessedBits_writeMmucr v (Nat.le_refl _),
    hhi, hlo, hptbr, hear]

theorem SysWrite.pccr (s : State) (v : Word) :
    SysWrite s (s.writeIf (s.cfg.hasPerf && listed s.cfg 78) { s with perf := s.perf.writePccr v }) 78#8 v :=
  .of_reads (by constructor <;> rfl) (fun _ => rfl)
    (fun m hm hm' _ => by
      have h78 : ¬ m.toNat = 78 := fun e => hm (BitVec.eq_of_toNat_eq e)
      have h75 : ¬ m.toNat = 75 := fun e => hm' rfl (by rw [BitVec.eq_of_toNat_eq (y := 75#8) e]; simp)
      have h76 : ¬ m.toNat = 76 := fun e => hm' rfl (by rw [BitVec.eq_of_toNat_eq (y := 76#8) e]; simp)
      have h77 : ¬ m.toNat = 77 := fun e => hm' rfl (by rw [BitVec.eq_of_toNat_eq (y := 77#8) e]; simp)
      simp only [State.readSysReg, if_neg h75, if_neg h76, if_neg h77, if_neg h78]
      rfl) rfl rfl

theorem State.storedSysReg_readOnly (s : State) {n : BitVec 8} (old v : Word) (h : n.toNat ∈ [64, 65, 73, 74, 79, 108, 109]) :
    s.storedSysReg n old v = old := by
  simp only [List.mem_cons, List.not_mem_nil, or_false] at h
  unfold State.storedSysReg
  rcases h with h | h | h | h | h | h | h <;> rw [h] <;> rfl

/-- The system registers that no write reaches (10_state.md R146). -/
theorem State.writeSysReg_readOnly (s : State) {n : BitVec 8} (v : Word) (h : n ∈ [64#8, 65#8, 73#8, 74#8, 79#8, 108#8, 109#8]) :
    s.writeSysReg n v = s := by
  revert n
  simp only [List.forall_mem_cons, List.not_mem_nil, false_imp_iff, implies_true, and_true]
  exact ⟨rfl, rfl, rfl, rfl, rfl, rfl, rfl⟩

/-- Every write, register by register in the order of `writeSysReg`. -/
theorem State.sysWrite (s : State) (n : BitVec 8) (v : Word) : SysWrite s (s.writeSysReg n v) n v := by
  unfold State.writeSysReg
  refine .number (fun h => h ▸ .sr_written s v) fun _ => ?_
  -- EVBA, ACBA and CPUCR, which every core has
  iterate 3
    refine .number (fun h => ?_) fun _ => ?_
    · subst h; exact SysWrite.of_field (ok := true)
  -- ECR, the return registers, JECR and JOSP
  iterate 19
    refine .number (fun h => ?_) fun _ => ?_
    · subst h; exact .of_field
  refine .range (fun h => .lv s n v (by omega) h) fun _ => ?_
  -- JTBA and JBCR
  iterate 2
    refine .number (fun h => ?_) fun _ => ?_
    · subst h; exact .of_field
  -- COUNT and COMPARE, which every core has
  iterate 2
    refine .number (fun h => ?_) fun _ => ?_
    · subst h; exact SysWrite.of_field (ok := true)
  refine .number (fun h => h ▸ .tlbehi s v) fun _ => ?_
  -- TLBELO, PTBR and TLBEAR
  iterate 3
    refine .number (fun h => ?_) fun _ => ?_
    · subst h; exact .of_field
  refine .number (fun h => h ▸ .mmucr s v) fun _ => ?_
  -- PCCNT, PCNT0 and PCNT1
  iterate 3
    refine .number (fun h => ?_) fun _ => ?_
    · subst h; exact .of_field
  refine .number (fun h => h ▸ .pccr s v) fun _ => ?_
  refine .range (.mpuAr s n v) fun _ => ?_
  refine .range (.mpuPsr s n v) fun _ => ?_
  -- the MPU's attribute and permission registers, and MPUCR
  iterate 7
    refine .number (fun h => ?_) fun _ => ?_
    · subst h; exact .of_field
  -- the secure registers
  iterate 7
    refine .number (fun h => ?_) fun _ => ?_
    · subst h; exact .of_secure
  refine .range (.impl s n v) fun _ => .unwritten fun old hold => ?_
  obtain hro | hreserved : n.toNat ∈ [64, 65, 73, 74, 79, 108, 109] ∨ (33 ≤ n.toNat ∧ n.toNat < 64) ∨ (112 ≤ n.toNat ∧ n.toNat < 192) := by
    simp; omega
  · exact s.storedSysReg_readOnly old v hro
  · rw [s.readSysReg_reserved hreserved] at hold; cases hold

/-! ## The clauses of mtsr -/

theorem ifUnit_eq_some {b : Bool} {w x : Word} : ifUnit b w = some x ↔ b = true ∧ w = x := by
  cases b <;> simp [ifUnit]

/-- The write of MMUCR, where it exists. -/
theorem State.writeSysReg_mmucr (s : State) {old : Word} (v : Word) (h : s.readSysReg 72#8 = some old) :
    s.writeSysReg 72#8 v = { s with mmu := s.mmu.writeMmucr v } :=
  congrArg (fun b => s.writeIf b { s with mmu := s.mmu.writeMmucr v })
    (ifUnit_eq_some.mp (show ifUnit (hasMmu s.cfg && listed s.cfg 72) s.mmu.mmucr = _ from h)).1

/-- The write of PCCR, where it exists. -/
theorem State.writeSysReg_pccr (s : State) {old : Word} (v : Word) (h : s.readSysReg 78#8 = some old) :
    s.writeSysReg 78#8 v = { s with perf := s.perf.writePccr v } :=
  congrArg (fun b => s.writeIf b { s with perf := s.perf.writePccr v })
    (ifUnit_eq_some.mp (show ifUnit (s.cfg.hasPerf && listed s.cfg 78) s.perf.pccr = _ from h)).1

/-- In the nonsecure world a secure register is not written (61_timers_counters_secure_state.md R1173). -/
theorem State.writeSysReg_secure_nonsecure (s : State) {n : BitVec 8} (v : Word) (hss : s.srBit bitSS = false)
    (h : n ∈ [103#8, 104#8, 105#8, 106#8, 107#8, 110#8, 111#8]) : s.writeSysReg n v = s := by
  have locked (ok : Bool) (t : State) : s.writeIf (ok && s.srBit bitSS) t = s := by rw [hss, Bool.and_false]; rfl
  revert n
  simp only [List.forall_mem_cons, List.not_mem_nil, false_imp_iff, implies_true, and_true]
  exact ⟨locked _ _, locked _ _, locked _ _, locked _ _, locked _ _, locked _ _, locked _ _⟩

theorem State.storedSysReg_secure (s : State) {n : BitVec 8} (old v : Word) (hss : s.srBit bitSS = true)
    (h : n ∈ [103#8, 104#8, 105#8, 106#8, 107#8, 110#8, 111#8]) : s.storedSysReg n old v = v := by
  have unlocked : (if s.srBit bitSS then v else old) = v := if_pos hss
  revert n
  simp only [List.forall_mem_cons, List.not_mem_nil, false_imp_iff, implies_true, and_true]
  exact ⟨unlocked, unlocked, unlocked, unlocked, unlocked, unlocked, unlocked⟩

theorem storedIn_and {v mask : Word} {stored : Nat → Bool} (h : ∀ k, k < 32 → mask.getLsbD k = stored k) :
    StoredIn (v &&& mask) v stored := fun k hk => by
  rw [BitVec.getLsbD_and, h k hk, Bool.and_comm]

/-- PCCR bit by bit: F is cleared by ones, C, R and the reserved bits are not stored (61_timers_counters_secure_state.md R1163). -/
theorem PerfRegs.getLsbD_writePccr (p : PerfRegs) (v : Word) {k : Nat} (hk : k < 32) :
    (p.writePccr v).pccr.getLsbD k = if 8 ≤ k ∧ k ≤ 10 then p.pccr.getLsbD k && !v.getLsbD k
      else (k ∈ [0, 3, 4, 5, 6] ∨ (12 ≤ k ∧ k ≤ 23)) && v.getLsbD k := by
  have flags : ∀ k, k < 32 → (0x00000700#32).getLsbD k = decide (8 ≤ k ∧ k ≤ 10) := by decide
  have plain : ∀ k, k < 32 → (pccrStored &&& 0xFFFFF8FF#32).getLsbD k = decide (k ∈ [0, 3, 4, 5, 6] ∨ (12 ≤ k ∧ k ≤ 23)) := by decide
  rw [show (p.writePccr v).pccr = (v &&& (pccrStored &&& 0xFFFFF8FF#32)) ||| (p.pccr &&& ~~~v &&& 0x00000700#32) from rfl,
    BitVec.getLsbD_or, BitVec.getLsbD_and, plain k hk, BitVec.getLsbD_and, flags k hk, BitVec.getLsbD_and, BitVec.getLsbD_not]
  by_cases hf : 8 ≤ k ∧ k ≤ 10
  · have hp : ¬ (k ∈ [0, 3, 4, 5, 6] ∨ (12 ≤ k ∧ k ≤ 23)) := by simp; omega
    rw [if_pos hf, decide_eq_false hp, decide_eq_true hf, decide_eq_true hk]
    simp
  · rw [if_neg hf, decide_eq_false hf, Bool.and_false, Bool.or_false, Bool.and_comm]

/-- The write of a register that exists and is not plain storage. -/
theorem leavesWritten (s : State) {n : BitVec 8} {old : Word} (v : Word) (h : s.readSysReg n = some old) :
    LeavesWritten s ((s.advance 4#32).writeSysReg n v) n v := by
  let u := s.advance 4#32
  have hu : u.readSysReg n = some old := h
  have here : (u.writeSysReg n v).readSysReg n = some (u.storedSysReg n old v) := by rw [(u.sysWrite n v).here, hu, Option.map_some]
  refine ⟨?mmucr, ?pccr, fun i hi hn => ?ar, fun i hi hn => ?psr, ?cra, ?crb, ?bra, ?brb, ?cr,
    fun hn => ⟨fun hss => ?secure, fun hss => ?nonsecure⟩, ?cpucr, ?impl⟩
  case mmucr =>
    rintro rfl
    rw [u.writeSysReg_mmucr v hu]
    obtain ⟨-, -, -, -, hmmucr⟩ := u.mmu.writeMmucr_regs v
    exact ⟨hmmucr ▸ storedIn_and (by decide), fun k hk => u.mmu.getElem_writeMmucr v hk⟩
  case pccr =>
    rintro rfl
    rw [u.writeSysReg_pccr v hu]
    exact ⟨fun k hk => u.perf.getLsbD_writePccr v hk, by rw [Bool.or_comm]; rfl, rfl, rfl⟩
  case ar =>
    have hk : n.toNat = 80 + i := by rw [hn]; simp; omega
    rw [State.readSysReg_mpuAr _ hi hk, ifUnit_eq_some] at here
    rw [here.2]
    simp (disch := omega) only [State.storedSysReg, if_neg, if_pos]
    exact storedIn_and (by decide)
  case psr =>
    have hk : n.toNat = 88 + i := by rw [hn]; simp; omega
    rw [State.readSysReg_mpuPsr _ hi hk, ifUnit_eq_some] at here
    rw [here.2]
    simp (disch := omega) only [State.storedSysReg, if_neg, if_pos]
    exact storedIn_and (by decide)
  case cra => rintro rfl; exact (ifUnit_eq_some.mp here).2 ▸ storedIn_and (by decide)
  case crb => rintro rfl; exact (ifUnit_eq_some.mp here).2 ▸ storedIn_and (by decide)
  case bra => rintro rfl; exact (ifUnit_eq_some.mp here).2 ▸ storedIn_and (by decide)
  case brb => rintro rfl; exact (ifUnit_eq_some.mp here).2 ▸ storedIn_and (by decide)
  case cr => rintro rfl; exact (ifUnit_eq_some.mp here).2 ▸ storedIn_and (by decide)
  case secure => rw [here, u.storedSysReg_secure old v hss hn]
  case nonsecure => exact u.writeSysReg_secure_nonsecure v hss hn
  case cpucr =>
    rintro rfl hown
    have hc : (u.writeSysReg 3#8 v).ctl.cpucr = u.cpucrAfter v := rfl
    rw [hc, State.cpucrAfter, State.advance_cfg, hown]
    rfl
  case impl =>
    intro hk w hw
    obtain rfl : old = w := Option.some.inj (h.symm.trans hw)
    rw [here]
    simp (disch := omega) only [State.storedSysReg, if_neg, if_pos]

/-- What a write of a register that is plain storage stores. -/
theorem State.storedSysReg_plain (s : State) {n : BitVec 8} (old v : Word) (h : plainSysReg s.cfg n.toNat = true) :
    s.storedSysReg n old v = v := by
  simp only [plainSysReg, Bool.or_eq_true, Bool.and_eq_true, decide_eq_true_eq, beq_iff_eq] at h
  by_cases h3 : n.toNat = 3
  · have hc : s.cfg.cpucr = .storage := by simpa [h3] using h
    simp [State.storedSysReg, h3, State.cpucrAfter, hc]
  · simp (disch := omega) only [State.storedSysReg, if_neg]
    exact if_neg fun hm => by simp at hm; omega

/-- A register that is plain storage exists. -/
theorem State.readSysReg_plain (s : State) {n : BitVec 8} (h : plainSysReg s.cfg n.toNat = true) : ∃ old, s.readSysReg n = some old := by
  have listed_n : s.cfg.sysRegs.contains (BitVec.ofNat 8 n.toNat) = listed s.cfg n.toNat := rfl
  simp only [plainSysReg, listed_n, Bool.or_eq_true, Bool.and_eq_true, decide_eq_true_eq] at h
  rcases h with ((((((((((h | h) | ⟨h, -⟩) | ⟨h, ho⟩) | ⟨⟨hl, hu⟩ | ⟨hl, hu⟩, hb⟩) | ⟨h | h, ho⟩) | ⟨⟨⟨hl, hu⟩, hj⟩, ho⟩) | h) | h) |
    ⟨⟨⟨hl, hu⟩, hm⟩, ho⟩) | ⟨⟨⟨hl, hu⟩, hp⟩, ho⟩) | ⟨⟨h | h, hm⟩, ho⟩
  iterate 3 · simp [State.readSysReg, h]
  · rw [h] at ho; simp [State.readSysReg, h, ifUnit, ho]
  iterate 2 · interval_cases hn : n.toNat <;> simp [State.readSysReg, hn, ifUnit, hb]
  iterate 2 · rw [h] at ho; simp [State.readSysReg, h, ifUnit, ho]
  · interval_cases hn : n.toNat <;> simp [State.readSysReg, hn, ifUnit, hj, ho]
  iterate 2 · simp [State.readSysReg, h]
  · interval_cases hn : n.toNat <;> simp [State.readSysReg, hn, ifUnit, hm, ho]
  · interval_cases hn : n.toNat <;> simp [State.readSysReg, hn, ifUnit, hp, ho]
  iterate 2 · rw [h] at ho; simp [State.readSysReg, h, ifUnit, hm, ho]

/-! ## mfsr and mtsr -/

/-- An instruction that writes R`d` and nothing else. -/
theorem State.finishReg_noFlags (s : State) (i : Instr) (d : RegNo) (v : Word) {len : Word} (hlen : s.pc + len = s.after i) :
    Gives (s.finishReg len d v noFlags) fun t => Writes i s t d v ∧ SameRegs s t [d] ∧ SameSr s t [] ∧ SameMem s t ∧ SameSystem s t := by
  refine ⟨_, rfl, ?_, fun p hp hpc hd => ?_, fun n _ _ => ?_, fun a => ?_, ?_⟩
  · by_cases h15 : d = 15#4
    · subst h15; rw [Writes, if_pos rfl]; rfl
    · rw [Writes, if_neg h15, State.getReg_setFlags, State.getReg_setReg_same _ _ h15, State.setFlags_pc, State.setReg_keeps_pc _ _ h15]
      exact ⟨rfl, hlen⟩
  · have hne : p ≠ (s.advance len).phys d := hd d (List.mem_singleton_self d)
    rw [State.readPhys_setFlags, State.setReg, State.readPhys_writePhys_other _ _ (State.phys_real _ d) hp hne, State.readPhys_advance _ _ _ hpc]
  · simp [State.srBit]
  · simp [State.byteAt]
  · simp [SameSystem]

theorem exec_mfsr (rd : RegNo) (n : BitVec 8) (s : State) : exec (.mfsr rd n) s = execMfsr rd n s := by rfl

theorem exec_mtsr (rs : RegNo) (n : BitVec 8) (s : State) : exec (.mtsr rs n) s = execMtsr rs n s := by rfl

theorem State.maySysReg_of {s : State} {n : BitVec 8} (h : n = 21#8 ∨ n = 22#8 ∨ s.privileged = true) : s.maySysReg n = true := by
  simpa [State.maySysReg, or_assoc] using h

theorem mfsr_gives (s : State) {n : BitVec 8} (may : s.maySysReg n = true) (rd : RegNo) : Gives (exec (.mfsr rd n) s) fun t =>
    (∀ v, s.readSysReg n = some v → Writes (.mfsr rd n) s t rd v) ∧ SameRegs s t [rd] ∧ SameSr s t [] ∧ SameMem s t ∧ SameSystem s t := by
  rw [exec_mfsr, execMfsr, requireRight, if_pos may]
  cases hr : s.readSysReg n with
  | some v =>
    obtain ⟨t, ht, hw, rest⟩ := s.finishReg_noFlags (.mfsr rd n) rd v (len := 4#32) rfl
    exact ⟨t, ht, fun w hw' => Option.some.inj hw' ▸ hw, rest⟩
  | none =>
    obtain ⟨t, ht, -, hregs, rest⟩ := (s.drawFree 1).finishReg_noFlags (.mfsr rd n) rd s.free (len := 4#32) rfl
    exact ⟨t, ht, fun _ hv => absurd hv (by simp), hregs, rest⟩

theorem mtsr_gives (s : State) {n : BitVec 8} (may : s.maySysReg n = true) (rs : RegNo) : Gives (exec (.mtsr rs n) s) fun t =>
    t.pc = s.pc + 4#32 ∧ SameRegs s t [] ∧ SameMem s t ∧ SameCore s t ∧
    (plainSysReg s.cfg n.toNat = true → t.readSysReg n = some (s.getReg rs)) ∧
    (s.readSysReg n ≠ none → LeavesWritten s t n (s.getReg rs)) ∧
    (n = 0#8 → ∀ k, k < 31 → t.srBit k = (srImplemented.getLsbD k && (s.getReg rs).getLsbD k)) ∧
    (n ≠ 0#8 → SameSr s t []) ∧
    (n = 67#8 → t.timer.compareIrq = false) ∧
    (∀ m, m ≠ n → (n = 78#8 → m ∉ [75#8, 76#8, 77#8]) → (n = 68#8 → m ∉ [73#8, 74#8]) → t.readSysReg m = s.readSysReg m) ∧
    ((s.readSysReg n = none ∨ n ∈ [64#8, 65#8, 73#8, 74#8, 79#8, 108#8, 109#8]) → t = s.advance 4#32) := by
  have write := (s.advance 4#32).sysWrite n (s.getReg rs)
  rw [exec_mtsr, execMtsr, requireRight, if_pos may]
  refine ⟨_, rfl, write.keeps.pc, fun p _ hpc _ => ?_, write.keeps.sameMem, write.keeps.sameCore, fun hp => ?_, fun he => ?_, ?_,
    fun h0 k _ _ => ?_, ?_, write.others, ?_⟩
  · rw [write.keeps.readPhys, State.readPhys_advance _ _ _ hpc]
  · obtain ⟨old, hold⟩ := (s.advance 4#32).readSysReg_plain hp
    rw [write.here, hold, Option.map_some, (s.advance 4#32).storedSysReg_plain _ _ hp]
  · obtain ⟨old, hold⟩ := Option.ne_none_iff_exists'.mp he
    exact leavesWritten s _ hold
  · rintro rfl k hk
    have hsr : ((s.advance 4#32).writeSysReg 0#8 (s.getReg rs)).sr = setBit (s.getReg rs &&& srImplemented) bitSS (s.srBit bitSS) := rfl
    rw [State.srBit, hsr, getLsbD_setBit (by omega), if_neg (by simp only [bitSS]; omega), BitVec.getLsbD_and, Bool.and_comm]
  · rw [State.srBit, write.sr h0]; rfl
  · rintro rfl; rfl
  · rintro (hnone | hro)
    · exact write.absent hnone
    · exact State.writeSysReg_readOnly _ _ hro

/-- Settles O53: the reads register by register, mfsr by what it writes, and mtsr by what each write leaves. -/
theorem systemRegisters : Obligations.SystemRegisters := by
  unfold Obligations.SystemRegisters
  exact ⟨registersRead, fun s n h => ⟨mfsr_gives s (State.maySysReg_of h), mtsr_gives s (State.maySysReg_of h)⟩⟩

end Sys2Proof.Machine
end

section
/-! PROOFS. What an operation of the machine preserves: the configuration, the invariant, and the bits SS and T of SR. One relation between two
states says it, and each operation of the model that leads from a state to another has its lemma here. -/

set_option Elab.async false

namespace Sys2Proof.Machine

/-! ## The relation -/

/-- From `s` to `t` the configuration is the same, the invariant is kept, and SR[SS] and SR[T] are as they were but for those that `free`
names. -/
structure Preserves (free : List Nat) (s t : State) : Prop where
  cfg : t.cfg = s.cfg
  inv : s.Inv → t.Inv
  secure : bitSS ∉ free → t.srBit bitSS = s.srBit bitSS
  scratch : bitT ∉ free → t.srBit bitT = s.srBit bitT

variable {free : List Nat} {s t u : State}

theorem Preserves.refl (s : State) : Preserves free s s := ⟨rfl, id, fun _ => rfl, fun _ => rfl⟩

theorem Preserves.trans (h : Preserves free s t) (g : Preserves free t u) : Preserves free s u :=
  ⟨g.cfg.trans h.cfg, g.inv ∘ h.inv, fun hb => (g.secure hb).trans (h.secure hb), fun hb => (g.scratch hb).trans (h.scratch hb)⟩

/-- Where both bits are free, only the configuration and the invariant are left. -/
theorem Preserves.weaken (h : Preserves free s t) : Preserves [bitSS, bitT] s t :=
  ⟨h.cfg, h.inv, fun hb => absurd (by simp) hb, fun hb => absurd (by simp) hb⟩

/-- Only fields outside the invariant change, or the PC, which stays even. Where the two states are given, each hypothesis holds by their
shape. -/
theorem Preserves.of_same (cfg : t.cfg = s.cfg := by rfl) (mem : t.mem = s.mem := by rfl) (sr : t.sr = s.sr := by rfl)
    (mmu : t.mmu = s.mmu := by rfl) (mpu : t.mpu = s.mpu := by rfl) (perf : t.perf = s.perf := by rfl)
    (sleeping : t.sleeping = s.sleeping := by rfl) (hazardLeft : t.hazardLeft = s.hazardLeft := by rfl)
    (pc : s.pc.getLsbD 0 = false → t.pc.getLsbD 0 = false := by exact id) : Preserves free s t where
  cfg := cfg
  inv h :=
    { memory := by rw [mem]; exact h.memory
      pc := pc h.pc
      reserved := by rw [sr]; exact h.reserved
      secure := by rw [State.srBit, sr, cfg]; exact h.secure
      boot := by rw [cfg]; exact h.boot
      mmucr := by rw [mmu]; exact h.mmucr
      regions := by rw [mpu]; exact h.regions
      caching := by rw [mpu]; exact h.caching
      mpucr := by rw [mpu]; exact h.mpucr
      pccr := by rw [perf]; exact h.pccr
      tlbs := by rw [cfg, mmu]; exact h.tlbs
      asleep := by rw [sleeping, cfg]; exact h.asleep
      hazard := by rw [hazardLeft, cfg]; exact h.hazard }
  secure _ := by rw [State.srBit, sr]; rfl
  scratch _ := by rw [State.srBit, sr]; rfl

/-- One of two states, each led to. -/
theorem Preserves.ite {p : Prop} [Decidable p] (ht : p → Preserves free s t) (hu : ¬p → Preserves free s u) :
    Preserves free s (if p then t else u) :=
  iteInduction (motive := Preserves free s) ht hu

/-! ## Masks: the bits of a word that stay 0 -/

/-- A bit outside the mask can be written. -/
theorem setBit_and_eq_zero {w m : Word} {n : Nat} {b : Bool} (hn : m.getLsbD n = false) (h : w &&& m = 0#32) : setBit w n b &&& m = 0#32 := by
  refine BitVec.eq_of_getLsbD_eq fun k hk => ?_
  have hw : (w &&& m).getLsbD k = false := by rw [h]; exact BitVec.getLsbD_zero
  rw [BitVec.getLsbD_and] at hw ⊢
  rw [getLsbD_setBit hk, BitVec.getLsbD_zero]
  split
  · next e => rw [e, hn, Bool.and_false]
  · exact hw

theorem setBitIf_and_eq_zero {w m : Word} {n : Nat} {o : Option Bool} (hn : m.getLsbD n = false) (h : w &&& m = 0#32) :
    setBitIf w n o &&& m = 0#32 := by
  cases o with
  | none => exact h
  | some b => exact setBit_and_eq_zero hn h

/-- A word cut down to a mask that is disjoint from `m`. -/
theorem and_and_eq_zero {w k m : Word} (hk : k &&& m = 0#32) : w &&& k &&& m = 0#32 := by
  rw [BitVec.and_assoc, hk, BitVec.and_zero]

theorem or_and_eq_zero {v w m : Word} : (v ||| w) &&& m = 0#32 ↔ v &&& m = 0#32 ∧ w &&& m = 0#32 := by
  rw [BitVec.and_or_distrib_right, BitVec.or_eq_zero_iff]

theorem and_of_and_eq_zero {w k m : Word} (h : w &&& m = 0#32) : w &&& k &&& m = 0#32 := by
  rw [BitVec.and_assoc, BitVec.and_comm k, ← BitVec.and_assoc, h, BitVec.zero_and]

/-- A field of 6 bits shifted to `n` keeps away from a mask that has none of its places. -/
theorem shifted_and_eq_zero {p : BitVec 6} {n : Nat} {m : Word} (hm : ((0x3F#32 : Word) <<< n) &&& m = 0#32) :
    ((p.setWidth 32 : Word) <<< n) &&& m = 0#32 := by
  have hp : (p.setWidth 32 : Word) = p.setWidth 32 &&& 0x3F#32 := by decide +revert
  rw [hp, BitVec.shiftLeft_and_distrib, BitVec.and_assoc, hm, BitVec.and_zero]

/-! ## The words of SR -/

/-- `v` may replace `sr`: reserved bits stay 0, and SS and T are those of `sr`. -/
structure SrKept (sr v : Word) : Prop where
  reserved : sr &&& ~~~srImplemented = 0#32 → v &&& ~~~srImplemented = 0#32
  secure : v.getLsbD bitSS = sr.getLsbD bitSS
  scratch : v.getLsbD bitT = sr.getLsbD bitT

theorem SrKept.refl (sr : Word) : SrKept sr sr := ⟨id, rfl, rfl⟩

/-- A bit that exists and is neither SS nor T can be written. -/
theorem SrKept.setBit {sr v : Word} (h : SrKept sr v) {n : Nat} {b : Bool}
    (hn : (~~~srImplemented).getLsbD n = false ∧ bitSS ≠ n ∧ bitT ≠ n := by decide) : SrKept sr (setBit v n b) := by
  obtain ⟨implemented, notSS, notT⟩ := hn
  refine ⟨fun hr => setBit_and_eq_zero implemented (h.reserved hr), ?_, ?_⟩
  · rw [getLsbD_setBit (by decide), if_neg notSS, h.secure]
  · rw [getLsbD_setBit (by decide), if_neg notT, h.scratch]

theorem SrKept.setBitIf {sr v : Word} (h : SrKept sr v) {n : Nat} {o : Option Bool}
    (hn : (~~~srImplemented).getLsbD n = false ∧ bitSS ≠ n ∧ bitT ≠ n := by decide) : SrKept sr (setBitIf v n o) := by
  cases o with
  | none => exact h
  | some b => exact h.setBit hn

theorem SrKept.applyFlags {sr v : Word} (h : SrKept sr v) {f : FlagUpdate} : SrKept sr (applyFlags v f) :=
  h.setBitIf.setBitIf.setBitIf.setBitIf.setBitIf

theorem SrKept.setBitWhere {sr v : Word} (h : SrKept sr v) {p : Prop} [Decidable p] {n : Nat} {b : Bool}
    (hn : (~~~srImplemented).getLsbD n = false ∧ bitSS ≠ n ∧ bitT ≠ n := by decide) :
    SrKept sr (if p then Machine.setBit v n b else v) :=
  iteInduction (motive := SrKept sr) (fun _ => h.setBit hn) (fun _ => h)

theorem getLsbD_setMode {w : Word} {m : BitVec 3} {n : Nat} (outside : (0xFE3FFFFF#32 : Word).getLsbD n = true)
    (hm : ∀ m : BitVec 3, (m.setWidth 32 <<< 22 : Word).getLsbD n = false) : (setMode w m).getLsbD n = w.getLsbD n := by
  rw [setMode, BitVec.getLsbD_or, BitVec.getLsbD_and, outside, hm, Bool.and_true, Bool.or_false]

theorem SrKept.setMode {sr v : Word} (h : SrKept sr v) {m : BitVec 3} : SrKept sr (setMode v m) where
  reserved hr := or_and_eq_zero.mpr ⟨and_of_and_eq_zero (h.reserved hr), by decide +revert⟩
  secure := (getLsbD_setMode (by decide) (by decide)).trans h.secure
  scratch := (getLsbD_setMode (by decide) (by decide)).trans h.scratch

theorem SrKept.setMasks {sr v : Word} (h : SrKept sr v) (e : Event) : SrKept sr (e.setMasks v) := by
  cases e with
  | interrupt n a => exact h.setBit.setBitWhere.setBitWhere.setBitWhere
  | _ => exact h.setBit.setBit

/-- SR after the entry of an event (60_exceptions.md R1054). -/
theorem Event.entrySr_kept (e : Event) (sr : Word) : SrKept sr (e.entrySr sr) :=
  ((SrKept.refl sr).setBit.setBit.setMode).setMasks e

/-- SR after an entry into debug mode (R1062, R1082). -/
theorem debugEntrySr_kept (sr : Word) : SrKept sr (debugEntrySr sr) :=
  (SrKept.refl sr).setBit.setBit.setMode.setBit.setBit.setBit.setBit

/-! ## Registers, flags and the PC -/

/-- A word written to SR: its reserved bits are 0, SS is set only where there is a secure state, and bits that are not free stay. -/
theorem Preserves.of_srWord {s : State} {v : Word} (reserved : s.sr &&& ~~~srImplemented = 0#32 → v &&& ~~~srImplemented = 0#32)
    (allowed : s.Inv → v.getLsbD bitSS = true → hasSecure s.cfg = true) (secure : bitSS ∉ free → v.getLsbD bitSS = s.srBit bitSS)
    (scratch : bitT ∉ free → v.getLsbD bitT = s.srBit bitT) : Preserves free s { s with sr := v } where
  cfg := rfl
  inv g := { g with reserved := reserved g.reserved, secure := allowed g }
  secure := secure
  scratch := scratch

theorem Preserves.of_sr {s : State} {v : Word} (h : SrKept s.sr v) : Preserves free s { s with sr := v } :=
  .of_srWord h.reserved (fun g hb => g.secure (h.secure.symm.trans hb)) (fun _ => h.secure) fun _ => h.scratch

section
variable (h : Preserves free s t)
include h

/-- The PC stays even behind an instruction, which has an even length (10_state.md R110, R112). -/
theorem Preserves.advance {n : Word} (hn : n.getLsbD 0 = false := by decide) : Preserves free s (t.advance n) :=
  h.trans (.of_same (pc := fun hpc => by rw [State.advance_pc, BitVec.getLsbD_add (by decide), hpc, hn, BitVec.carry_zero]; rfl))

theorem Preserves.jump {a : Word} : Preserves free s (t.jump a) :=
  h.trans (.of_same (pc := fun _ => by rw [State.jump_pc, BitVec.getLsbD_and]; exact Bool.and_false _))

theorem Preserves.setFlags {f : FlagUpdate} : Preserves free s (t.setFlags f) := h.trans (.of_sr (SrKept.refl t.sr).applyFlags)

theorem Preserves.setSrBit {n : Nat} {b : Bool} (hn : (~~~srImplemented).getLsbD n = false ∧ bitSS ≠ n ∧ bitT ≠ n := by decide) :
    Preserves free s (t.setSrBit n b) :=
  h.trans (.of_sr ((SrKept.refl t.sr).setBit hn))

theorem Preserves.drawFree {n : Nat} : Preserves free s (t.drawFree n) := h.trans .of_same

theorem Preserves.writePhys {p : PhysReg} {v : Word} : Preserves free s (t.writePhys p v) := by
  cases p with
  | pc => exact h.jump
  | spApp => exact h.trans .of_same
  | spSys => exact h.trans .of_same
  | spSec => exact h.trans .of_same
  | bank c i => cases c <;> exact h.trans .of_same

theorem Preserves.setReg {i : RegNo} {v : Word} : Preserves free s (t.setReg i v) := h.writePhys

theorem Preserves.setSystemSp {v : Word} : Preserves free s (t.setSystemSp v) :=
  .ite (fun _ => h.trans .of_same) fun _ => h.trans .of_same

theorem Preserves.freeRegs {is : List RegNo} : Preserves free s (t.freeRegs is) := by
  induction is generalizing t with
  | nil => exact h
  | cons i is ih => exact ih h.setReg.drawFree

theorem Preserves.setPair {d : RegNo} {hi lo : Word} : Preserves free s (t.setPair d hi lo) :=
  .ite (fun _ => h.setReg.setReg) fun _ => h.freeRegs

theorem Preserves.setRegs {l : List (RegNo × Word)} : Preserves free s (t.setRegs l) := by
  induction l generalizing t with
  | nil => exact h
  | cons p l ih => exact ih h.setReg

theorem Preserves.callTo {len target : Word} : Preserves free s (t.callTo len target) := h.setReg.jump

/-! ## The registers of the application and of the coprocessors -/

theorem Preserves.writeApp {i : RegNo} {v : Word} : Preserves free s (t.writeApp i v) :=
  .ite (fun _ => h.trans .of_same) fun _ => h.trans .of_same

theorem Preserves.writeApps {l : List (RegNo × Word)} : Preserves free s (t.writeApps l) := by
  induction l generalizing t with
  | nil => exact h
  | cons p l ih => exact ih h.writeApp

theorem Preserves.freeApps {is : List RegNo} : Preserves free s (t.freeApps is) := by
  induction is generalizing t with
  | nil => exact h
  | cons i is ih => exact ih h.writeApp.drawFree

theorem Preserves.setCopReg {cp : BitVec 3} {i : RegNo} {v : Word} : Preserves free s (t.setCopReg cp i v) := h.trans .of_same

theorem Preserves.setCopRegs {cp : BitVec 3} {l : List (RegNo × Word)} : Preserves free s (t.setCopRegs cp l) := by
  induction l generalizing t with
  | nil => exact h
  | cons p l ih => exact ih h.setCopReg

theorem Preserves.freeCopRegs {cp : BitVec 3} {is : List RegNo} : Preserves free s (t.freeCopRegs cp is) := by
  induction is generalizing t with
  | nil => exact h
  | cons i is ih => exact ih h.setCopReg.drawFree

theorem Preserves.setCopPair {cp : BitVec 3} {d : RegNo} {hi lo : Word} : Preserves free s (t.setCopPair cp d hi lo) :=
  .ite (fun _ => h.setCopReg.setCopReg) fun _ => h.freeCopRegs

end

/-! ## Accesses -/

/-- The rights of `e` that `Inv` speaks of are those of `f`. -/
def TlbEntry.SameRights (e f : TlbEntry) : Prop := e.d = f.d ∧ e.w = f.w ∧ e.ap = f.ap

theorem Aged.sameRights {v w : Vector TlbEntry 64} (h : Aged v w) (k : Nat) (hk : k < 64) : w[k].SameRights v[k] := by
  rcases h k hk with e | e <;> rw [e] <;> exact ⟨rfl, rfl, rfl⟩

/-- The registers of the MMU change, and free values may be drawn: the reserved bits of MMUCR stay 0, and each entry keeps its rights. -/
theorem Preserves.of_mmu {s : State} {m : MmuRegs} {n : Nat} (mmucr : s.mmu.mmucr &&& 0x000000E4#32 = 0#32 → m.mmucr &&& 0x000000E4#32 = 0#32)
    (itlb : ∀ k (hk : k < 64), m.itlb[k].SameRights s.mmu.itlb[k]) (dtlb : ∀ k (hk : k < 64), m.dtlb[k].SameRights s.mmu.dtlb[k]) :
    Preserves free s { s with mmu := m, freeIdx := n } where
  cfg := rfl
  inv g :=
    { g with
      mmucr := mmucr g.mmucr
      tlbs := fun hs k hk => by
        obtain ⟨id, iw, iap⟩ := itlb k hk
        obtain ⟨-, -, dap⟩ := dtlb k hk
        rw [id, iw, iap, dap]
        exact g.tlbs hs k hk }
  secure _ := rfl
  scratch _ := rfl

theorem Preserves.of_mem {s : State} {m : List Host.Cell} (h : Memory.wf s.mem = true → Memory.wf m = true) :
    Preserves free s { s with mem := m } where
  cfg := rfl
  inv g := { g with memory := h g.memory }
  secure _ := rfl
  scratch _ := rfl

/-- A data access preserves what it must, whether it is made or notes a bus error. -/
theorem Accessed.preserves (h : Accessed s t) : Preserves free s t := by
  obtain ⟨⟨mem, busErr, itlb, dtlb, n, between, rfl⟩, memory, itlbAged, dtlbAged⟩ := h
  have aged : Preserves free s { s with mmu := { s.mmu with itlb := itlb, dtlb := dtlb }, freeIdx := n } :=
    .of_mmu id itlbAged.sameRights dtlbAged.sameRights
  exact (aged.trans (.of_mem memory)).trans .of_same

end Sys2Proof.Machine
end

section
/-! PROOFS. What taking an event preserves, and what an outcome that ends in one of the shared ways does: a register and flags written, a load, a
store, a check that fails. -/

set_option Elab.async false

namespace Sys2Proof.Machine

variable {free : List Nat} {s t : State}

/-! ## Taking an event -/

theorem State.recordAddress_preserves (s : State) (e : Event) : Preserves free s (s.recordAddress e) := by
  unfold State.recordAddress
  split
  · exact .refl s
  · exact .ite (fun _ => .of_mmu id (fun _ _ => ⟨rfl, rfl, rfl⟩) fun _ _ => ⟨rfl, rfl, rfl⟩) fun _ => .refl s

/-- The replacement pointers of MMUCR lie outside its reserved bits (20_memory.md R245). -/
theorem State.recordReplacement_preserves (s : State) (e : Event) : Preserves free s (s.recordReplacement e) := by
  unfold State.recordReplacement
  split
  · exact .refl s
  · refine .ite (fun _ => ?_) fun _ => .refl s
    refine .of_mmu (fun h => ?_) (fun _ _ => ⟨rfl, rfl, rfl⟩) fun _ _ => ⟨rfl, rfl, rfl⟩
    exact iteInduction (motive := (· &&& 0x000000E4#32 = 0#32))
      (fun _ => or_and_eq_zero.mpr ⟨and_of_and_eq_zero h, shifted_and_eq_zero (by decide)⟩)
      fun _ => or_and_eq_zero.mpr ⟨and_of_and_eq_zero h, shifted_and_eq_zero (by decide)⟩

theorem State.recordBus_preserves (s : State) (e : Event) : Preserves free s (s.recordBus e) := by
  unfold State.recordBus
  split
  · exact .ite (fun _ => .of_same) fun _ => .refl s
  · exact .refl s

theorem State.record_preserves (s : State) (e : Event) : Preserves free s (s.record e) :=
  ((s.recordAddress_preserves e).trans (State.recordReplacement_preserves _ e)).trans (State.recordBus_preserves _ e)

theorem State.record_sr (s : State) (e : Event) : (s.record e).sr = s.sr := by
  obtain ⟨_, _, _, _, _, h⟩ := s.record_frame e
  rw [h]

/-- A core that is not asleep. -/
theorem Preserves.wake (h : Preserves free s t) : Preserves free s { t with sleeping := none } :=
  h.trans ⟨rfl, fun g => { g with asleep := nofun }, fun _ => rfl, fun _ => rfl⟩

theorem Preserves.enterHandler (h : Preserves free s t) {e : Event} : Preserves free s (t.enterHandler e) := by
  have sr : Preserves free s { t.record e with sr := e.entrySr t.sr } :=
    (h.trans (t.record_preserves e)).trans (.of_sr (by rw [State.record_sr]; exact e.entrySr_kept t.sr))
  exact (sr.jump (a := t.handler e)).wake.trans .of_same

/-- An access, and then what is done with its result. -/
theorem Accessed.leaves_bind {α β : Type} {r : Res α} {f : α → State → Res β} (h : r.Leaves (Accessed s))
    (g : ∀ a t, Accessed s t → (f a t).Leaves (Preserves free s)) : (r.bind f).Leaves (Preserves free s) := by
  cases r with
  | ok a t => exact g a t h
  | raise e t => exact Accessed.preserves h

/-- An entry preserves what it must, where it ends in the handler and where a push raises. -/
theorem enterEvent_preserves (e : Event) (ra : Word) (s : State) : (enterEvent e ra s).Leaves (Preserves free s) := by
  unfold enterEvent
  split
  · exact (Preserves.of_same (t := { s with ret := s.ret.save e.mode s.sr ra })).enterHandler
  · exact Accessed.leaves_bind (pushWords_accessed _ _ s) fun _ _ h => h.preserves.setSystemSp.enterHandler

/-- Where the outcome is a next state, it preserves what it must of `s`. -/
def NextPreserves (free : List Nat) (s : State) (o : Out) : Prop := ∀ t, o = .next t → Preserves free s t

theorem NextPreserves.next (h : Preserves free s t) : NextPreserves free s (.next t) := by
  intro u hu
  obtain rfl : t = u := Host.Outcome.next.inj hu
  exact h

theorem NextPreserves.fault {r : Fault} : NextPreserves free s (.fault r) := by
  intro _ h
  cases h

theorem NextPreserves.refused {r : Refusal} : NextPreserves free s (.refused r) := by
  intro _ h
  cases h

theorem NextPreserves.of_preserves {o : Out} (h : Preserves free s t) (g : NextPreserves free t o) : NextPreserves free s o :=
  fun u hu => h.trans (g u hu)

theorem takeEvent_preserves (e : Event) (ra : Word) (s : State) : NextPreserves free s (takeEvent e ra s) := by
  have first := enterEvent_preserves (free := free) (s.unmasked e) ra s
  unfold takeEvent
  cases he : enterEvent (s.unmasked e) ra s with
  | ok _ s1 => rw [he] at first; exact .next first
  | raise e2 s1 =>
    rw [he] at first
    have second := enterEvent_preserves (free := free) (s1.unmasked e2) ra s1
    cases he2 : enterEvent (s1.unmasked e2) ra s1 with
    | ok _ s2 => rw [he2] at second; simp only [he2]; exact .next (first.trans second)
    | raise _ _ => simp only [he2]; exact .fault

theorem raiseEvent_preserves (e : Event) (s : State) : NextPreserves free s (raiseEvent e s) := takeEvent_preserves e s.pc s

theorem Preserves.enterDebug (h : Preserves free s t) {ra : Word} : Preserves free s (t.enterDebug ra) := by
  have sr : Preserves free s { t with sr := debugEntrySr t.sr } := h.trans (.of_sr (debugEntrySr_kept t.sr))
  exact sr.wake.trans .of_same

theorem Preserves.enterBreakpoint (h : Preserves free s t) {ra : Word} : Preserves free s (t.enterBreakpoint ra) := h.enterDebug.jump

/-! ## Checks and branches -/

theorem NextPreserves.ite {p : Prop} [Decidable p] {o o' : Out} (ht : p → NextPreserves free s o) (hf : ¬p → NextPreserves free s o') :
    NextPreserves free s (if p then o else o') :=
  iteInduction (motive := NextPreserves free s) ht hf

theorem NextPreserves.requireUnit {ok : Bool} {k : Out} (h : NextPreserves free s k) : NextPreserves free s (requireUnit ok s k) :=
  .ite (fun _ => h) fun _ => raiseEvent_preserves _ s

theorem NextPreserves.requireRight {ok : Bool} {k : Out} (h : NextPreserves free s k) : NextPreserves free s (requireRight ok s k) :=
  .ite (fun _ => h) fun _ => raiseEvent_preserves _ s

theorem NextPreserves.requireCop {n : BitVec 3} {k : Out} (h : NextPreserves free s k) : NextPreserves free s (requireCop n s k) :=
  .ite (fun _ => raiseEvent_preserves _ s) fun _ => .ite (fun _ => h) fun _ => raiseEvent_preserves _ s

theorem NextPreserves.requireTlb {k : Out} (h : NextPreserves free s k) : NextPreserves free s (requireTlb s k) := .requireUnit (.requireRight h)

/-! ## The ways an instruction ends -/

section
variable {len : Word} (even : len.getLsbD 0 = false := by decide)
include even

theorem State.finishReg_preserves {d : RegNo} {v : Word} {f : FlagUpdate} : NextPreserves free s (s.finishReg len d v f) :=
  .next ((Preserves.refl s).advance even).setReg.setFlags

theorem State.finishFlags_preserves {f : FlagUpdate} : NextPreserves free s (s.finishFlags len f) :=
  .next ((Preserves.refl s).advance even).setFlags

theorem State.finishPair_preserves {d : RegNo} {v : BitVec 64} : NextPreserves free s (s.finishPair len d v) :=
  .next ((Preserves.refl s).advance even).setPair

theorem State.finishNop_preserves : NextPreserves free s (s.finishNop len) := .next ((Preserves.refl s).advance even)

theorem State.finishEmptyList_preserves {is : List RegNo} : NextPreserves free s (s.finishEmptyList len is) :=
  .next ((Preserves.refl s).advance even).freeRegs

theorem NextPreserves.ifCond {c : Cond} {k : Out} (h : NextPreserves free s k) : NextPreserves free s (s.ifCond c len k) :=
  .ite (fun _ => h) fun _ => State.finishNop_preserves even

end

/-- What an instruction answers after its accesses preserves what it must, and so does the state in which it raises an event. -/
def Res.Preserving (free : List Nat) (s : State) (r : Res State) : Prop :=
  match r with
  | .ok t _ => Preserves free s t
  | .raise _ t => Preserves free s t

theorem Res.Preserving.finish {r : Res State} (h : r.Preserving free s) : NextPreserves free s r.finish := by
  cases r with
  | ok t _ => exact .next h
  | raise e t => exact .of_preserves h (takeEvent_preserves e t.pc t)

/-- An access, and then what is done with its result. -/
theorem Res.Preserving.bind {α : Type} {r : Res α} {f : α → State → Res State} (h : r.Leaves (Accessed s))
    (g : ∀ a t, Accessed s t → (f a t).Preserving free s) : (r.bind f).Preserving free s := by
  cases r with
  | ok a t => exact g a t h
  | raise e t => exact Accessed.preserves h

/-- An instruction that makes an access and ends with `f` of its result. -/
theorem Res.finish_preserves {α : Type} {r : Res α} {f : α → State → State} {w : α → State → State} (h : r.Leaves (Accessed s))
    (g : ∀ a t, Preserves free s t → Preserves free s (f a t)) : NextPreserves free s (r.bind fun a t => .ok (f a t) (w a t)).finish :=
  (Res.Preserving.bind (f := fun a t => .ok (f a t) (w a t)) h fun a t ht => g a t ht.preserves).finish

section
variable {len : Word} (even : len.getLsbD 0 = false := by decide)
include even

theorem State.finishLoad_preserves {d : RegNo} {r : Res Word} (h : r.Leaves (Accessed s)) : NextPreserves free s (s.finishLoad len d r) :=
  Res.finish_preserves h fun _ _ g => (g.advance even).setReg

theorem State.finishLoadPtr_preserves {d p : RegNo} {ptr : Word} {r : Res Word} (h : r.Leaves (Accessed s)) :
    NextPreserves free s (s.finishLoadPtr len d p ptr r) :=
  Res.finish_preserves h fun _ _ g => .ite (fun _ => (g.advance even).freeRegs) fun _ => (g.advance even).setReg.setReg

theorem State.finishLoadPair_preserves {d : RegNo} {r : Res (Word × Word)} (h : r.Leaves (Accessed s)) :
    NextPreserves free s (s.finishLoadPair len d r) :=
  Res.finish_preserves h fun _ _ g => (g.advance even).setPair

theorem State.finishLoadPairPtr_preserves {d p : RegNo} {ptr : Word} {r : Res (Word × Word)} (h : r.Leaves (Accessed s)) :
    NextPreserves free s (s.finishLoadPairPtr len d p ptr r) :=
  Res.finish_preserves h fun _ _ g => .ite (fun _ => (g.advance even).freeRegs) fun _ => (g.advance even).setPair.setReg

theorem State.finishStore_preserves {r : Res Unit} (h : r.Leaves (Accessed s)) : NextPreserves free s (s.finishStore len r) :=
  Res.finish_preserves h fun _ _ g => g.advance even

theorem State.finishStorePtr_preserves {p : RegNo} {ptr : Word} {r : Res Unit} (h : r.Leaves (Accessed s)) :
    NextPreserves free s (s.finishStorePtr len p ptr r) :=
  Res.finish_preserves h fun _ _ g => (g.advance even).setReg

end

end Sys2Proof.Machine
end

section
/-! PROOFS. What the writes of SR, of the system registers and of the TLB preserve, and the instructions that make them. -/

set_option Elab.async false

namespace Sys2Proof.Machine

variable {free : List Nat} {s t : State}

/-! ## Writes of SR -/

/-- A write of the whole of SR keeps SS (10_state.md R118), and may change T. -/
theorem Preserves.writeSr (h : Preserves free s t) {v : Word} (hT : bitT ∈ free) : Preserves free s (t.writeSr v) := by
  have ss : (t.writeSr v).sr.getLsbD bitSS = t.srBit bitSS := by rw [State.writeSr_sr, getLsbD_setBit (by decide), if_pos rfl]
  refine h.trans (.of_srWord (fun _ => ?_) (fun g hb => g.secure (ss.symm.trans hb)) (fun _ => ss) fun hb => absurd hT hb)
  exact setBit_and_eq_zero (by decide) (and_and_eq_zero (by decide))

theorem Preserves.returnTo (h : Preserves free s t) {sr pc : Word} (hT : bitT ∈ free) : Preserves free s (t.returnTo sr pc) := (h.writeSr hT).jump

/-- A write of one bit of SR reaches neither SS nor a reserved bit (48_system_coprocessor_java.md R890 (d)). -/
theorem Preserves.writeSrBit (h : Preserves free s t) {n : BitVec 5} {b : Bool} (hT : n = 14#5 → bitT ∈ free) :
    Preserves free s (t.writeSrBit n b) := by
  refine .ite (fun hn => ?_) fun _ => h
  obtain ⟨implemented, notSS⟩ : srImplemented.getLsbD n.toNat = true ∧ n ≠ 31#5 := by simpa using hn
  have ss : (setBit t.sr n.toNat b).getLsbD bitSS = t.srBit bitSS := by
    rw [getLsbD_setBit (by decide), if_neg fun e => notSS (BitVec.eq_of_toNat_eq e.symm)]
    rfl
  refine h.trans (.of_srWord (fun hr => setBit_and_eq_zero ?_ hr) (fun g hb => g.secure (ss.symm.trans hb)) (fun _ => ss) fun hb => ?_)
  · rw [BitVec.getLsbD_not, implemented, Bool.not_true, Bool.and_false]
  · rw [getLsbD_setBit (by decide), if_neg fun e => hb (hT (BitVec.eq_of_toNat_eq e.symm))]
    rfl

/-- sscall sets SS, where the secure state is there (R921, 10_state.md R118). -/
theorem execSscall_preserves (hSS : bitSS ∈ free) : NextPreserves free s (execSscall s) := by
  refine .ite (fun secure => .next (Preserves.jump ?_)) fun _ => raiseEvent_preserves _ s
  have saved : Preserves free s { s with sec := { s.sec with rar := s.pc, rsr := s.sr } } := .of_same
  have raised : Preserves free s { s with sec := { s.sec with rar := s.pc, rsr := s.sr }, sr := setBit s.sr bitSS true } :=
    saved.trans (.of_srWord (setBit_and_eq_zero (by decide)) (fun _ _ => secure) (fun hb => absurd hSS hb) fun _ => getLsbD_setBit (by decide))
  have kept := (SrKept.refl (setBit s.sr bitSS true)).setBit (n := bitGM) (b := true)
  exact raised.trans (.of_sr (iteInduction (motive := SrKept _) (fun _ => kept.setMode) fun _ => kept))

/-- retss replaces the whole of SR, SS too, where the secure state is there (R926). -/
theorem execRetss_preserves (hSS : bitSS ∈ free) (hT : bitT ∈ free) : NextPreserves free s (execRetss s) := by
  refine .ite (fun secure => .requireRight (.next (Preserves.jump ?_))) fun _ => raiseEvent_preserves _ s
  exact .of_srWord (fun _ => and_and_eq_zero (by decide)) (fun _ _ => secure) (fun hb => absurd hSS hb) fun hb => absurd hT hb

/-! ## Writes of system registers -/

theorem Preserves.writeIf {ok : Bool} (h : Preserves free s t) : Preserves free s (s.writeIf ok t) := .ite (fun _ => h) fun _ => .refl s

theorem Preserves.of_perf {s : State} {p : PerfRegs} (h : s.perf.pccr &&& ~~~pccrStored = 0#32 → p.pccr &&& ~~~pccrStored = 0#32) :
    Preserves free s { s with perf := p } where
  cfg := rfl
  inv g := { g with pccr := h g.pccr }
  secure _ := rfl
  scratch _ := rfl

/-- The registers of the MPU change, each with its reserved bits 0. Given the registers, the hypotheses about those that do not change hold by
their shape. -/
theorem Preserves.of_mpu {s : State} {m : MpuRegs}
    (ar : ∀ n (h : n < 8), s.mpu.ar[n] &&& 0x00000FC0#32 = 0#32 → m.ar[n] &&& 0x00000FC0#32 = 0#32 := by exact fun _ _ => id)
    (psr : ∀ n (h : n < 8), s.mpu.psr[n] &&& 0xFFFF0000#32 = 0#32 → m.psr[n] &&& 0xFFFF0000#32 = 0#32 := by exact fun _ _ => id)
    (cra : s.mpu.cra &&& 0xFFFFFF00#32 = 0#32 → m.cra &&& 0xFFFFFF00#32 = 0#32 := by exact id)
    (crb : s.mpu.crb &&& 0xFFFFFF00#32 = 0#32 → m.crb &&& 0xFFFFFF00#32 = 0#32 := by exact id)
    (bra : s.mpu.bra &&& 0xFFFFFF00#32 = 0#32 → m.bra &&& 0xFFFFFF00#32 = 0#32 := by exact id)
    (brb : s.mpu.brb &&& 0xFFFFFF00#32 = 0#32 → m.brb &&& 0xFFFFFF00#32 = 0#32 := by exact id)
    (cr : s.mpu.cr &&& 0xFFFFFFFE#32 = 0#32 → m.cr &&& 0xFFFFFFFE#32 = 0#32 := by exact id) : Preserves free s { s with mpu := m } where
  cfg := rfl
  inv g :=
    { g with
      regions := fun n h => (g.regions n h).imp (ar n h) (psr n h)
      caching := by
        have old := g.caching
        simp only [or_and_eq_zero] at old ⊢
        obtain ⟨⟨⟨hcra, hcrb⟩, hbra⟩, hbrb⟩ := old
        exact ⟨⟨⟨cra hcra, crb hcrb⟩, bra hbra⟩, brb hbrb⟩
      mpucr := cr g.mpucr }
  secure _ := rfl
  scratch _ := rfl

/-- One of a row of registers written with a word whose reserved bits are 0. -/
theorem setAt_and_eq_zero {k : Nat} {x : Vector Word k} {i : Nat} {v m : Word} (hv : v &&& m = 0#32) (n : Nat) (hn : n < k)
    (h : x[n] &&& m = 0#32) : (setAt x i v)[n] &&& m = 0#32 := by
  rw [getElem_setAt]
  split
  · exact hv
  · exact h

/-- A write of MMUCR stores neither I nor a reserved bit, and invalidates entries without changing their rights (20_memory.md R245, R258). -/
theorem Preserves.writeMmucr {v : Word} : Preserves free s { s with mmu := s.mmu.writeMmucr v } := by
  obtain ⟨-, -, -, -, mmucr⟩ := s.mmu.writeMmucr_regs v
  refine .of_mmu (fun _ => ?_) (fun k hk => ?_) fun k hk => ?_
  · rw [mmucr]; exact and_and_eq_zero (by decide)
  · rw [(s.mmu.getElem_writeMmucr v hk).1]; exact ⟨rfl, rfl, rfl⟩
  · rw [(s.mmu.getElem_writeMmucr v hk).2]; exact ⟨rfl, rfl, rfl⟩

theorem Preserves.writePccr {v : Word} : Preserves free s { s with perf := s.perf.writePccr v } :=
  .of_perf fun _ => or_and_eq_zero.mpr ⟨and_and_eq_zero (by decide), and_and_eq_zero (by decide)⟩

/-- A write of JOSP opens the window of the configuration (70_reset_and_hazards.md R1223). -/
theorem Preserves.writeJosp {v : Word} : Preserves free s { s with java := { s.java with josp := v }, hazardLeft := s.cfg.jospHazard } :=
  ⟨rfl, fun g => { g with hazard := Nat.le_refl _ }, fun _ => rfl, fun _ => rfl⟩

/-- A write of a system register, in the order of `writeSysReg`: only that of SR reaches T. -/
theorem State.writeSysReg_preserves (s : State) (n : BitVec 8) (v : Word) (hT : n = 0#8 → bitT ∈ free) :
    Preserves free s (s.writeSysReg n v) := by
  unfold State.writeSysReg
  refine .ite (fun h => (Preserves.refl s).writeSr (hT (BitVec.eq_of_toNat_eq h))) fun _ => ?_
  -- EVBA, ACBA and CPUCR
  iterate 3 refine .ite (fun _ => .of_same) fun _ => ?_
  -- ECR, the return registers and JECR
  iterate 18 refine .ite (fun _ => .writeIf .of_same) fun _ => ?_
  refine .ite (fun _ => .writeIf .writeJosp) fun _ => ?_
  -- JAVA_LV0 to JAVA_LV7, JTBA and JBCR
  iterate 3 refine .ite (fun _ => .writeIf .of_same) fun _ => ?_
  -- COUNT and COMPARE
  iterate 2 refine .ite (fun _ => .of_same) fun _ => ?_
  -- TLBEHI, TLBELO, PTBR and TLBEAR
  iterate 4 refine .ite (fun _ => .writeIf (.of_mmu id (fun _ _ => ⟨rfl, rfl, rfl⟩) fun _ _ => ⟨rfl, rfl, rfl⟩)) fun _ => ?_
  refine .ite (fun _ => .writeIf .writeMmucr) fun _ => ?_
  -- PCCNT, PCNT0 and PCNT1
  iterate 3 refine .ite (fun _ => .writeIf (.of_perf id)) fun _ => ?_
  refine .ite (fun _ => .writeIf .writePccr) fun _ => ?_
  refine .ite (fun _ => .writeIf (.of_mpu (ar := setAt_and_eq_zero (and_and_eq_zero (by decide))))) fun _ => ?_
  refine .ite (fun _ => .writeIf (.of_mpu (psr := setAt_and_eq_zero (and_and_eq_zero (by decide))))) fun _ => ?_
  refine .ite (fun _ => .writeIf (.of_mpu (cra := fun _ => and_and_eq_zero (by decide)))) fun _ => ?_
  refine .ite (fun _ => .writeIf (.of_mpu (crb := fun _ => and_and_eq_zero (by decide)))) fun _ => ?_
  refine .ite (fun _ => .writeIf (.of_mpu (bra := fun _ => and_and_eq_zero (by decide)))) fun _ => ?_
  refine .ite (fun _ => .writeIf (.of_mpu (brb := fun _ => and_and_eq_zero (by decide)))) fun _ => ?_
  -- MPUAPRA and MPUAPRB
  iterate 2 refine .ite (fun _ => .writeIf .of_mpu) fun _ => ?_
  refine .ite (fun _ => .writeIf (.of_mpu (cr := fun _ => and_and_eq_zero (by decide)))) fun _ => ?_
  -- the secure registers, and those of the implementation
  iterate 8 refine .ite (fun _ => .writeIf .of_same) fun _ => ?_
  exact .refl s

/-! ## The TLB -/

/-- What tlbw writes has the bits that an ITLB or a DTLB does not implement dropped (20_memory.md R240). -/
theorem State.tlbHeld_rights (s : State) :
    (usesItlb s.cfg s.tlbSelect = true → s.tlbHeld.d = false ∧ s.tlbHeld.w = false ∧ s.tlbHeld.ap.getLsbD 1 = false) ∧
    (s.cfg.mmut = .split → usesItlb s.cfg s.tlbSelect = false → s.tlbHeld.ap.getLsbD 0 = false) := by
  constructor
  · intro h
    simp [State.tlbHeld, h]
  · intro hs h
    simp [State.tlbHeld, h, hs]

theorem Preserves.setTlbEntry {instr : Bool} {i : Nat} {e : TlbEntry}
    (hi : usesItlb s.cfg instr = true → e.d = false ∧ e.w = false ∧ e.ap.getLsbD 1 = false)
    (hd : s.cfg.mmut = .split → usesItlb s.cfg instr = false → e.ap.getLsbD 0 = false) : Preserves free s (s.setTlbEntry instr i e) where
  cfg := s.setTlbEntry_cfg instr i e
  inv g := by
    unfold State.setTlbEntry
    split
    · next h =>
      cases hu : usesItlb s.cfg instr with
      | true =>
        refine { g with tlbs := fun hs k hk => ⟨?_, (g.tlbs hs k hk).2⟩ }
        simp only [if_true, Vector.getElem_set]
        split
        · exact hi hu
        · exact (g.tlbs hs k hk).1
      | false =>
        refine { g with tlbs := fun hs k hk => ⟨(g.tlbs hs k hk).1, ?_⟩ }
        simp only [Bool.false_eq_true, if_false, Vector.getElem_set]
        split
        · exact hd hs hu
        · exact (g.tlbs hs k hk).2
    · exact g
  secure _ := by rw [State.srBit, State.setTlbEntry_sr]; rfl
  scratch _ := by rw [State.srBit, State.setTlbEntry_sr]; rfl

theorem execTlbw_preserves : NextPreserves free s (execTlbw s) :=
  .requireTlb (.next (.ite (fun _ => (Preserves.refl s).advance.trans (.setTlbEntry s.tlbHeld_rights.1 s.tlbHeld_rights.2)) fun _ =>
    (Preserves.refl s).advance))

theorem execTlbr_preserves : NextPreserves free s (execTlbr s) := by
  refine .requireTlb (.ite (fun _ => .next ?_) fun _ => .next ?_)
  · exact (Preserves.refl s).advance.drawFree.trans (.of_mmu id (fun _ _ => ⟨rfl, rfl, rfl⟩) fun _ _ => ⟨rfl, rfl, rfl⟩)
  · exact (Preserves.refl s).advance.drawFree.trans (.of_mmu id (fun _ _ => ⟨rfl, rfl, rfl⟩) fun _ _ => ⟨rfl, rfl, rfl⟩)

/-- A field of `w` bits written at `pos` keeps away from a mask that has none of its places. -/
theorem insertField_and_eq_zero {v x m : Word} {pos w : Nat} (hv : v &&& m = 0#32) (hm : (BitVec.ofNat 32 (2 ^ w - 1) <<< pos) &&& m = 0#32) :
    insertField v pos w x &&& m = 0#32 :=
  or_and_eq_zero.mpr ⟨and_of_and_eq_zero hv, and_and_eq_zero hm⟩

/-- The pointer and the bit N that tlbs writes lie outside the reserved bits of MMUCR (20_memory.md R245). -/
theorem execTlbs_preserves : NextPreserves free s (execTlbs s) := by
  refine .requireTlb (.next ((Preserves.refl s).advance.trans (.of_mmu (fun h => ?_) (fun _ _ => ⟨rfl, rfl, rfl⟩) fun _ _ => ⟨rfl, rfl, rfl⟩)))
  dsimp only
  split
  · exact setBit_and_eq_zero (by decide) h
  · exact insertField_and_eq_zero (setBit_and_eq_zero (by decide) h)
      (iteInduction (motive := fun pos => (BitVec.ofNat 32 (2 ^ 6 - 1) <<< pos) &&& 0x000000E4#32 = 0#32) (fun _ => by decide) fun _ => by decide)

end Sys2Proof.Machine
end

section
/-! PROOFS. What each instruction preserves, and with it O9 and O10: which instructions change SR[SS] and SR[T]. -/

set_option Elab.async false

namespace Sys2Proof.Machine

variable {free : List Nat} {s t : State}

/-! ## Single instructions -/

theorem State.finishField_preserves {d : RegNo} {bp wd : BitVec 5} {r : Word} : NextPreserves free s (s.finishField d bp wd r) :=
  .ite (fun _ => State.finishReg_preserves) fun _ => .next (Preserves.refl s).advance.setReg.setFlags.drawFree

theorem State.branch_preserves {taken : Bool} {len target : Word} (even : len.getLsbD 0 = false := by decide) :
    NextPreserves free s (s.branch taken len target) :=
  .next (.ite (fun _ => (Preserves.refl s).jump) fun _ => (Preserves.refl s).advance even)

theorem State.storePtr_preserves {len : Word} {kind : LsKind} {n : Nat} {rp rs : RegNo} {va ptr : Word}
    (even : len.getLsbD 0 = false := by decide) : NextPreserves free s (s.storePtr len kind n rp rs va ptr) :=
  .ite (fun _ => State.finishStorePtr_preserves even ((store_accessed ..).mono fun _ => (Accessed.drawFree s 2).trans))
    fun _ => State.finishStorePtr_preserves even (store_accessed ..)

theorem State.storePairPtr_preserves {rp rs : RegNo} {va ptr : Word} : NextPreserves free s (s.storePairPtr rp rs va ptr) :=
  .ite (fun _ => State.finishStorePtr_preserves (h := (storeDouble_accessed ..).mono fun _ => (Accessed.drawFree s 3).trans))
    fun _ => State.finishStorePtr_preserves (h := storePair_accessed va rs s)

theorem State.loadForm_preserves {kind : LsKind} {k : Nat} {conv : Word → Word} (f : LoadForm) : NextPreserves free s (s.loadForm kind k conv f) := by
  cases f with
  | formI | formII => exact State.finishLoadPtr_preserves (h := load_accessed ..)
  | formIII | formIV | formV => exact State.finishLoad_preserves (h := load_accessed ..)

theorem State.loadCond_preserves {kind : LsKind} {k : Nat} {conv : Word → Word} {c : Cond} {rd rp : RegNo} {disp : BitVec 9} :
    NextPreserves free s (s.loadCond kind k conv c rd rp disp) :=
  .requireUnit (.ifCond (h := State.finishLoad_preserves (h := load_accessed ..)))

theorem State.storeForm_preserves {kind : LsKind} {k : Nat} (f : StoreForm) : NextPreserves free s (s.storeForm kind k f) := by
  cases f with
  | formI | formII => exact State.storePtr_preserves
  | formIII | formIV | formV => exact State.finishStore_preserves (h := store_accessed ..)

theorem State.storeCond_preserves {kind : LsKind} {k : Nat} {c : Cond} {rp rs : RegNo} {disp : BitVec 9} :
    NextPreserves free s (s.storeCond kind k c rp rs disp) :=
  .requireUnit (.ifCond (h := State.finishStore_preserves (h := store_accessed ..)))

theorem State.modifyWord_preserves {kind : LsKind} {imm : BitVec 15} {f : Word → Word} : NextPreserves free s (s.modifyWord kind imm f) :=
  .requireUnit (Res.finish_preserves (swapWord_accessed ..) fun _ _ h => h.advance)

/-! ## Multiple transfers -/

theorem Preserves.finishPop (h : Preserves free s t) {len : Word} {regs : List (RegNo × Word)} {ptr : Option (RegNo × Word)} {r12 : Option Word}
    (even : len.getLsbD 0 = false := by decide) : Preserves free s (t.finishPop len regs ptr r12) := by
  have popped := (h.advance even).setRegs (l := regs.filter fun p => p.1 != 15#4)
  unfold State.finishPop
  rcases r12 with _ | v <;> rcases ptr with _ | ⟨p, w⟩ <;> dsimp only <;> split
  · exact popped.setFlags.jump
  · exact popped
  · exact popped.setReg.setFlags.jump
  · exact popped.setReg
  · exact popped.setReg.setFlags.jump
  · exact popped.setReg
  · exact popped.setReg.setReg.setFlags.jump
  · exact popped.setReg.setReg

theorem State.copLoadMany_preserves {kind : LsKind} {cp : BitVec 3} {rp : RegNo} {wb : BitVec 1} {list all : BitVec 16} :
    NextPreserves free s (s.copLoadMany kind cp rp wb list all) := by
  refine .ite (fun _ => .next (Preserves.refl s).advance.freeCopRegs.freeRegs) fun _ => Res.finish_preserves (loadWords_accessed ..) fun _ _ h => ?_
  exact .ite (fun _ => h.advance.setCopRegs.setReg) fun _ => h.advance.setCopRegs

theorem State.copStoreMany_preserves {kind : LsKind} {cp : BitVec 3} {rp : RegNo} {wb : BitVec 1} {list : BitVec 16} :
    NextPreserves free s (s.copStoreMany kind cp rp wb list) :=
  .ite (fun _ => State.finishEmptyList_preserves) fun _ => .ite (fun _ => State.finishStorePtr_preserves (h := storeWords_accessed ..))
    fun _ => State.finishStore_preserves (h := storeWords_accessed ..)

theorem execPopm_preserves {k : BitVec 1} {list : BitVec 8} : NextPreserves free s (execPopm k list s) :=
  .ite (fun _ => State.finishEmptyList_preserves) fun _ => Res.finish_preserves (loadWords_accessed ..) fun _ _ h => h.finishPop

theorem execLdm_preserves {rp : RegNo} {wb : BitVec 1} {list : BitVec 16} : NextPreserves free s (execLdm rp wb list s) :=
  .ite (fun _ => State.finishEmptyList_preserves) fun _ => Res.finish_preserves (loadWords_accessed ..) fun _ _ h => h.drawFree.finishPop

theorem execStm_preserves {rp : RegNo} {wb : BitVec 1} {list : BitVec 16} : NextPreserves free s (execStm rp wb list s) := by
  have stored (n : Nat) (ws : List (Word × Word)) : (storeWords .stm ws (s.drawFree n)).Leaves (Accessed s) :=
    (storeWords_accessed ..).mono fun _ => (Accessed.drawFree s n).trans
  exact .ite (fun _ => State.finishEmptyList_preserves) fun _ =>
    .ite (fun _ => State.finishStorePtr_preserves (h := stored ..)) fun _ => State.finishStore_preserves (h := stored ..)

theorem execLdmts_preserves {rp : RegNo} {wb : BitVec 1} {list : BitVec 16} : NextPreserves free s (execLdmts rp wb list s) := by
  refine .ite (fun _ => .next (Preserves.refl s).advance.freeApps.freeRegs) fun _ => Res.finish_preserves (loadWords_accessed ..) fun _ _ h => ?_
  exact .ite (fun _ => h.advance.freeApps.freeRegs) fun _ => .ite (fun _ => h.advance.writeApps.setReg) fun _ => h.advance.writeApps

theorem execStmts_preserves {rp : RegNo} {wb : BitVec 1} {list : BitVec 16} : NextPreserves free s (execStmts rp wb list s) := by
  have stored (n : Nat) (ws : List (Word × Word)) : (storeWords .stmts ws (s.drawFree n)).Leaves (Accessed s) :=
    (storeWords_accessed ..).mono fun _ => (Accessed.drawFree s n).trans
  exact .ite (fun _ => State.finishEmptyList_preserves) fun _ =>
    .ite (fun _ => State.finishStorePtr_preserves (h := stored ..)) fun _ => State.finishStore_preserves (h := stored ..)

/-! ## System instructions -/

theorem execMfsr_preserves {rd : RegNo} {n : BitVec 8} : NextPreserves free s (execMfsr rd n s) := by
  refine .requireRight ?_
  cases s.readSysReg n with
  | some v => exact State.finishReg_preserves
  | none => exact .of_preserves (Preserves.refl s).drawFree State.finishReg_preserves

theorem execMfdr_preserves {rd : RegNo} {n : BitVec 8} : NextPreserves free s (execMfdr rd n s) :=
  .requireRight (.ite (fun _ => State.finishReg_preserves) fun _ => .of_preserves (Preserves.refl s).drawFree State.finishReg_preserves)

/-- scall keeps SR but for the mode (R920). -/
theorem execScall_preserves : NextPreserves free s (execScall s) := by
  refine .ite (fun _ => .ite (fun _ => .next ?_) fun _ => ?_) fun _ => .next (Preserves.refl s).callTo
  · have saved : Preserves free s { s with ret := s.ret.save 1#3 s.sr (s.pc + 2#32) } := .of_same
    exact (saved.trans (.of_sr (SrKept.refl s.sr).setMode)).jump
  · refine (Res.Preserving.bind (pushSystem_accessed ..) fun _ s1 h1 => ?_).finish
    refine Res.Preserving.bind ((pushSystem_accessed ..).mono fun _ => (h1.trans (.busTurn s1)).trans) fun _ s2 h2 => ?_
    have entered : SrKept (s2.setSystemSp (s.systemSp - 8#32)).sr (setMode s.sr 1#3) := by
      rw [State.setSystemSp_sr, h2.sr]
      exact (SrKept.refl s.sr).setMode
    exact (h2.preserves.setSystemSp.trans (.of_sr entered)).jump

theorem execRets_preserves (hT : bitT ∈ free) : NextPreserves free s (execRets s) := by
  refine .ite (fun _ => raiseEvent_preserves _ s) fun _ => .ite (fun _ => ?_) fun _ => .next (Preserves.refl s).jump
  exact .ite (fun _ => .next ((Preserves.refl s).returnTo hT)) fun _ =>
    Res.finish_preserves (popWords_accessed ..) fun _ _ h => h.setSystemSp.returnTo hT

theorem execRete_preserves (hT : bitT ∈ free) : NextPreserves free s (execRete s) := by
  refine .ite (fun _ => raiseEvent_preserves _ s) fun _ => .ite (fun _ => ?_) fun _ => ?_
  · exact .next ((Preserves.refl s).returnTo hT).setSrBit
  · exact Res.finish_preserves (popWords_accessed ..) fun _ _ h => (h.setRegs.setSystemSp.returnTo hT).setSrBit

/-- The core sleeps only by an Op8 whose mode is not to do nothing (61_timers_counters_secure_state.md R1180). -/
theorem execSleep_preserves (op : BitVec 8) : NextPreserves free s (execSleep op s) := by
  have before : Preserves free s (if op.getLsbD 7 then (s.advance 4#32).setSrBit bitGM false else s.advance 4#32) :=
    .ite (fun _ => (Preserves.refl s).advance.setSrBit) fun _ => (Preserves.refl s).advance
  refine .requireRight (.next (.ite (fun _ => before) fun waits => before.trans ⟨rfl, fun g => { g with asleep := ?_ }, fun _ => rfl, fun _ => rfl⟩))
  rintro _ ⟨⟩
  rw [before.cfg]
  simpa using waits

/-! ## Coprocessors and Java -/

theorem execPopjc_preserves : NextPreserves free s (execPopjc s) :=
  .requireUnit (Res.finish_preserves (loadEach_accessed ..) fun _ _ h => (h.advance (n := 2#32)).trans .of_same)

theorem execRetj_preserves : NextPreserves free s (execRetj s) :=
  .requireUnit (.next (.ite (fun _ => (Preserves.refl s).jump.setSrBit.setSrBit.setSrBit) fun _ => (Preserves.refl s).jump.setSrBit.setSrBit))

theorem execIncjosp_preserves {imm : BitVec 3} : NextPreserves free s (execIncjosp imm s) :=
  .requireUnit (.ite (fun _ => .refused) fun _ => .ite (fun _ => .refused) fun _ => .next (((Preserves.refl s).advance (n := 2#32)).trans .of_same))

theorem execXchg_preserves {rd rx ry : RegNo} : NextPreserves free s (execXchg rd rx ry s) := by
  refine .ite (fun _ => ?_) fun _ => Res.finish_preserves (swapWord_accessed ..) fun _ _ h => h.advance.setReg
  exact Res.finish_preserves ((swapWord_accessed ..).mono fun _ => (Accessed.drawFree s 2).trans) fun _ _ h => h.advance.setReg

theorem execStcond_preserves {rp rs : RegNo} {disp : BitVec 16} : NextPreserves free s (execStcond rp rs disp s) :=
  .ite (fun _ => Res.finish_preserves (store_accessed ..) fun _ _ h => h.advance.setFlags) fun _ => State.finishFlags_preserves

/-! ## All of them -/

/-- The bits among SS and T of SR that an instruction writes explicitly: sscall and retss write SS, and T is written by csrf and ssrf of bit 14
and by the instructions that load the whole of SR (10_state.md R118, R126). -/
def writtenBits : Instr → List Nat
  | .sscall => [bitSS]
  | .retss => [bitSS, bitT]
  | .csrf bp | .ssrf bp => if bp = 14#5 then [bitT] else []
  | .mtsr _ n => if n = 0#8 then [bitT] else []
  | .rete | .rets | .retd => [bitT]
  | _ => []

theorem exec_preserves (i : Instr) (s : State) : NextPreserves (writtenBits i) s (exec i s) := by
  cases i with
  | abs | acr | adc | addabs | max | min | neg | sbc | scr | mac | andn | andh | andl | com | eorh | eorl | orh | orl | brev | bst | castsB
  | castsH | castuB | castuH | cbr | clz | sbr | swapB | swapBh | swapH | rol | ror | mustr | srCond =>
    exact State.finishReg_preserves
  | add f | rsub f | sub f | mul f | and f | eor f | or f | asr f | lsl f | lsr f | mov f => cases f <;> exact State.finishReg_preserves
  | cpB | cpH | tnbz | tst | bld | musfr => exact State.finishFlags_preserves
  | cpW f | cpc f => cases f <;> exact State.finishFlags_preserves
  | addCond | rsubCond | andCond | eorCond | orCond => exact .requireUnit (.ifCond (h := State.finishReg_preserves))
  | subCond f =>
    cases f with
    | formI => exact .ifCond (h := State.finishReg_preserves)
    | formII => exact .requireUnit (.ifCond (h := State.finishReg_preserves))
  | movCond f => cases f <;> exact .ifCond (h := State.finishReg_preserves)
  | movh => exact .requireUnit State.finishReg_preserves
  | divs | divu => exact .ite (fun _ => .next (Preserves.refl s).advance.freeRegs) fun _ => State.finishPair_preserves
  | macsD | macuD | mulsD | muluD => exact State.finishPair_preserves
  | addhhW | machhW | mulhhW | mulnhhW | sataddH | sataddW | satsubH | satrnds | satrndu | sats | satu | subhhW | mulsathhW | macsathhW =>
    exact .requireUnit State.finishReg_preserves
  | satsubW f => cases f <;> exact .requireUnit State.finishReg_preserves
  | machhD | macwhD | mulwhD | mulnwhD => exact .requireUnit State.finishPair_preserves
  | mulsathhH | mulsatrndhhH | mulsatrndwhW | mulsatwhW =>
    exact .requireUnit (.ite (fun _ => State.finishReg_preserves) fun _ => State.finishReg_preserves)
  | bfexts | bfextu | bfins => exact State.finishField_preserves
  | pabsSb | pabsSh | packshUb | packshSb | packwSh | paddB | paddH | paddhUb | paddhSh | paddsUb | paddsSb | paddsUh | paddsSh | paddsubH
  | paddsubhSh | paddsubsUh | paddsubsSh | paddxH | paddxhSh | paddxsUh | paddxsSh | pasrB | pasrH | pavgUb | pavgSh | plslB | plslH | plsrB
  | plsrH | pmaxUb | pmaxSh | pminUb | pminSh | psad | psubB | psubH | psubaddH | psubaddhSh | psubaddsUh | psubaddsSh | psubhUb | psubhSh
  | psubsUb | psubsSb | psubsUh | psubsSh | psubxH | psubxhSh | psubxsUh | psubxsSh | punpckubH | punpcksbH =>
    exact .requireUnit State.finishReg_preserves
  | brCond3 | brCond4 => exact State.branch_preserves
  | acall | mcall => exact Res.finish_preserves (loadWord_accessed ..) fun _ _ h => h.callTo
  | icall => exact .next (Preserves.refl s).callTo
  | rcall f => cases f <;> exact .next (Preserves.refl s).callTo
  | rjmp => exact .next (Preserves.refl s).jump
  | retCond => exact .ifCond (h := .next (Preserves.refl s).setReg.setFlags.jump)
  | ldUb f | ldUh f | ldSh f => exact State.loadForm_preserves f
  | ldUbCond | ldSbCond | ldUhCond | ldShCond | ldWCond => exact State.loadCond_preserves
  | ldSb f => cases f <;> exact State.finishLoad_preserves (h := load_accessed ..)
  | ldW f =>
    cases f with
    | formI | formII => exact State.finishLoadPtr_preserves (h := loadWord_accessed ..)
    | formIII | formIV | formV | formVI => exact State.finishLoad_preserves (h := loadWord_accessed ..)
  | ldD f =>
    cases f with
    | formI | formII => exact State.finishLoadPairPtr_preserves (h := loadDouble_accessed ..)
    | formIII | formIV | formV => exact State.finishLoadPair_preserves (h := loadDouble_accessed ..)
  | ldinsB | ldinsH | ldswpSh | ldswpUh | ldswpW => exact State.finishLoad_preserves (h := load_accessed ..)
  | lddpc | lddsp => exact State.finishLoad_preserves (h := loadWord_accessed ..)
  | stB f | stH f => exact State.storeForm_preserves f
  | stBCond | stHCond | stWCond => exact State.storeCond_preserves
  | stW f =>
    cases f with
    | formI | formII => exact State.storePtr_preserves
    | formIII | formIV | formV => exact State.finishStore_preserves (h := store_accessed ..)
  | stD f =>
    cases f with
    | formI | formII => exact State.storePairPtr_preserves
    | formIII | formIV | formV => exact State.finishStore_preserves (h := storePair_accessed ..)
  | stcond => exact execStcond_preserves
  | sthhW f => cases f <;> exact State.finishStore_preserves (h := store_accessed ..)
  | stdsp | stswpH | stswpW => exact State.finishStore_preserves (h := store_accessed ..)
  | pushm =>
    exact .ite (fun _ => State.finishEmptyList_preserves) fun _ => State.finishStorePtr_preserves (h := storeWords_accessed ..)
  | popm => exact execPopm_preserves
  | ldm => exact execLdm_preserves
  | stm => exact execStm_preserves
  | ldmts => exact execLdmts_preserves
  | stmts => exact execStmts_preserves
  | csrf bp | ssrf bp => exact .requireRight (.next ((Preserves.refl s).advance.writeSrBit fun h => by simp [writtenBits, h]))
  | csrfcz => exact .requireRight State.finishFlags_preserves
  | breakpoint => exact .ite (fun _ => .next (Preserves.refl s).enterBreakpoint) fun _ => State.finishNop_preserves
  | frs | pref | nop => exact State.finishNop_preserves
  | cache => exact .requireRight State.finishNop_preserves
  | mfsr => exact execMfsr_preserves
  | mfdr => exact execMfdr_preserves
  | mtsr rs n =>
    exact .requireRight (.next ((Preserves.refl s).advance.trans (State.writeSysReg_preserves _ n _ fun h => by simp [writtenBits, h])))
  | mtdr =>
    have advanced : Preserves [] s (s.advance 4#32) := (Preserves.refl s).advance
    exact .requireRight (.next (.ite (fun _ => advanced.trans .of_same) fun _ => advanced))
  | scall => exact execScall_preserves
  | sscall => exact execSscall_preserves (List.mem_singleton_self _)
  | rete => exact execRete_preserves (List.mem_singleton_self _)
  | rets => exact execRets_preserves (List.mem_singleton_self _)
  | retd => exact .requireRight (.next ((Preserves.refl s).drawFree.returnTo (List.mem_singleton_self _)))
  | sleep op => exact execSleep_preserves op
  | retss => exact execRetss_preserves (by simp [writtenBits]) (by simp [writtenBits])
  | sync => exact .next (((Preserves.refl s).advance (n := 4#32)).trans .of_same)
  | tlbr => exact execTlbr_preserves
  | tlbs => exact execTlbs_preserves
  | tlbw => exact execTlbw_preserves
  | cop => exact .requireCop (.next (Preserves.refl s).advance.setCopReg.setFlags)
  | ldcD f =>
    cases f with
    | formI | formIII => exact .requireCop (Res.finish_preserves (loadDouble_accessed ..) fun _ _ h => h.advance.setCopPair)
    | formII => exact .requireCop (Res.finish_preserves (loadDouble_accessed ..) fun _ _ h => h.advance.setCopPair.setReg)
  | ldcW f =>
    cases f with
    | formI | formIII => exact .requireCop (Res.finish_preserves (loadWord_accessed ..) fun _ _ h => h.advance.setCopReg)
    | formII => exact .requireCop (Res.finish_preserves (loadWord_accessed ..) fun _ _ h => h.advance.setCopReg.setReg)
  | ldc0D => exact .requireCop (Res.finish_preserves (loadDouble_accessed ..) fun _ _ h => h.advance.setCopPair)
  | ldc0W => exact .requireCop (Res.finish_preserves (loadWord_accessed ..) fun _ _ h => h.advance.setCopReg)
  | ldcmD => exact .requireCop State.copLoadMany_preserves
  | ldcmW f => cases f <;> exact .requireCop State.copLoadMany_preserves
  | mvcrD =>
    exact .requireCop (.ite (fun _ => .next (Preserves.refl s).advance.setPair) fun _ => .next (Preserves.refl s).advance.freeRegs)
  | mvcrW => exact .requireCop State.finishReg_preserves
  | mvrcD =>
    exact .requireCop (.ite (fun _ => .next (Preserves.refl s).advance.setCopPair) fun _ => .next (Preserves.refl s).advance.freeCopRegs)
  | mvrcW => exact .requireCop (.next (Preserves.refl s).advance.setCopReg)
  | stcD f =>
    cases f with
    | formI | formIII => exact .requireCop (State.finishStore_preserves (h := storeCopPair_accessed ..))
    | formII => exact .requireCop (State.finishStorePtr_preserves (h := storeCopPair_accessed ..))
  | stcW f =>
    cases f with
    | formI | formIII => exact .requireCop (State.finishStore_preserves (h := store_accessed ..))
    | formII => exact .requireCop (State.finishStorePtr_preserves (h := store_accessed ..))
  | stc0D => exact .requireCop (State.finishStore_preserves (h := storeCopPair_accessed ..))
  | stc0W => exact .requireCop (State.finishStore_preserves (h := store_accessed ..))
  | stcmD => exact .requireCop State.copStoreMany_preserves
  | stcmW f => cases f <;> exact .requireCop State.copStoreMany_preserves
  | incjosp => exact execIncjosp_preserves
  | popjc => exact execPopjc_preserves
  | pushjc => exact .requireUnit (State.finishStore_preserves (h := storeWords_accessed ..))
  | retj => exact execRetj_preserves
  | memc | mems | memt => exact State.modifyWord_preserves
  | xchg => exact execXchg_preserves

end Sys2Proof.Machine
end

section
/-! PROOFS. O9 and O10: which instructions change SR[SS] and SR[T]. -/

set_option Elab.async false

namespace Sys2Proof.Machine

theorem secure_of_mem_writtenBits {i : Instr} (h : bitSS ∈ writtenBits i) : i = .sscall ∨ i = .retss := by
  unfold writtenBits at h
  split at h
  · exact .inl rfl
  · exact .inr rfl
  all_goals simp [bitSS, bitT] at h

theorem scratch_of_mem_writtenBits {i : Instr} (h : bitT ∈ writtenBits i) :
    i = .csrf 14#5 ∨ i = .ssrf 14#5 ∨ (∃ rs, i = .mtsr rs 0#8) ∨ i = .rete ∨ i = .rets ∨ i = .retd ∨ i = .retss := by
  unfold writtenBits at h
  split at h
  all_goals simp_all [bitSS, bitT]

/-- Settles O9: the bits that `writtenBits` names are those of sscall and retss alone. -/
theorem secureBitOnlyBySecureCalls : Obligations.SecureBitOnlyBySecureCalls := by
  refine ⟨fun i s t h notSscall notRetss => ?_, fun e ra s t h => ?_, fun ra s => ?_⟩
  · exact (exec_preserves i s t h).secure fun hb => (secure_of_mem_writtenBits hb).elim notSscall notRetss
  · exact (takeEvent_preserves (free := []) e ra s t h).secure List.not_mem_nil
  · exact ((Preserves.refl (free := []) s).enterDebug).secure List.not_mem_nil

/-- SR[T] written by csrf or ssrf, which need no privilege for it. -/
theorem writeSrBit_scratch (s : State) (b : Bool) :
    ((s.advance 2#32).writeSrBit 14#5 b).srBit bitT = b ∧ SameSr s ((s.advance 2#32).writeSrBit 14#5 b) [bitT] := by
  have sr : ((s.advance 2#32).writeSrBit 14#5 b).sr = setBit s.sr bitT b := rfl
  refine ⟨?_, fun n hn hne => ?_⟩
  · rw [State.srBit, sr, getLsbD_setBit (by decide), if_pos rfl]
  · rw [State.srBit, sr, getLsbD_setBit hn, if_neg fun e => hne (by simp [e])]; rfl

theorem exec_csrf_scratch (s : State) : exec (.csrf 14#5) s = .next ((s.advance 2#32).writeSrBit 14#5 false) := by rfl

theorem exec_ssrf_scratch (s : State) : exec (.ssrf 14#5) s = .next ((s.advance 2#32).writeSrBit 14#5 true) := by rfl

theorem exec_csrfcz_scratch (s : State) :
    exec (.csrfcz 14#5) s = s.finishFlags 2#32 { z := some (s.readSrBit 14#5), c := some (s.readSrBit 14#5) } := by rfl

theorem State.readSrBit_scratch (s : State) : s.readSrBit 14#5 = s.srBit bitT := by
  rw [State.readSrBit, BitVec.getLsbD_and]
  exact Bool.and_true _

theorem csrfcz_copies (s : State) :
    Gives (exec (.csrfcz 14#5) s) fun t => t.flagC = s.srBit bitT ∧ t.flagZ = s.srBit bitT ∧ SameSr s t [1, 0] := by
  rw [exec_csrfcz_scratch, State.readSrBit_scratch]
  refine ⟨_, rfl, ?_, ?_, fun n hn hne => ?_⟩
  · exact getLsbD_applyFlags (by decide)
  · exact getLsbD_applyFlags (by decide)
  · simp only [List.mem_cons, List.not_mem_nil, or_false, not_or] at hne
    simp only [State.srBit, State.setFlags_sr, State.advance_sr, getLsbD_applyFlags hn, if_neg hne.1, if_neg hne.2, Option.getD_none]
    split_ifs with h2 h3 h4
    all_goals simp_all

/-- Settles O10: `writtenBits` names the instructions that write SR[T], and no event does. -/
theorem scratchBitOnlyExplicit : Obligations.ScratchBitOnlyExplicit := by
  refine ⟨fun i s t h changed => ?_, fun e ra s t h => ?_, fun cfg => ?_, fun s => ⟨?_, ?_, csrfcz_copies s⟩⟩
  · exact scratch_of_mem_writtenBits (Decidable.by_contra fun hb => changed ((exec_preserves i s t h).scratch hb))
  · exact (takeEvent_preserves (free := []) e ra s t h).scratch List.not_mem_nil
  · exact iteInduction (motive := fun sr : Word => sr.getLsbD bitT = false) (fun _ => by decide) fun _ => by decide
  · exact ⟨_, exec_csrf_scratch s, writeSrBit_scratch s false⟩
  · exact ⟨_, exec_ssrf_scratch s, writeSrBit_scratch s true⟩

end Sys2Proof.Machine
end

section
/-! PROOFS. O7 and O8: the invariant holds at reset, and every step keeps it and the configuration. -/

set_option Elab.async false

namespace Sys2Proof.Machine

variable {free : List Nat} {s t : State}

/-! ## Reset -/

theorem State.resetOf_inv (cfg : Params) (boots : cfg.resetSS = true → hasSecure cfg = true) : (State.resetOf cfg).Inv where
  memory := rfl
  pc := iteInduction (motive := fun pc : Word => pc.getLsbD 0 = false) (fun _ => by decide) fun _ => by decide
  reserved := iteInduction (motive := fun sr : Word => sr &&& ~~~srImplemented = 0#32) (fun _ => by decide) fun _ => by decide
  secure h := by
    cases hb : cfg.resetSS with
    | true => exact boots hb
    | false => simp [State.srBit, State.resetOf, hb, bitSS] at h
  boot := boots
  mmucr := (by decide : (0x00000010#32 : Word) &&& 0x000000E4#32 = 0#32)
  regions n h := by simp [State.resetOf]
  caching := (by decide : (0#32 ||| 0#32 ||| 0#32 ||| 0#32 : Word) &&& 0xFFFFFF00#32 = 0#32)
  mpucr := BitVec.zero_and
  pccr := BitVec.zero_and
  tlbs _ n h := by simp [State.resetOf, TlbEntry.invalid]
  asleep := nofun
  hazard := Nat.zero_le _

/-- Settles O7: the reset state of a configuration, field by field. -/
theorem resetMeetsInvariant : Obligations.ResetMeetsInvariant :=
  ⟨State.resetOf_inv Params.reference nofun, State.resetOf_inv⟩

/-- The Reset event leaves memory, which keeps its canonical form. -/
theorem State.resetEvent_preserves (s : State) : Preserves [bitSS, bitT] s s.resetEvent where
  cfg := rfl
  inv g := { State.resetOf_inv s.cfg g.boot with memory := g.memory }
  secure hb := absurd (by simp) hb
  scratch hb := absurd (by simp) hb

/-! ## Time -/

theorem PerfRegs.overflow_pccr {p : PerfRegs} {k : Nat} {b : Bool} (hk : (~~~pccrStored).getLsbD k = false)
    (h : p.pccr &&& ~~~pccrStored = 0#32) : (p.overflow k b).pccr &&& ~~~pccrStored = 0#32 :=
  iteInduction (motive := fun p : PerfRegs => p.pccr &&& ~~~pccrStored = 0#32) (fun _ => setBit_and_eq_zero hk h) fun _ => h

theorem PerfRegs.tick_pccr {p : PerfRegs} (h : p.pccr &&& ~~~pccrStored = 0#32) : p.tick.pccr &&& ~~~pccrStored = 0#32 := by
  unfold PerfRegs.tick
  split
  · exact h
  · split
    · exact PerfRegs.overflow_pccr (by decide) h
    · split
      · exact PerfRegs.overflow_pccr (by decide) h
      · exact h

theorem Preserves.tick (h : Preserves free s t) : Preserves free s t.tick := by
  have timed : Preserves free s t.tickTimer := .ite (fun _ => h.trans .of_same) fun _ => h.trans .of_same
  exact .ite (fun _ => timed.trans (.of_perf PerfRegs.tick_pccr)) fun _ => timed

theorem Preserves.ticks (h : Preserves free s t) {n : Nat} : Preserves free s (t.ticks n) := by
  induction n generalizing t with
  | zero => exact h
  | succ n ih => exact ih h.tick

theorem Preserves.countEvents (h : Preserves free s t) {completed : Bool} : Preserves free s (t.countEvents completed) := by
  refine .ite (fun _ => h.trans (.of_perf fun g => ?_)) fun _ => h
  exact PerfRegs.overflow_pccr (by decide) (PerfRegs.overflow_pccr (by decide) g)

/-- The time of a step. -/
theorem Preserves.clock (h : Preserves free s t) {before : State} {completed : Bool} : Preserves free s (t.clock before completed) :=
  Preserves.countEvents (.ite (fun _ => h) fun _ => h.ticks)

/-! ## The window after a write of JOSP -/

theorem State.windowPast_left_le (t s : State) (len : Nat) (bad : Bool) : (t.windowPast s len bad).hazardLeft ≤ max t.hazardLeft s.hazardLeft :=
  iteInduction (motive := fun u : State => u.hazardLeft ≤ max t.hazardLeft s.hazardLeft) (fun _ => Nat.le_max_left _ _)
    fun _ => (Nat.sub_le _ _).trans (Nat.le_max_right _ _)

/-- Another window, no longer than the one before or the one there is. -/
theorem Preserves.window (h : Preserves free s t) {n : Nat} {b : Bool} (hn : n ≤ max t.hazardLeft s.hazardLeft) :
    Preserves free s { t with hazardLeft := n, hazardFlag := b } where
  cfg := h.cfg
  inv g := { h.inv g with hazard := hn.trans (Nat.max_le.mpr ⟨(h.inv g).hazard, h.cfg ▸ g.hazard⟩) }
  secure := h.secure
  scratch := h.scratch

theorem Preserves.windowPast (h : Preserves free s t) {len : Nat} {bad : Bool} : Preserves free s (t.windowPast s len bad) := by
  have left := t.windowPast_left_le s len bad
  obtain ⟨n, b, e⟩ := t.windowPast_frame s len bad
  rw [e] at left ⊢
  exact h.window left

theorem Preserves.hazard (h : Preserves free s t) {i : Instr} : Preserves free s (t.hazard i s) := by
  have left := t.hazard_left_le i s
  obtain ⟨n, b, e⟩ := t.hazard_frame i s
  rw [e] at left ⊢
  exact h.window left

/-! ## The step -/

theorem fetchHalf_accessed (va : Word) (s : State) : (fetchHalf va s).Leaves (Accessed s) := by
  unfold fetchHalf
  split
  · exact Accessed.refl s
  · refine Res.Leaves.bind ((translate_leaves ..).mono fun _ h => h.accessed) fun r t => ?_
    exact iteInduction (motive := fun r : Res Half => r.Leaves (Accessed t)) (fun _ => Accessed.refl t) fun _ => Accessed.refl t

theorem fetchCode_accessed (s : State) : (fetchCode s).Leaves (Accessed s) :=
  Res.Leaves.bind (fetchHalf_accessed s.pc s) fun _ t =>
    iteInduction (motive := fun r : Res Code => r.Leaves (Accessed t))
      (fun _ => Res.Leaves.bind (fetchHalf_accessed _ t) fun _ u => Accessed.refl u) fun _ => Accessed.refl t

theorem NextPreserves.onNext {o : Out} {f : State → State} (h : NextPreserves free s o)
    (g : ∀ t, Preserves free s t → Preserves free s (f t)) : NextPreserves free s (onNext f o) := by
  cases o with
  | next t => exact .next (g t (h t rfl))
  | fault r => exact .fault
  | refused r => exact .refused

theorem NextPreserves.weaken {o : Out} (h : NextPreserves free s o) : NextPreserves [bitSS, bitT] s o := fun t ht => (h t ht).weaken

theorem perform_preserves (i : Instr) (s : State) : NextPreserves [bitSS, bitT] s (perform i s) := .requireUnit (exec_preserves i s).weaken

theorem runInstr_preserves (i : Instr) (s : State) : NextPreserves [bitSS, bitT] s (runInstr i s) :=
  .ite (fun _ => .refused) fun _ => (perform_preserves i s).onNext fun _ h => h.hazard.clock

theorem runAtPc_preserves (s : State) : NextPreserves [bitSS, bitT] s (runAtPc s) := by
  have fetched := fetchCode_accessed s
  unfold runAtPc
  cases hf : fetchCode s with
  | raise e s1 =>
    rw [hf] at fetched
    exact .of_preserves (Accessed.preserves fetched) ((raiseEvent_preserves e s1).onNext fun _ h => h.clock)
  | ok code s1 =>
    rw [hf] at fetched
    refine .of_preserves (Accessed.preserves fetched) ?_
    dsimp only
    split
    · exact (raiseEvent_preserves .illegalOpcode s1).onNext fun _ h => h.windowPast.clock
    · exact runInstr_preserves _ s1

theorem State.clearPending_preserves (s : State) (e : Event) : Preserves free s (s.clearPending e) := by
  cases e <;> exact .of_same

/-- The boundary, position by position (60_exceptions.md R1101). -/
theorem stepSampled_preserves (s : State) : NextPreserves [bitSS, bitT] s (stepSampled s) := by
  refine .ite (fun _ => .next s.resetEvent_preserves) fun _ => .ite (fun _ => .refused) fun _ => .ite (fun _ => .next ?_) fun _ => ?_
  · exact (((Preserves.refl s).enterDebug (ra := s.pc)).trans .of_same).clock
  cases s.pendingEvent with
  | some e =>
    exact .of_preserves (s.clearPending_preserves e) ((takeEvent_preserves e s.pc _).onNext fun _ h => h.clock)
  | none =>
    refine .ite (fun _ => .next (Preserves.refl s).enterBreakpoint.clock) fun _ => ?_
    exact .ite (fun _ => .next (Preserves.refl s).clock) fun _ => .ite (fun _ => .refused) fun _ => runAtPc_preserves s

theorem State.sample_preserves (s : State) : Preserves free s s.sample :=
  (Preserves.of_mem State.sample_wf).trans .of_same

/-- Settles O8: the boundary, the instruction and the time of a step each preserve the invariant and the configuration. -/
theorem stepKeepsInvariant : Obligations.StepKeepsInvariant := by
  intro s t inv h
  have kept := s.sample_preserves.trans (stepSampled_preserves s.sample t h)
  exact ⟨kept.inv inv, kept.cfg⟩

end Sys2Proof.Machine
end

section
/-! PROOFS. O43 and O48: a word stored at a backed address is there for the loads behind it; an access that the bus does not answer completes, and
its error waits for a boundary; which event a boundary accepts. -/

set_option Elab.async false

namespace Sys2Proof.Machine

/-! ## Alignment -/

theorem aligned_half_iff {va : Word} : aligned 2 va = true ↔ va.toNat % 2 = 0 := by
  simp [aligned, BitVec.getLsbD, Nat.testBit_zero]

/-- A word and a doubleword have the alignment of a word (20_memory.md R205). -/
theorem aligned_word_iff {va : Word} {n : Nat} (h : n = 4 ∨ n = 8) : aligned n va = true ↔ va.toNat % 4 = 0 := by
  have field : aligned n va = (va.extractLsb' 0 2 == 0#2) := by obtain rfl | rfl := h <;> rfl
  rw [field, beq_iff_eq, BitVec.toNat_eq, BitVec.extractLsb'_toNat]
  rfl

/-! ## A store and the loads behind it -/

theorem exec_stW_formIV (rp rs : RegNo) (disp : BitVec 16) (s : State) :
    exec (.stW (.formIV rp rs disp)) s = s.finishStore 4#32 (store .stW 4 (s.dispS rp disp 0) (s.getReg rs) s) := by rfl

theorem exec_ldW_formIV (rd rp : RegNo) (disp : BitVec 16) (s : State) :
    exec (.ldW (.formIV rd rp disp)) s = s.finishLoad 4#32 rd (loadWord .ldW (s.dispS rp disp 0) s) := by rfl

/-- The bytes of a word are enough to know it (20_memory.md R210). -/
theorem wordOfBytes_bytesOfWord (v : Word) : wordOfBytes (bytesOfWord v 4) = v := by
  simp only [wordOfBytes, bytesOfWord, List.foldl_cons, List.foldl_nil]
  refine BitVec.eq_of_getLsbD_eq fun k hk => ?_
  simp only [BitVec.getLsbD_or, BitVec.getLsbD_shiftLeft, BitVec.getLsbD_setWidth, BitVec.getLsbD_ushiftRight]
  interval_cases k <;> simp

/-- Different aligned words share no byte. -/
theorem not_inRange_of_aligned {a b : Word} (ha : a.toNat % 4 = 0) (hb : b.toNat % 4 = 0) (h : b ≠ a) {i : Nat} (hi : i < 4) :
    ¬ inRange a 4 (b + BitVec.ofNat 32 i) := by
  rintro ⟨j, hj, e⟩
  have e := congrArg BitVec.toNat e
  have hne : b.toNat ≠ a.toNat := fun e => h (BitVec.eq_of_toNat_eq e)
  simp only [BitVec.toNat_add, BitVec.toNat_ofNat] at e
  omega

/-- Bytes that agree one by one are the same list. -/
theorem readBytes_congr {m m' : List Host.Cell} {a : Word} {n : Nat}
    (h : ∀ i, i < n → Memory.read m' (a + BitVec.ofNat 32 i).toNat = Memory.read m (a + BitVec.ofNat 32 i).toNat) :
    readBytes m' a n = readBytes m a n := by
  induction n generalizing a with
  | zero => rfl
  | succ n ih =>
    have first := h 0 (by omega)
    rw [BitVec.add_zero] at first
    rw [readBytes, readBytes, first, ih fun i hi => ?_]
    have next := h (i + 1) (by omega)
    rwa [Nat.add_comm, BitVec.ofNat_add, ← BitVec.add_assoc] at next

/-- A byte of a range that is read. -/
theorem getElem?_readBytes {m : List Host.Cell} {a : Word} {n k : Nat} (h : k < n) :
    (readBytes m a n)[k]? = some (Memory.read m (a + BitVec.ofNat 32 k).toNat) := by
  induction n generalizing a k with
  | zero => omega
  | succ n ih =>
    cases k with
    | zero => simp [readBytes]
    | succ k =>
      rw [readBytes, List.getElem?_cons_succ, ih (by omega), Nat.add_comm k, BitVec.ofNat_add, ← BitVec.add_assoc]

/-- The bytes of a word, the most significant first. -/
theorem getElem?_bytesOfWord {v : Word} {n k : Nat} (h : k < n) : (bytesOfWord v n)[k]? = some (v.extractLsb' (8 * (n - 1 - k)) 8) := by
  induction n generalizing k with
  | zero => omega
  | succ n ih =>
    cases k with
    | zero => exact congrArg some (BitVec.eq_of_toNat_eq (by simp [BitVec.extractLsb'_toNat]))
    | succ k => rw [bytesOfWord, List.getElem?_cons_succ, ih (by omega), show n - 1 - k = n + 1 - 1 - (k + 1) by omega]

/-- What a word store at a backed address leaves, as far as the loads behind it see it. -/
theorem stW_direct_next {s t : State} {rp rs : RegNo} {disp : BitVec 16} (direct : Direct s) (ha : (s.dispS rp disp 0).toNat % 4 = 0)
    (backed : Backed s (s.dispS rp disp 0) 4) (run : exec (.stW (.formIV rp rs disp)) s = .next t) :
    t.cfg = s.cfg ∧ t.mem = writeBytes s.mem (s.dispS rp disp 0) (bytesOfWord (s.getReg rs) 4) := by
  rw [exec_stW_formIV, State.finishStore, store_direct direct .stW ((aligned_word_iff (.inl rfl)).mpr ha) backed] at run
  cases run
  exact ⟨rfl, rfl⟩

/-- Settles O43: the word written reads back from its four bytes, which no other aligned word shares. -/
theorem storeThenLoad : Obligations.StoreThenLoad := by
  intro s t rp rs disp a direct wf ha backed run
  obtain ⟨cfg, mem⟩ := stW_direct_next direct ha backed run
  have load {u : State} {b : Word} (hu : u.cfg = s.cfg) (hb : b.toNat % 4 = 0) (hbacked : Backed s b 4) :
      loadWord .ldW b u = .ok (wordOfBytes (readBytes u.mem b 4)) u :=
    loadWord_direct (by rwa [Direct, hu]) .ldW ((aligned_word_iff (.inl rfl)).mpr hb) (by rwa [Backed, hu])
  have back : readBytes t.mem a 4 = bytesOfWord (s.getReg rs) 4 := by
    rw [mem]; exact readBytes_writeBytes wf (bs := bytesOfWord (s.getReg rs) 4) (by simp [bytesOfWord])
  refine ⟨?_, fun k hk => ?_, fun b hne hb hbacked => ⟨wordOfBytes (readBytes s.mem b 4), load rfl hb hbacked, ?_⟩⟩
  · rw [load cfg ha backed, back, wordOfBytes_bytesOfWord]
  · have byte := getElem?_readBytes (m := t.mem) (a := a) hk
    rw [back, getElem?_bytesOfWord hk] at byte
    exact (Option.some.inj byte).symm
  · rw [load cfg hb hbacked, mem, readBytes_congr fun i hi => read_writeBytes_outside wf (not_inRange_of_aligned ha hb hne hi)]

/-! ## An access that the bus does not answer -/

/-- The bus answers nowhere that the platform does not back (20_memory.md R219). -/
theorem State.busAnswers_unbacked {s : State} {k : Access} {pa : Word} (h : backedAt s.cfg pa = false) : s.busAnswers k pa = false := by
  unfold State.busAnswers
  rw [h, Bool.false_and]

/-- One transfer with a byte that nothing backs fails, with its own address (60_exceptions.md R1068). -/
theorem State.busErrorIn_unbacked {s : State} {k : Access} {va : Word} {n : Nat} (h : ¬ Backed s va n) :
    s.busErrorIn k [(va, n)] = some va := by
  cases he : s.busErrorIn k [(va, n)] with
  | some pa =>
    obtain ⟨_, hm, -⟩ := busErrorIn_eq_some he
    simp_all
  | none =>
    refine absurd (fun i hi => ?_) h
    have answers := busErrorIn_eq_none.mp he (va, n) (by simp) i hi
    by_contra hb
    rw [State.busAnswers_unbacked (by simpa using hb)] at answers
    cases answers

/-- A load that fails gives any value, and the error waits. -/
theorem loadWord_unbacked {s : State} (h : Direct s) (kind : LsKind) {va : Word} (ha : aligned 4 va = true) (hb : ¬ Backed s va 4) :
    loadWord kind va s = .ok s.free ((s.noteBusError va).drawFree 1) := by
  have hc := checkAccess_direct h.1 .read s.privileged kind ha
  simp [loadWord, load, hc, Res.bind, readChecked, State.busErrorIn_unbacked hb, State.free]

/-- A store that fails changes no memory, and the error waits. -/
theorem store_unbacked {s : State} (h : Direct s) (kind : LsKind) {va v : Word} (ha : aligned 4 va = true) (hb : ¬ Backed s va 4) :
    store kind 4 va v s = .ok () (s.noteBusError va) := by
  have hc := checkAccess_direct h.1 .write s.privileged kind ha
  simp [store, hc, Res.bind, writeChecked, State.busErrorIn_unbacked hb]

/-- An access and a register write behind it change that register alone. -/
theorem Accessed.sameRegs_setReg {s t : State} (h : Accessed s t) (len : Word) (d : RegNo) (v : Word) :
    SameRegs s ((t.advance len).setReg d v) [d] := by
  intro p real notPc other
  have hd : p ≠ (t.advance len).phys d := by rw [State.phys_advance, h.phys]; exact other d (List.mem_singleton_self d)
  rw [State.setReg, State.readPhys_writePhys_other _ _ (State.phys_real _ d) real hd, State.readPhys_advance _ _ _ notPc, h.readPhys]

theorem Accessed.sameRegs_advance {s t : State} (h : Accessed s t) (len : Word) : SameRegs s (t.advance len) [] :=
  fun p _ notPc _ => by rw [State.readPhys_advance _ _ _ notPc, h.readPhys]

theorem ldW_unbacked {s : State} {d r : RegNo} {disp : BitVec 16} (direct : Direct s) (ha : (s.dispS r disp 0).toNat % 4 = 0)
    (hb : ¬ Backed s (s.dispS r disp 0) 4) : Gives (exec (.ldW (.formIV d r disp)) s) fun t =>
      t.busErr = s.busErr ++ [s.dispS r disp 0] ∧ SameRegs s t [d] ∧ SameSr s t [] ∧ SameMem s t ∧
      SameSystem { s with busErr := t.busErr } t := by
  rw [exec_ldW_formIV, State.finishLoad, loadWord_unbacked direct .ldW ((aligned_word_iff (.inl rfl)).mpr ha) hb]
  refine ⟨_, rfl, ?_, Accessed.sameRegs_setReg ((Accessed.noteBusError s _).trans (Accessed.drawFree _ 1)) _ d _, fun n _ _ => ?_,
    fun a => ?_, ?_⟩
  · simp
  · simp [State.srBit]
  · simp [State.byteAt]
  · simp [SameSystem]

theorem stW_unbacked {s : State} {d r : RegNo} {disp : BitVec 16} (direct : Direct s) (ha : (s.dispS r disp 0).toNat % 4 = 0)
    (hb : ¬ Backed s (s.dispS r disp 0) 4) : Gives (exec (.stW (.formIV r d disp)) s) fun t =>
      t.busErr = s.busErr ++ [s.dispS r disp 0] ∧ t.pc = s.pc + 4#32 ∧ SameRegs s t [] ∧ SameSr s t [] ∧ SameMem s t ∧
      SameSystem { s with busErr := t.busErr } t := by
  rw [exec_stW_formIV, State.finishStore, store_unbacked direct .stW ((aligned_word_iff (.inl rfl)).mpr ha) hb]
  refine ⟨_, rfl, rfl, rfl, (Accessed.noteBusError s _).sameRegs_advance _, fun n _ _ => rfl, fun a => rfl, ?_⟩
  simp [SameSystem]

/-! ## What a boundary accepts -/

theorem State.reportedBusError_eq_some {s : State} {pa : Word} :
    s.reportedBusError = some pa ↔ s.busErr.head? = some pa ∧ (s.now.deferBusError = false ∨ s.busErrDue ≠ 0) := by
  cases hd : s.now.deferBusError <;> by_cases hn : s.busErrDue = 0 <;> simp [State.reportedBusError, hd, hn]

theorem State.reportedBusError_eq_none {s : State} :
    s.reportedBusError = none ↔ s.busErr = [] ∨ (s.now.deferBusError = true ∧ s.busErrDue = 0) := by
  cases hd : s.now.deferBusError <;> by_cases hn : s.busErrDue = 0 <;> simp [State.reportedBusError, hd, hn]

theorem State.nmiAccepted_iff {s : State} :
    s.nmiAccepted = true ↔ s.now.nmi = true ∧ s.mode ≠ 7#3 ∧ (s.srBit bitSS = true → s.srBit bitGM = false) := by
  cases hs : s.srBit bitSS <;> simp [State.nmiAccepted, and_assoc, hs]

/-- The autovector of INT`n`, where the boundary may take it. -/
def State.lineTaken (s : State) (n : Nat) : Option Word := s.intAccepted (interruptLine s n) (bitI0M + n)

theorem State.lineTaken_eq_some {s : State} {n : Nat} {v : Word} :
    s.lineTaken n = some v ↔ s.srBit bitGM = false ∧ interruptLine s n = some v ∧ s.srBit (bitI0M + n) = false := by
  cases hg : s.srBit bitGM <;> cases hm : s.srBit (bitI0M + n) <;> simp [State.lineTaken, State.intAccepted, hg, hm]

theorem State.lineTaken_eq_none {s : State} {n : Nat} (hg : s.srBit bitGM = false) :
    s.lineTaken n = none ↔ interruptLine s n = none ∨ s.srBit (bitI0M + n) = true := by
  cases hm : s.srBit (bitI0M + n) <;> simp [State.lineTaken, State.intAccepted, hg, hm]

/-- The order of a boundary: a bus error, NMI, and the lines from INT3 down (60_exceptions.md R1101). -/
theorem State.pendingEvent_eq (s : State) : s.pendingEvent =
    (s.reportedBusError.map .busErrorData).or ((if s.nmiAccepted then some .nmi else none).or
      (((s.lineTaken 3).map (.interrupt 3#2)).or (((s.lineTaken 2).map (.interrupt 2#2)).or
        (((s.lineTaken 1).map (.interrupt 1#2)).or ((s.lineTaken 0).map (.interrupt 0#2)))))) := by
  have h3 : s.intAccepted s.now.int3 bitI3M = s.lineTaken 3 := rfl
  have h2 : s.intAccepted s.now.int2 bitI2M = s.lineTaken 2 := rfl
  have h1 : s.intAccepted s.now.int1 bitI1M = s.lineTaken 1 := rfl
  have h0 : s.intAccepted s.now.int0 bitI0M = s.lineTaken 0 := rfl
  unfold State.pendingEvent
  rw [h3, h2, h1, h0]
  repeat' split
  all_goals simp [*]

theorem State.pendingEvent_busError {s : State} {pa : Word} : s.pendingEvent = some (.busErrorData pa) ↔ s.reportedBusError = some pa := by
  rw [State.pendingEvent_eq]
  simp

theorem State.pendingEvent_nmi {s : State} : s.pendingEvent = some .nmi ↔ s.reportedBusError = none ∧ s.nmiAccepted = true := by
  rw [State.pendingEvent_eq]
  simp

theorem forall_line_above_iff {P : Nat → Prop} {n : Nat} :
    (∀ m, n < m → m < 4 → P m) ↔ (n < 1 → P 1) ∧ (n < 2 → P 2) ∧ (n < 3 → P 3) := by
  refine ⟨fun h => ⟨fun hn => h 1 hn (by omega), fun hn => h 2 hn (by omega), fun hn => h 3 hn (by omega)⟩, ?_⟩
  rintro ⟨h1, h2, h3⟩ m hn hm
  obtain rfl | rfl | rfl : m = 1 ∨ m = 2 ∨ m = 3 := by omega
  · exact h1 hn
  · exact h2 hn
  · exact h3 hn

/-- INT`n` is taken where no event of higher priority is. -/
theorem State.pendingEvent_interrupt {s : State} {n : BitVec 2} {v : Word} : s.pendingEvent = some (.interrupt n v) ↔
    s.reportedBusError = none ∧ s.nmiAccepted = false ∧ s.lineTaken n.toNat = some v ∧ ∀ m, n.toNat < m → m < 4 → s.lineTaken m = none := by
  rw [State.pendingEvent_eq]
  have : n = 0#2 ∨ n = 1#2 ∨ n = 2#2 ∨ n = 3#2 := by decide +revert
  rcases this with rfl | rfl | rfl | rfl
  all_goals simp [forall_line_above_iff]
  all_goals tauto

theorem step_pending {s : State} {e : Event} (reset : s.sample.now.reset = false) (stopped : s.sample.ocdStopped = false)
    (stop : (s.sample.cfg.hasOcd && s.sample.now.ocdStop) = false) (pending : s.sample.pendingEvent = some e) :
    step s = onNext (fun t => t.clock s.sample false) (takeEvent e s.pc (s.sample.clearPending e)) := by
  rw [step, stepSampled, reset, stopped, stop, pending]
  rfl

/-- Settles O48: a failing word access notes its error, and the boundary's choice in the order of R1101. -/
theorem interruptAcceptance : Obligations.InterruptAcceptance := by
  refine ⟨fun s d r disp direct ha hb => ⟨ldW_unbacked direct ha hb, stW_unbacked direct ha hb⟩,
    fun s pa => State.pendingEvent_busError.trans State.reportedBusError_eq_some, fun s pa => rfl, fun s n v => ?_, fun s => ?_,
    fun s e => step_pending⟩
  · rw [State.pendingEvent_interrupt, State.reportedBusError_eq_none, State.lineTaken_eq_some, ← State.nmiAccepted_iff, Bool.not_eq_true]
    constructor
    · rintro ⟨noError, noNmi, ⟨gm, line, mask⟩, above⟩
      exact ⟨noError, noNmi, gm, line, mask, fun m hn hm => (State.lineTaken_eq_none gm).mp (above m hn hm)⟩
    · rintro ⟨noError, noNmi, gm, line, mask, above⟩
      exact ⟨noError, noNmi, ⟨gm, line, mask⟩, fun m hn hm => (State.lineTaken_eq_none gm).mpr (above m hn hm)⟩
  · rw [State.pendingEvent_nmi, State.reportedBusError_eq_none, State.nmiAccepted_iff]

end Sys2Proof.Machine
end

section
/-! PROOFS. O44: what translation answers for each segment, each outcome of the TLB's search and each region of the MPU. -/

set_option Elab.async false

namespace Sys2Proof.Machine

/-! ## Pages -/

/-- log2 of a page's size in bytes (20_memory.md R253). -/
def pageLog (sz : BitVec 2) : Nat := if sz = 0#2 then 10 else if sz = 1#2 then 12 else if sz = 2#2 then 16 else 20

theorem pageMask_toNat (sz : BitVec 2) : (pageMask sz).toNat = 2 ^ pageLog sz - 1 := by
  revert sz; decide

theorem pageMask_getLsbD (sz : BitVec 2) {k : Nat} (hk : k < 32) : (pageMask sz).getLsbD k = decide (k < pageLog sz) := by
  revert sz k; decide

/-- The offset of an address in its page. -/
theorem toNat_and_pageMask (x : Word) (sz : BitVec 2) : (x &&& pageMask sz).toNat = x.toNat % 2 ^ pageLog sz := by
  rw [BitVec.toNat_and, pageMask_toNat, Nat.and_two_pow_sub_one_eq_mod]

/-- The start of the page an address lies in. -/
theorem toNat_and_not_pageMask (x : Word) (sz : BitVec 2) :
    (x &&& ~~~pageMask sz).toNat = x.toNat / 2 ^ pageLog sz * 2 ^ pageLog sz := by
  have shifts : x &&& ~~~pageMask sz = x >>> pageLog sz <<< pageLog sz := by
    refine BitVec.eq_of_getLsbD_eq fun k hk => ?_
    rw [BitVec.getLsbD_and, BitVec.getLsbD_not, pageMask_getLsbD sz hk, BitVec.getLsbD_shiftLeft, BitVec.getLsbD_ushiftRight]
    by_cases h : k < pageLog sz
    · simp [h]
    · simp [h, hk, Nat.add_sub_cancel' (Nat.le_of_not_lt h)]
  have small : x.toNat / 2 ^ pageLog sz * 2 ^ pageLog sz < 2 ^ 32 := (Nat.div_mul_le_self _ _).trans_lt x.isLt
  rw [shifts, BitVec.toNat_shiftLeft, BitVec.toNat_ushiftRight, Nat.shiftRight_eq_div_pow, Nat.shiftLeft_eq, Nat.mod_eq_of_lt small]

/-- A page number with ten bits behind it. -/
theorem toNat_append_zero (n : BitVec 22) : (n ++ 0#10 : Word).toNat = n.toNat * 1024 := by
  rw [BitVec.toNat_append, Nat.shiftLeft_eq]
  simp

/-- The physical address: the frame's start and the offset in the page (20_memory.md R251). -/
theorem TlbEntry.physical_eq (e : TlbEntry) (va : Word) : e.physical va =
    BitVec.ofNat 32 (e.pfn.toNat * 1024 / 2 ^ pageLog e.sz * 2 ^ pageLog e.sz + va.toNat % 2 ^ pageLog e.sz) := by
  have offset : va.toNat % 2 ^ pageLog e.sz < 2 ^ pageLog e.sz := Nat.mod_lt _ (Nat.two_pow_pos _)
  have disjoint := Nat.two_pow_add_eq_or_of_lt offset (e.pfn.toNat * 1024 / 2 ^ pageLog e.sz)
  rw [Nat.mul_comm (_ / _), disjoint, Nat.mul_comm, ← toNat_append_zero, ← toNat_and_not_pageMask, ← toNat_and_pageMask, ← BitVec.toNat_or,
    BitVec.ofNat_toNat, BitVec.setWidth_eq]
  rfl

/-- What the permission bits of an entry allow (20_memory.md R249). -/
def TlbEntry.allows (e : TlbEntry) (k : Access) (priv : Bool) : Bool :=
  (priv || e.ap.getLsbD 2) && (k != .write || e.ap.getLsbD 1) && (k != .fetch || e.ap.getLsbD 0)

theorem TlbEntry.allows_iff {e : TlbEntry} {k : Access} {priv : Bool} : e.allows k priv = true ↔
    (priv = true ∨ e.ap.getLsbD 2 = true) ∧ (k = .write → e.ap.getLsbD 1 = true) ∧ (k = .fetch → e.ap.getLsbD 0 = true) := by
  cases k <;> simp [TlbEntry.allows]

theorem translatePaged_miss {s : State} {k : Access} {va : Word} (h : s.tlbHits (k == .fetch) va = []) (priv : Bool) :
    translatePaged k priv va s = .raise (missEvent k va) s := by
  simp only [translatePaged, h]

/-- One hit: the entry's rights, then its Dirty bit, and in each case the Accessed bit is cleared. -/
theorem translatePaged_one {s : State} {k : Access} {va : Word} {e : TlbEntry} {i : Nat} (h : s.tlbHits (k == .fetch) va = [(e, i)])
    (priv : Bool) : translatePaged k priv va s =
      (let s1 := s.setTlbEntry (k == .fetch) i { e with a := false }
       if e.allows k priv then if k = .write ∧ e.d = false then .raise (.dtlbModified va) s1 else .ok (e.access k va) s1
       else .raise (protectionEvent k va) s1) := by
  simp only [translatePaged, h]
  by_cases mode : priv = true ∨ e.ap.getLsbD 2 = true
  · have passes : (!priv && !e.ap.getLsbD 2) = false := by simpa [imp_iff_not_or] using mode
    have rights : e.allows k priv = ((k != .write || e.ap.getLsbD 1) && (k != .fetch || e.ap.getLsbD 0)) := by
      rw [TlbEntry.allows, Bool.or_eq_true_iff.mpr mode, Bool.true_and]
    rw [passes, rights]
    cases k with
    | read => rfl
    | write => cases e.ap.getLsbD 1 <;> cases e.d <;> rfl
    | fetch => rfl
  · have stops : (!priv && !e.ap.getLsbD 2) = true := by simpa using mode
    have refused : e.allows k priv = false := by simp_all [TlbEntry.allows]
    rw [stops, refused]
    rfl

theorem translatePaged_multiple {s : State} {k : Access} {va : Word} (h : 1 < (s.tlbHits (k == .fetch) va).length) (priv : Bool) :
    translatePaged k priv va s = .raise (.tlbMultipleHit va (k == .fetch)) s := by
  simp only [translatePaged]
  split
  · next e => rw [e] at h; exact absurd h (by simp)
  · next e => rw [e] at h; exact absurd h (by simp)
  · rfl

/-! ## Segments -/

/-- The segments and what each is: only the low half is open to Application mode; P0, P4 where it is no segment of its own, and P3 are paged, and
in P1, P2 and P3 without pages the upper address bits are cleared (20_memory.md R232 to R235). -/
theorem translateMmu_eq (k : Access) (priv : Bool) (va : Word) (s : State) : translateMmu k priv va s =
    (let seg := va.toNat / 2 ^ 29
     if s.mmu.mmucr.getLsbD 4 = false then
       if s.mmu.mmucr.getLsbD 0 = true then translatePaged k priv va s else .ok (plainAccess s.cfg va true) s
     else if 4 ≤ seg ∧ priv = false then .raise (protectionEvent k va) s
     else if s.mmu.mmucr.getLsbD 0 = true ∧ (seg < 4 ∨ seg = 6) then translatePaged k priv va s
     else .ok (plainAccess s.cfg (BitVec.ofNat 32 (if 4 ≤ seg ∧ seg < 7 then va.toNat % 2 ^ 29 else va.toNat)) (decide (seg ≠ 5 ∧ seg ≠ 7))) s) := by
  have small : va.toNat / 2 ^ 29 < 8 := by have := va.isLt; omega
  have number : (va.extractLsb' 29 3).toNat = va.toNat / 2 ^ 29 := by
    rw [BitVec.extractLsb'_toNat, Nat.shiftRight_eq_div_pow, Nat.mod_eq_of_lt small]
  have upper : va.msb = decide (4 ≤ va.toNat / 2 ^ 29) := by
    rw [BitVec.msb_eq_decide, decide_eq_decide]
    omega
  have cleared : va &&& 0x1FFFFFFF#32 = BitVec.ofNat 32 (va.toNat % 2 ^ 29) := by
    have field : (va &&& 0x1FFFFFFF#32).toNat = va.toNat % 2 ^ 29 := Nat.and_two_pow_sub_one_eq_mod va.toNat 29
    rw [← field, BitVec.ofNat_toNat, BitVec.setWidth_eq]
  have whole : BitVec.ofNat 32 va.toNat = va := by rw [BitVec.ofNat_toNat, BitVec.setWidth_eq]
  have plain (cached : Bool) (pa : Word) : unpaged s.cfg cached pa = plainAccess s.cfg pa cached := rfl
  simp only [translateMmu, number, upper, cleared, plain]
  generalize va.toNat / 2 ^ 29 = seg at small
  generalize va.toNat % 2 ^ 29 = low
  cases s.mmu.mmucr.getLsbD 4 with
  | false => rfl
  | true =>
    by_cases denied : 4 ≤ seg ∧ priv = false
    · simp [denied]
    · have allowed : (decide (4 ≤ seg) && !priv) = false := by simpa using denied
      simp only [denied, allowed, Bool.not_true, Bool.false_eq_true, Bool.true_eq_false, if_false]
      interval_cases seg <;> simp [whole]

/-! ## A machine with a TLB -/

theorem translate_eq_mmu {s : State} (h : s.cfg.mmut = .split ∨ s.cfg.mmut = .shared) (k : Access) (priv : Bool) (va : Word) :
    translate k priv va s = translateMmu k priv va s := by
  unfold translate
  obtain h | h := h <;> rw [h]

/-- Where an address is paged and open to the access, translation is the search of the TLB (20_memory.md R235). -/
theorem translateMmu_paged {s : State} {priv : Bool} {va : Word} (k : Access) (paging : s.mmu.mmucr.getLsbD 0 = true)
    (inPages : ¬ s.mmu.mmucr.getLsbD 4 = true ∨ va.toNat / 2 ^ 29 < 4 ∨ va.toNat / 2 ^ 29 = 6)
    (isOpen : ¬ s.mmu.mmucr.getLsbD 4 = true ∨ priv = true ∨ va.toNat / 2 ^ 29 < 4) :
    translateMmu k priv va s = translatePaged k priv va s := by
  rw [translateMmu_eq]
  by_cases segments : s.mmu.mmucr.getLsbD 4 = false
  · simp only [segments, paging, if_true]
  · rw [Bool.not_eq_false] at segments
    have denied : ¬ (4 ≤ va.toNat / 2 ^ 29 ∧ priv = false) := by
      rintro ⟨high, app⟩
      simp_all
      omega
    have there : s.mmu.mmucr.getLsbD 0 = true ∧ (va.toNat / 2 ^ 29 < 4 ∨ va.toNat / 2 ^ 29 = 6) :=
      ⟨paging, inPages.resolve_left (fun h => h segments)⟩
    simp only [segments, denied, if_pos there, Bool.true_eq_false, if_false]

/-- The attributes of a page (20_memory.md R236, R249). -/
theorem TlbEntry.access_eq (e : TlbEntry) (k : Access) (va : Word) : e.access k va =
    ⟨BitVec.ofNat 32 (e.pfn.toNat * 1024 / 2 ^ pageLog e.sz * 2 ^ pageLog e.sz + va.toNat % 2 ^ pageLog e.sz),
      ⟨e.c, e.b, decide (e.c = true ∧ e.w = true ∧ k ≠ .fetch)⟩⟩ := by
  have through : (e.c && e.w && k != .fetch) = decide (e.c = true ∧ e.w = true ∧ k ≠ .fetch) := by
    rw [Bool.eq_iff_iff]
    simp [and_assoc]
  rw [TlbEntry.access, TlbEntry.physical_eq, TlbEntry.attributes, through]

/-! ## Regions -/

/-- The regions that are there, each with its number (20_memory.md R282). -/
def State.mpuRegionList (s : State) : List (Word × Nat) := (s.mpu.ar.toList.take (mpuRegions s.cfg)).zipIdx

theorem State.mem_mpuRegionList {s : State} {ar : Word} {n : Nat} :
    (ar, n) ∈ s.mpuRegionList ↔ n < s.cfg.dmmuSz.toNat ∧ ∃ h : n < 8, s.mpu.ar[n] = ar := by
  rw [State.mpuRegionList, List.mem_zipIdx_iff_getElem?, List.getElem?_take]
  by_cases h : n < 8
  · simp [mpuRegions, h]
  · simp [h]

/-- A region's number is its own. -/
theorem State.nodup_mpuRegionList (s : State) : s.mpuRegionList.Nodup := by
  apply List.Nodup.of_map Prod.snd
  rw [State.mpuRegionList, List.zipIdx_map_snd]
  exact List.nodup_range'

theorem mpuLogSize_eq (ar : Word) : mpuLogSize ar = ar.toNat / 2 % 32 + 1 := by
  rw [mpuLogSize, BitVec.extractLsb'_toNat, Nat.shiftRight_eq_div_pow]

theorem mpuUndefined_iff {cfg : Params} {ar : Word} : mpuUndefined cfg ar = true ↔ ar.getLsbD 0 = true ∧
    ¬ (cfg.mpuMinRegion.toNat ≤ ar.toNat / 2 % 32 ∧ ar.toNat / 4096 * 4096 % 2 ^ (ar.toNat / 2 % 32 + 1) = 0) := by
  have size : (ar.extractLsb' 1 5).toNat = ar.toNat / 2 % 32 := by rw [BitVec.extractLsb'_toNat, Nat.shiftRight_eq_div_pow]
  have base : mpuBase ar = ar.toNat / 4096 * 4096 := rfl
  rw [mpuUndefined, Bool.and_eq_true, Bool.or_eq_true, BitVec.ult, size, mpuLogSize_eq, base, decide_eq_true_iff, bne_iff_ne, not_and_or, not_le]

/-- Where its size divides its start, a region holds the addresses from its start on (20_memory.md R292). -/
theorem mpuHit_iff {ar va : Word} (h : ar.toNat / 4096 * 4096 % 2 ^ (ar.toNat / 2 % 32 + 1) = 0) : mpuHit ar va = true ↔
    ar.getLsbD 0 = true ∧ ar.toNat / 4096 * 4096 ≤ va.toNat ∧ va.toNat < ar.toNat / 4096 * 4096 + 2 ^ (ar.toNat / 2 % 32 + 1) := by
  have base : mpuBase ar = ar.toNat / 4096 * 4096 := rfl
  rw [mpuHit, Bool.and_eq_true, beq_iff_eq, mpuLogSize_eq, base]
  obtain ⟨q, hq⟩ := Nat.dvd_of_mod_eq_zero h
  have positive := Nat.two_pow_pos (ar.toNat / 2 % 32 + 1)
  rw [hq, Nat.mul_div_cancel_left _ positive, Nat.div_eq_iff positive]
  rw [Nat.mul_comm q, Nat.le_sub_one_iff_lt (by omega)]

theorem no_undefined {s : State} (h : RegionsDefined s) : s.mpuRegionList.any (fun p => mpuUndefined s.cfg p.1) = false := by
  rw [List.any_eq_false]
  rintro ⟨ar, n⟩ hm bad
  obtain ⟨there, hn, rfl⟩ := State.mem_mpuRegionList.mp hm
  obtain ⟨valid, undefined⟩ := mpuUndefined_iff.mp bad
  exact undefined (h n hn there valid)

theorem exists_undefined {s : State} (h : ¬ RegionsDefined s) : s.mpuRegionList.any (fun p => mpuUndefined s.cfg p.1) = true := by
  unfold RegionsDefined at h
  push Not at h
  obtain ⟨n, hn, there, valid, undefined⟩ := h
  exact List.any_eq_true.mpr ⟨(s.mpu.ar[n], n), State.mem_mpuRegionList.mpr ⟨there, hn, rfl⟩,
    mpuUndefined_iff.mpr ⟨valid, fun d => undefined d.1 d.2⟩⟩

/-- The regions that hold `va`. -/
def State.mpuHits (s : State) (va : Word) : List (Word × Nat) := s.mpuRegionList.filter (fun p => mpuHit p.1 va)

theorem State.mem_mpuHits {s : State} (defined : RegionsDefined s) {va ar : Word} {n : Nat} :
    (ar, n) ∈ s.mpuHits va ↔ RegionHolds s n va ∧ ∃ h : n < 8, s.mpu.ar[n] = ar := by
  rw [State.mpuHits, List.mem_filter, State.mem_mpuRegionList]
  constructor
  · rintro ⟨⟨there, hn, rfl⟩, hit⟩
    have valid : s.mpu.ar[n].getLsbD 0 = true := by
      simp only [mpuHit, Bool.and_eq_true] at hit; exact hit.1
    obtain ⟨-, lo, hi⟩ := (mpuHit_iff (defined n hn there valid).2).mp hit
    exact ⟨⟨hn, there, valid, lo, hi⟩, hn, rfl⟩
  · rintro ⟨⟨hn, there, valid, lo, hi⟩, -, rfl⟩
    exact ⟨⟨there, hn, rfl⟩, (mpuHit_iff (defined n hn there valid).2).mpr ⟨valid, lo, hi⟩⟩

/-- The codes of Table 6-3 (20_memory.md R291). -/
theorem mpuPermits_eq (ap : BitVec 4) (priv : Bool) (k : Access) :
    (mpuRights ap.toNat).map (fun r => decide (k ∈ if priv then r.1 else r.2)) = if 11 ≤ ap.toNat then none else some (mpuPermits ap priv k) := by
  cases k <;> revert ap priv <;> decide

theorem mpuPermits_some {ap : BitVec 4} {r : List Access × List Access} (h : mpuRights ap.toNat = some r) (priv : Bool) (k : Access) :
    ¬ 11 ≤ ap.toNat ∧ (mpuPermits ap priv k = true ↔ k ∈ if priv then r.1 else r.2) := by
  have table := mpuPermits_eq ap priv k
  rw [h, Option.map_some] at table
  by_cases code : 11 ≤ ap.toNat
  · rw [if_pos code] at table
    cases table
  · rw [if_neg code] at table
    exact ⟨code, by rw [← Option.some.inj table, decide_eq_true_iff]⟩

theorem mpuPermits_none {ap : BitVec 4} (h : mpuRights ap.toNat = none) : 11 ≤ ap.toNat := by
  have table := mpuPermits_eq ap true .read
  rw [h, Option.map_none] at table
  by_contra code
  rw [if_neg code] at table
  cases table

/-- A list without repetition whose elements are all one. -/
theorem singleton_of_nodup {α : Type} {l : List α} {a : α} (nodup : l.Nodup) (ha : a ∈ l) (all : ∀ x ∈ l, x = a) : l = [a] := by
  match l with
  | [] => cases ha
  | [x] => rw [all x (by simp)]
  | x :: y :: l =>
    have same : x = y := (all x (by simp)).trans (all y (by simp)).symm
    simp [same] at nodup

/-! ## A machine with an MPU -/

theorem translate_eq_mpu {s : State} (h : s.cfg.mmut = .mpu) (k : Access) (priv : Bool) (va : Word) :
    translate k priv va s = checkMpu k priv va s := by
  unfold translate
  rw [h]

theorem checkMpu_disabled {s : State} (h : s.mpu.cr.getLsbD 0 = false) (k : Access) (priv : Bool) (va : Word) :
    checkMpu k priv va s = .ok ⟨va, ⟨false, false, false⟩⟩ s := by
  unfold checkMpu
  rw [h]
  rfl

/-- While a valid region has an undefined size or start, any outcome (notes/assumptions/16.md). -/
theorem checkMpu_undefined {s : State} (enabled : s.mpu.cr.getLsbD 0 = true) (h : ¬ RegionsDefined s) (k : Access) (priv : Bool) (va : Word) :
    (∃ a, checkMpu k priv va s = .ok ⟨va, a⟩ (s.drawFree 1)) ∨ checkMpu k priv va s = .raise (missEvent k va) (s.drawFree 1) ∨
    checkMpu k priv va s = .raise (.tlbMultipleHit va (k == .fetch)) (s.drawFree 1) ∨
    checkMpu k priv va s = .raise (protectionEvent k va) (s.drawFree 1) := by
  have bad := exists_undefined h
  unfold State.mpuRegionList at bad
  simp only [checkMpu, enabled, bad, Bool.not_true, Bool.false_eq_true, if_false, if_true]
  split
  · exact .inl ⟨_, rfl⟩
  · exact .inr (.inl rfl)
  · exact .inr (.inr (.inl rfl))
  · exact .inr (.inr (.inr rfl))

section
variable {s : State} (enabled : s.mpu.cr.getLsbD 0 = true) (defined : RegionsDefined s)
include enabled defined

theorem checkMpu_miss {va : Word} (h : s.mpuHits va = []) (k : Access) (priv : Bool) : checkMpu k priv va s = .raise (missEvent k va) s := by
  have good := no_undefined defined
  unfold State.mpuRegionList at good
  unfold State.mpuHits State.mpuRegionList at h
  simp only [checkMpu, enabled, good, h, Bool.not_true, Bool.false_eq_true, if_false]

theorem checkMpu_multiple {va : Word} {n m : Nat} (hne : n ≠ m) (hn : RegionHolds s n va) (hm : RegionHolds s m va) (k : Access)
    (priv : Bool) : checkMpu k priv va s = .raise (.tlbMultipleHit va (k == .fetch)) s := by
  have good := no_undefined defined
  have inHits {i : Nat} (hi : RegionHolds s i va) : ∃ ar, (ar, i) ∈ s.mpuHits va :=
    ⟨_, (State.mem_mpuHits defined).mpr ⟨hi, hi.1, rfl⟩⟩
  obtain ⟨a, ha⟩ := inHits hn
  obtain ⟨b, hb⟩ := inHits hm
  unfold State.mpuRegionList at good
  unfold State.mpuHits State.mpuRegionList at ha hb
  simp only [checkMpu, enabled, good, Bool.not_true, Bool.false_eq_true, if_false]
  split
  · next e => rw [e] at ha; cases ha
  · next e =>
    rw [e, List.mem_singleton] at ha hb
    exact absurd ((congrArg Prod.snd ha).trans (congrArg Prod.snd hb).symm) hne
  · rfl

/-- With one region: the permission of the subregion, where its code is defined, and its attributes. -/
theorem checkMpu_one {va ar : Word} {n : Nat} (h : s.mpuHits va = [(ar, n)]) (k : Access) (priv : Bool) : checkMpu k priv va s =
    (let second := (s.mpu.psr.toList.getD n 0#32).getLsbD (va.toNat / 2 ^ (mpuLogSize ar - 4) % 16)
     let ap := (if second then s.mpu.aprb else s.mpu.apra).extractLsb' (4 * n) 4
     let out : Translated := ⟨va, s.mpuAttributes second n⟩
     if 11 ≤ ap.toNat then
       if s.free.getLsbD 0 then .ok out (s.drawFree 1) else .raise (protectionEvent k va) (s.drawFree 1)
     else if mpuPermits ap priv k then .ok out s else .raise (protectionEvent k va) s) := by
  have good := no_undefined defined
  unfold State.mpuRegionList at good
  unfold State.mpuHits State.mpuRegionList at h
  simp only [checkMpu, enabled, good, h, Bool.not_true, Bool.false_eq_true, if_false]

end

/-- The sixteenth of a region that an address lies in, where the region is not too small to have sixteen (20_memory.md R288). -/
theorem subregion_eq {va size : Nat} (h : 4 ≤ size) : va / 2 ^ (size - 4) % 16 = va * 16 / 2 ^ size % 16 := by
  have split : 2 ^ size = 2 ^ (size - 4) * 16 := (Nat.pow_sub_mul_pow 2 h).symm
  rw [split, Nat.mul_div_mul_right _ _ (by decide)]

theorem translate_tlb (s : State) (k : Access) (priv : Bool) (va : Word) (tlb : s.cfg.mmut = .split ∨ s.cfg.mmut = .shared) :
    let seg := va.toNat / 2 ^ 29
    let S := s.mmu.mmucr.getLsbD 4 = true
    let E := s.mmu.mmucr.getLsbD 0 = true
    let paged := E ∧ (¬ S ∨ seg < 4 ∨ seg = 6)
    (S → priv = false → 4 ≤ seg → translate k priv va s = .raise (protectionEvent k va) s) ∧
    (¬ S → ¬ E → translate k priv va s = .ok (plainAccess s.cfg va true) s) ∧
    (S → (priv = true ∨ seg < 4) → ¬ paged →
      translate k priv va s = .ok (plainAccess s.cfg (BitVec.ofNat 32 (if 4 ≤ seg ∧ seg < 7 then va.toNat % 2 ^ 29 else va.toNat))
        (decide (seg ≠ 5 ∧ seg ≠ 7))) s) ∧
    (paged → (¬ S ∨ priv = true ∨ seg < 4) → translate k priv va s = translatePaged k priv va s) := by
  intro seg S E paged
  rw [translate_eq_mmu tlb]
  refine ⟨fun hs app high => ?_, fun hs he => ?_, fun hs hopen hp => ?_, fun hp hopen => translateMmu_paged k hp.1 hp.2 hopen⟩
  · rw [translateMmu_eq, if_neg (by simp [S] at hs; simp [hs]), if_pos ⟨high, app⟩]
  · rw [translateMmu_eq, if_pos (by simpa [S] using hs), if_neg he]
  · have denied : ¬ (4 ≤ seg ∧ priv = false) := by
      rintro ⟨high, app⟩
      exact absurd (hopen.resolve_left (by simp [app])) (by omega)
    rw [translateMmu_eq, if_neg (by simp [S] at hs; simp [hs]), if_neg denied, if_neg fun h => hp ⟨h.1, .inr h.2⟩]

theorem translatePaged_hit {s : State} {k : Access} {va : Word} {e : TlbEntry} {i : Nat} (hit : s.tlbHits (k == .fetch) va = [(e, i)])
    (priv : Bool) :
    let size := 2 ^ pageLog e.sz
    let s1 := s.setTlbEntry (k == .fetch) i { e with a := false }
    let pa := BitVec.ofNat 32 (e.pfn.toNat * 1024 / size * size + va.toNat % size)
    let allowed := (priv = true ∨ e.ap.getLsbD 2 = true) ∧ (k = .write → e.ap.getLsbD 1 = true) ∧ (k = .fetch → e.ap.getLsbD 0 = true)
    (allowed → (k = .write → e.d = true) →
      translatePaged k priv va s = .ok ⟨pa, ⟨e.c, e.b, decide (e.c = true ∧ e.w = true ∧ k ≠ .fetch)⟩⟩ s1) ∧
    (allowed → k = .write → e.d = false → translatePaged k priv va s = .raise (.dtlbModified va) s1) ∧
    (¬ allowed → translatePaged k priv va s = .raise (protectionEvent k va) s1) := by
  intro size s1 pa allowed
  rw [translatePaged_one hit]
  refine ⟨fun ha hd => ?_, fun ha hw hd => ?_, fun ha => ?_⟩
  · have clean : ¬ (k = .write ∧ e.d = false) := fun ⟨hw, h⟩ => by simp [hd hw] at h
    rw [if_pos (TlbEntry.allows_iff.mpr ha), if_neg clean, TlbEntry.access_eq]
  · rw [if_pos (TlbEntry.allows_iff.mpr ha), if_pos ⟨hw, hd⟩]
  · rw [if_neg (mt TlbEntry.allows_iff.mp ha)]

/-- One region holds the address: Table 6-3 for the subregion, and a free answer for a code that it does not define. -/
theorem translate_region {s : State} (mpu : s.cfg.mmut = .mpu) (enabled : s.mpu.cr.getLsbD 0 = true) (defined : RegionsDefined s)
    (least : 3 ≤ s.cfg.mpuMinRegion.toNat) (k : Access) (priv : Bool) {va : Word} {n : Nat} (h : n < 8) (holds : RegionHolds s n va)
    (only : ∀ m, RegionHolds s m va → m = n) :
    let size := 2 ^ (s.mpu.ar[n].toNat / 2 % 32 + 1)
    let second := s.mpu.psr[n].getLsbD (va.toNat * 16 / size % 16)
    let ap := (if second then s.mpu.aprb else s.mpu.apra).extractLsb' (4 * n) 4
    let out : Translated := ⟨va, s.mpuAttributes second n⟩
    (∀ r, mpuRights ap.toNat = some r → translate k priv va s =
      if k ∈ (if priv then r.1 else r.2) then .ok out s else .raise (protectionEvent k va) s) ∧
    (mpuRights ap.toNat = none → translate k priv va s = .ok out (s.drawFree 1) ∨
      translate k priv va s = .raise (protectionEvent k va) (s.drawFree 1)) := by
  have hits : s.mpuHits va = [(s.mpu.ar[n], n)] := by
    refine singleton_of_nodup (s.nodup_mpuRegionList.filter _) ((State.mem_mpuHits defined).mpr ⟨holds, h, rfl⟩) fun p hp => ?_
    obtain ⟨hm, hlt, har⟩ := (State.mem_mpuHits defined (ar := p.1) (n := p.2)).mp hp
    obtain rfl := only p.2 hm
    exact Prod.ext har.symm rfl
  have sixteenth : va.toNat / 2 ^ (mpuLogSize s.mpu.ar[n] - 4) % 16 = va.toNat * 16 / 2 ^ (s.mpu.ar[n].toNat / 2 % 32 + 1) % 16 := by
    obtain ⟨_, there, valid, -⟩ := holds
    rw [mpuLogSize_eq, subregion_eq (by have := (defined n h there valid).1; omega)]
  have set : s.mpu.psr.toList.getD n 0#32 = s.mpu.psr[n] := by simp [List.getD_eq_getElem?_getD, h]
  intro size second ap out
  rw [translate_eq_mpu mpu, checkMpu_one enabled defined hits, sixteenth, set]
  refine ⟨fun r hr => ?_, fun hr => ?_⟩
  · obtain ⟨code, rights⟩ := mpuPermits_some hr priv k
    rw [if_neg code]
    by_cases hk : k ∈ if priv then r.1 else r.2
    · rw [if_pos hk, if_pos (rights.mpr hk)]
    · rw [if_neg hk, if_neg (mt rights.mp hk)]
  · rw [if_pos (mpuPermits_none hr)]
    cases s.free.getLsbD 0
    · exact .inr rfl
    · exact .inl rfl

/-- Settles O44: each kind of memory management by what its own check answers. -/
theorem segmentsAndPages : Obligations.SegmentsAndPages := by
  intro s k priv va seg S E paged
  refine ⟨fun none => ?_, fun tlb => ?_, fun mpu => ⟨fun disabled => ?_, fun enabled defined least => ⟨fun outside => ?_, ?_, ?_⟩, ?_⟩⟩
  · unfold translate
    rw [none]
  · obtain ⟨denied, flat, unpaged, inPages⟩ := translate_tlb s k priv va tlb
    refine ⟨denied, flat, unpaged, fun hp hopen => ?_⟩
    rw [inPages hp hopen]
    exact ⟨fun h => translatePaged_miss h priv, fun h => translatePaged_multiple h priv, fun e i hit => translatePaged_hit hit priv⟩
  · rw [translate_eq_mpu mpu, checkMpu_disabled disabled]
  · rw [translate_eq_mpu mpu]
    refine checkMpu_miss enabled defined (List.eq_nil_iff_forall_not_mem.mpr fun p hp => ?_) k priv
    exact outside p.2 ((State.mem_mpuHits defined (ar := p.1)).mp hp).1
  · intro n m hne hn hm
    rw [translate_eq_mpu mpu, checkMpu_multiple enabled defined hne hn hm]
  · intro n h holds only
    exact translate_region mpu enabled defined least k priv h holds only
  · intro enabled bad
    rw [translate_eq_mpu mpu]
    exact checkMpu_undefined enabled bad k priv va

end Sys2Proof.Machine
end

section
/-! PROOFS. O42: where the implementation does not let an access be misaligned, each form of each instruction that makes one raises Data Address
with the address of the form. -/

set_option Elab.async false

namespace Sys2Proof.Machine

/-! ## Accesses -/

theorem misaligned_half {va : Word} (h : va.toNat % 2 ≠ 0) : aligned 2 va = false :=
  Bool.eq_false_iff.mpr (mt aligned_half_iff.mp h)

theorem misaligned_word {va : Word} (h : va.toNat % 4 ≠ 0) : aligned 4 va = false :=
  Bool.eq_false_iff.mpr (mt (aligned_word_iff (.inl rfl)).mp h)

theorem misaligned_double {va : Word} (h : va.toNat % 4 ≠ 0) : aligned 8 va = false :=
  Bool.eq_false_iff.mpr (mt (aligned_word_iff (.inr rfl)).mp h)

section
variable {s : State} {kind : LsKind} {va : Word} (hk : s.cfg.unalignedOk.contains kind = false)
include hk

theorem load_misaligned {n : Nat} (h : aligned n va = false) (conv : Word → Word) :
    load kind n conv va s = .raise (.dataAddressRead va) s := by
  rw [load, checkAccess_misaligned .read _ h hk]; rfl

theorem loadDouble_misaligned (h : va.toNat % 4 ≠ 0) : loadDouble kind va s = .raise (.dataAddressRead va) s := by
  rw [loadDouble, checkAccess_misaligned .read _ (misaligned_double h) hk]; rfl

theorem store_misaligned {n : Nat} (h : aligned n va = false) (v : Word) : store kind n va v s = .raise (.dataAddressWrite va) s := by
  rw [store, checkAccess_misaligned .write _ h hk]; rfl

theorem storeDouble_misaligned (h : va.toNat % 4 ≠ 0) (hi lo : Word) : storeDouble kind va hi lo s = .raise (.dataAddressWrite va) s := by
  rw [storeDouble, checkAccess_misaligned .write _ (misaligned_double h) hk]; rfl

theorem swapWord_misaligned (h : va.toNat % 4 ≠ 0) (f : Word → Word) : swapWord kind va f s = .raise (.dataAddressRead va) s := by
  rw [swapWord, checkAccess_misaligned .read _ (misaligned_word h) hk]; rfl

theorem loadWords_misaligned (h : va.toNat % 4 ≠ 0) {n : Nat} (hn : n ≠ 0) : loadWords kind va n s = .raise (.dataAddressRead va) s := by
  obtain ⟨n, rfl⟩ := Nat.exists_eq_succ_of_ne_zero hn
  rw [loadWords, loadWord, load_misaligned hk (misaligned_word h)]; rfl

theorem storeWords_misaligned (h : va.toNat % 4 ≠ 0) (v : Word) (ws : List (Word × Word)) :
    storeWords kind ((va, v) :: ws) s = .raise (.dataAddressWrite va) s := by
  rw [storeWords, store_misaligned hk (misaligned_word h)]; rfl

theorem popWords_misaligned (h : va.toNat % 4 ≠ 0) {n : Nat} (hn : n ≠ 0) : popWords kind va n s = .raise (.dataAddressRead va) s := by
  obtain ⟨n, rfl⟩ := Nat.exists_eq_succ_of_ne_zero hn
  rw [popWords, checkAccess_misaligned .read _ (misaligned_word h) hk]; rfl

end

theorem Res.finish_raised {α : Type} {r : Res α} {e : Event} {s0 : State} (h : r = .raise e s0) (f : α → State → Res State) :
    (r.bind f).finish = raiseEvent e s0 := by
  rw [h]; rfl

/-- An instruction whose first access raises an event raises it as its own. -/
theorem misaligned_of_access {α : Type} {i : Instr} {s s0 : State} {kind : LsKind} {n : Nat} {va : Word} {e : Word → Event} {r : Res α}
    {f : α → State → Res State} (run : exec i s = (r.bind f).finish)
    (fault : s.cfg.unalignedOk.contains kind = false → va.toNat % n ≠ 0 → r = .raise (e va) s0) : Misaligned i s s0 kind n va e :=
  fun hk ha => run.trans (Res.finish_raised (fault hk ha) f)

section
variable {i : Instr} {s : State} {kind : LsKind} {va : Word}

theorem misalignedLoad_half {conv : Word → Word} {f : Word → State → Res State}
    (run : exec i s = ((load kind 2 conv va s).bind f).finish) : MisalignedLoad i s kind 2 va :=
  misaligned_of_access run fun hk ha => load_misaligned hk (misaligned_half ha) conv

theorem misalignedLoad_word {conv : Word → Word} {f : Word → State → Res State}
    (run : exec i s = ((load kind 4 conv va s).bind f).finish) : MisalignedLoad i s kind 4 va :=
  misaligned_of_access run fun hk ha => load_misaligned hk (misaligned_word ha) conv

theorem misalignedLoad_double {f : Word × Word → State → Res State}
    (run : exec i s = ((loadDouble kind va s).bind f).finish) : MisalignedLoad i s kind 4 va :=
  misaligned_of_access run loadDouble_misaligned

theorem misalignedStore_half {v : Word} {f : Unit → State → Res State}
    (run : exec i s = ((store kind 2 va v s).bind f).finish) : MisalignedStore i s s kind 2 va :=
  misaligned_of_access run fun hk ha => store_misaligned hk (misaligned_half ha) v

theorem misalignedStore_word {v : Word} {f : Unit → State → Res State}
    (run : exec i s = ((store kind 4 va v s).bind f).finish) : MisalignedStore i s s kind 4 va :=
  misaligned_of_access run fun hk ha => store_misaligned hk (misaligned_word ha) v

end

/-! ## Single loads -/

/-- The forms of ld.uh and ld.sh. -/
theorem loadForm_misaligned {mk : LoadForm → Instr} {kind : LsKind} {conv : Word → Word}
    (run : ∀ (s : State) f, exec (mk f) s = s.loadForm kind 1 conv f) (s : State) (d p i : RegNo) (sa : BitVec 2) :
    MisalignedLoad (mk (.formI d p)) s kind 2 (s.getReg p) ∧ MisalignedLoad (mk (.formII d p)) s kind 2 (s.getReg p - 2#32) ∧
    (∀ disp, MisalignedLoad (mk (.formIII d p disp)) s kind 2 (s.dispZ p disp 1)) ∧
    (∀ disp, MisalignedLoad (mk (.formIV d p disp)) s kind 2 (s.dispS p disp 0)) ∧
    MisalignedLoad (mk (.formV d p i sa)) s kind 2 (s.indexed p i sa) :=
  ⟨misalignedLoad_half (run s _), misalignedLoad_half (run s _), fun _ => misalignedLoad_half (run s _),
    fun _ => misalignedLoad_half (run s _), misalignedLoad_half (run s _)⟩

theorem exec_ldUh (f : LoadForm) (s : State) : exec (.ldUh f) s = s.loadForm .ldUh 1 zextHalf f := by rfl

theorem exec_ldSh (f : LoadForm) (s : State) : exec (.ldSh f) s = s.loadForm .ldSh 1 sextHalf f := by rfl

theorem halfLoads_misaligned (s : State) (d p i : RegNo) (sa : BitVec 2) :
    ∀ mk kind, (mk, kind) ∈ [(Instr.ldUh, LsKind.ldUh), (Instr.ldSh, LsKind.ldSh)] →
      MisalignedLoad (mk (.formI d p)) s kind 2 (s.getReg p) ∧ MisalignedLoad (mk (.formII d p)) s kind 2 (s.getReg p - 2#32) ∧
      (∀ disp, MisalignedLoad (mk (.formIII d p disp)) s kind 2 (s.dispZ p disp 1)) ∧
      (∀ disp, MisalignedLoad (mk (.formIV d p disp)) s kind 2 (s.dispS p disp 0)) ∧
      MisalignedLoad (mk (.formV d p i sa)) s kind 2 (s.indexed p i sa) := by
  intro mk kind h
  simp only [List.mem_cons, Prod.mk.injEq, List.not_mem_nil, or_false] at h
  obtain ⟨rfl, rfl⟩ | ⟨rfl, rfl⟩ := h
  · exact loadForm_misaligned (fun s f => exec_ldUh f s) s d p i sa
  · exact loadForm_misaligned (fun s f => exec_ldSh f s) s d p i sa

theorem wordLoads_misaligned (s : State) (d p i : RegNo) (sa : BitVec 2) :
    MisalignedLoad (.ldW (.formI d p)) s .ldW 4 (s.getReg p) ∧ MisalignedLoad (.ldW (.formII d p)) s .ldW 4 (s.getReg p - 4#32) ∧
    (∀ disp, MisalignedLoad (.ldW (.formIII d p disp)) s .ldW 4 (s.dispZ p disp 2)) ∧
    (∀ disp, MisalignedLoad (.ldW (.formIV d p disp)) s .ldW 4 (s.dispS p disp 0)) ∧
    MisalignedLoad (.ldW (.formV d p i sa)) s .ldW 4 (s.indexed p i sa) ∧
    ∀ (xp yp : BitVec 1), MisalignedLoad (.ldW (.formVI d xp yp p i)) s .ldW 4
      (s.getReg p + (((s.getReg i).extractLsb' (8 * (xp ++ yp).toNat) 8).setWidth 32 <<< 2)) :=
  have run (f : LdwForm) : exec (.ldW f) s = execLdW f s := by rfl
  ⟨misalignedLoad_word (run _), misalignedLoad_word (run _), fun _ => misalignedLoad_word (run _), fun _ => misalignedLoad_word (run _),
    misalignedLoad_word (run _), fun _ _ => misalignedLoad_word (run _)⟩

theorem doubleLoads_misaligned (s : State) (d p i : RegNo) (sa : BitVec 2) :
    MisalignedLoad (.ldD (.formI d p)) s .ldD 4 (s.getReg p) ∧ MisalignedLoad (.ldD (.formII d p)) s .ldD 4 (s.getReg p - 8#32) ∧
    MisalignedLoad (.ldD (.formIII d p)) s .ldD 4 (s.getReg p) ∧
    (∀ disp, MisalignedLoad (.ldD (.formIV d p disp)) s .ldD 4 (s.dispS p disp 0)) ∧
    MisalignedLoad (.ldD (.formV d p i sa)) s .ldD 4 (s.indexed p i sa) :=
  have run (f : LddForm) : exec (.ldD f) s = execLdD f s := by rfl
  ⟨misalignedLoad_double (run _), misalignedLoad_double (run _), misalignedLoad_double (run _), fun _ => misalignedLoad_double (run _),
    misalignedLoad_double (run _)⟩

/-- The conditional forms, where the condition holds (46_data_transfer.md R755 to R759). -/
theorem conditional_misaligned {s : State} (d p : RegNo) (c : Cond) (disp : BitVec 9) (rev : hasRev s.cfg 2 = true) (holds : s.cond c = true) :
    MisalignedLoad (.ldUhCond c d p disp) s .ldUhCond 2 (s.dispZ p disp 1) ∧
    MisalignedLoad (.ldShCond c d p disp) s .ldShCond 2 (s.dispZ p disp 1) ∧
    MisalignedLoad (.ldWCond c d p disp) s .ldWCond 4 (s.dispZ p disp 2) ∧
    MisalignedStore (.stHCond c p d disp) s s .stHCond 2 (s.dispZ p disp 1) ∧
    MisalignedStore (.stWCond c p d disp) s s .stWCond 4 (s.dispZ p disp 2) := by
  have passes (o : Out) : requireUnit (hasRev s.cfg 2) s (s.ifCond c 4#32 o) = o := by
    rw [requireUnit, if_pos rev, State.ifCond, if_pos holds]
  exact ⟨misalignedLoad_half (passes _), misalignedLoad_half (passes _), misalignedLoad_word (passes _), misalignedStore_half (passes _),
    misalignedStore_word (passes _)⟩

theorem partial_misaligned (s : State) (d p : RegNo) (disp : BitVec 12) :
    (∀ part, MisalignedLoad (.ldinsH d p part disp) s .ldinsH 2 (s.dispS p disp 1)) ∧
    MisalignedLoad (.ldswpSh d p disp) s .ldswpSh 2 (s.dispS p disp 1) ∧ MisalignedLoad (.ldswpUh d p disp) s .ldswpUh 2 (s.dispS p disp 1) ∧
    MisalignedLoad (.ldswpW d p disp) s .ldswpW 4 (s.dispS p disp 2) ∧
    MisalignedStore (.stswpH p d disp) s s .stswpH 2 (s.dispS p disp 1) ∧
    MisalignedStore (.stswpW p d disp) s s .stswpW 4 (s.dispS p disp 2) :=
  ⟨fun _ => misalignedLoad_half rfl, misalignedLoad_half rfl, misalignedLoad_half rfl, misalignedLoad_word rfl, misalignedStore_half rfl,
    misalignedStore_word rfl⟩

/-! ## Single stores -/

/-- A store with a moved pointer: where the pointer is the source, two free values are drawn before the check (R822). -/
theorem storePtr_misaligned {s : State} {kind : LsKind} {n : Nat} {va : Word} (hk : s.cfg.unalignedOk.contains kind = false)
    (h : aligned n va = false) (len : Word) (p d : RegNo) (ptr : Word) :
    s.storePtr len kind n p d va ptr = raiseEvent (.dataAddressWrite va) (if p = d then s.drawFree 2 else s) := by
  unfold State.storePtr
  split
  · rw [store_misaligned (s := s.drawFree 2) hk h]; rfl
  · rw [store_misaligned hk h]; rfl

theorem singleStores_misaligned (s : State) (d p i : RegNo) (sa : BitVec 2) :
    let s0 := if p = d then s.drawFree 2 else s
    MisalignedStore (.stH (.formI p d)) s s0 .stH 2 (s.getReg p) ∧ MisalignedStore (.stH (.formII p d)) s s0 .stH 2 (s.getReg p - 2#32) ∧
    (∀ disp, MisalignedStore (.stH (.formIII p d disp)) s s .stH 2 (s.dispZ p disp 1)) ∧
    (∀ disp, MisalignedStore (.stH (.formIV p d disp)) s s .stH 2 (s.dispS p disp 0)) ∧
    MisalignedStore (.stH (.formV p i d sa)) s s .stH 2 (s.indexed p i sa) ∧
    MisalignedStore (.stW (.formI p d)) s s0 .stW 4 (s.getReg p) ∧ MisalignedStore (.stW (.formII p d)) s s0 .stW 4 (s.getReg p - 4#32) ∧
    (∀ disp, MisalignedStore (.stW (.formIII p d disp)) s s .stW 4 (s.dispZ p disp 2)) ∧
    (∀ disp, MisalignedStore (.stW (.formIV p d disp)) s s .stW 4 (s.dispS p disp 0)) ∧
    MisalignedStore (.stW (.formV p i d sa)) s s .stW 4 (s.indexed p i sa) :=
  have runH (f : StoreForm) : exec (.stH f) s = s.storeForm .stH 1 f := by rfl
  have runW (f : StwForm) : exec (.stW f) s = execStW f s := by rfl
  ⟨fun hk ha => (runH _).trans (storePtr_misaligned hk (misaligned_half ha) ..),
    fun hk ha => (runH _).trans (storePtr_misaligned hk (misaligned_half ha) ..),
    fun _ => misalignedStore_half (runH _), fun _ => misalignedStore_half (runH _), misalignedStore_half (runH _),
    fun hk ha => (runW _).trans (storePtr_misaligned hk (misaligned_word ha) ..),
    fun hk ha => (runW _).trans (storePtr_misaligned hk (misaligned_word ha) ..),
    fun _ => misalignedStore_word (runW _), fun _ => misalignedStore_word (runW _), misalignedStore_word (runW _)⟩

/-- The pair of an odd number draws its two values before the check (U2). -/
theorem storePair_misaligned {s : State} {va : Word} (hk : s.cfg.unalignedOk.contains .stD = false) (ha : va.toNat % 4 ≠ 0) (d : RegNo) :
    storePair va d s = .raise (.dataAddressWrite va) (pairDrawn s d) := by
  unfold storePair pairDrawn
  split
  · exact storeDouble_misaligned hk ha _ _
  · exact storeDouble_misaligned (s := s.drawFree 2) hk ha _ _

theorem storePairPtr_misaligned {s : State} {va : Word} (hk : s.cfg.unalignedOk.contains .stD = false) (ha : va.toNat % 4 ≠ 0) (p d : RegNo)
    (ptr : Word) : s.storePairPtr p d va ptr =
      raiseEvent (.dataAddressWrite va) (if p = d ∨ p = d + 1#4 then s.drawFree 3 else pairDrawn s d) := by
  simp only [State.storePairPtr, Bool.or_eq_true, decide_eq_true_iff]
  split
  · rw [storeDouble_misaligned (s := s.drawFree 3) hk ha]; rfl
  · rw [storePair_misaligned hk ha]; rfl

theorem doubleStores_misaligned (s : State) (d p i : RegNo) (sa : BitVec 2) :
    let s0 := if p = d ∨ p = d + 1#4 then s.drawFree 3 else pairDrawn s d
    MisalignedStore (.stD (.formI p d)) s s0 .stD 4 (s.getReg p) ∧ MisalignedStore (.stD (.formII p d)) s s0 .stD 4 (s.getReg p - 8#32) ∧
    MisalignedStore (.stD (.formIII p d)) s (pairDrawn s d) .stD 4 (s.getReg p) ∧
    (∀ disp, MisalignedStore (.stD (.formIV p d disp)) s (pairDrawn s d) .stD 4 (s.dispS p disp 0)) ∧
    MisalignedStore (.stD (.formV p i d sa)) s (pairDrawn s d) .stD 4 (s.indexed p i sa) :=
  have run (f : StdForm) : exec (.stD f) s = execStD f s := by rfl
  have pair {va : Word} (hk : s.cfg.unalignedOk.contains .stD = false) (ha : va.toNat % 4 ≠ 0) := storePair_misaligned hk ha d
  ⟨fun hk ha => (run _).trans (storePairPtr_misaligned hk ha ..), fun hk ha => (run _).trans (storePairPtr_misaligned hk ha ..),
    misaligned_of_access (run _) pair, fun _ => misaligned_of_access (run _) pair, misaligned_of_access (run _) pair⟩

theorem sthhW_misaligned (s : State) (d p i : RegNo) (sa : BitVec 2) (xp : BitVec 1) (ry : RegNo) (yp : BitVec 1) :
    (∀ disp, MisalignedStore (.sthhW (.formI d xp ry yp p disp)) s s .sthhW 4 (s.dispZ p disp 2)) ∧
    MisalignedStore (.sthhW (.formII d xp ry yp p i sa)) s s .sthhW 4 (s.indexed p i sa) :=
  ⟨fun _ => misalignedStore_word rfl, misalignedStore_word rfl⟩

theorem stcond_misaligned {s : State} (hl : s.flagL = true) (d p : RegNo) (disp : BitVec 16) :
    MisalignedStore (.stcond p d disp) s s .stcond 4 (s.dispS p disp 0) :=
  misalignedStore_word (if_pos hl)

theorem xchg_misaligned (s : State) (d p i : RegNo) :
    Misaligned (.xchg d p i) s (if xchgUndefined d p i then s.drawFree 2 else s) .xchg 4 (s.getReg p) .dataAddressRead := by
  by_cases hu : xchgUndefined d p i = true
  · rw [if_pos hu]
    exact misaligned_of_access (if_pos hu) fun hk ha => swapWord_misaligned (s := s.drawFree 2) hk ha _
  · rw [if_neg hu]
    exact misaligned_of_access (if_neg hu) fun hk ha => swapWord_misaligned hk ha _

/-! ## Multiple transfers -/

theorem mem_listAscending {list : BitVec 16} {k : Nat} (hk : k < 16) (h : list.getLsbD k = true) : BitVec.ofNat 4 k ∈ listAscending list :=
  List.mem_map_of_mem (List.mem_filter.mpr ⟨List.mem_range.mpr hk, h⟩)

/-- A list that is not empty names a register. -/
theorem listAscending_ne_nil {list : BitVec 16} (h : list ≠ 0#16) : listAscending list ≠ [] := by
  intro e
  refine h (BitVec.eq_of_getLsbD_eq fun k hk => ?_)
  rw [BitVec.getLsbD_zero]
  by_contra hb
  have named := mem_listAscending hk (Bool.not_eq_false _ ▸ hb)
  rw [e] at named
  cases named

theorem listAscending_length_ne_zero {list : BitVec 16} (h : list ≠ 0#16) : (listAscending list).length ≠ 0 :=
  mt List.length_eq_zero_iff.mp (listAscending_ne_nil h)

theorem reglist8_ne_zero {list : BitVec 8} (h : list ≠ 0#8) : reglist8 list ≠ 0#16 := by
  revert list; decide

theorem copPairs_ne_zero {list : BitVec 8} (h : list ≠ 0#8) : copPairs list ≠ 0#16 := by
  revert list; decide

theorem copHigh_ne_zero {list : BitVec 8} (h : list ≠ 0#8) : copHigh list ≠ 0#16 := by
  revert list; decide

theorem copLow_ne_zero {list : BitVec 8} (h : list ≠ 0#8) : copLow list ≠ 0#16 := by
  revert list; decide

/-- The R12 option leaves PC in the list. -/
theorem optionList_ne_zero {list m : BitVec 16} (h : list ≠ 0#16) {b : Bool} (hb : b = true → list.getLsbD 15 = true)
    (hm : m.getLsbD 15 = true) : (if b then list &&& m else list) ≠ 0#16 := by
  split
  · next hopt =>
    intro e
    have bit : (list &&& m).getLsbD 15 = false := by rw [e]; rfl
    rw [BitVec.getLsbD_and, hb hopt, hm] at bit
    cases bit
  · exact h

/-- The first word of a block. -/
theorem blockStores_cons (a : Word) (wb : BitVec 1) {vs : List Word} (h : vs ≠ []) :
    ∃ v ws, blockStores a wb vs = (firstStored a wb, v) :: ws := by
  unfold blockStores firstStored
  split
  · obtain ⟨v, vs, rfl⟩ := List.exists_cons_of_ne_nil h
    exact ⟨v, _, rfl⟩
  · obtain ⟨v, vs, e⟩ := List.exists_cons_of_ne_nil (mt List.reverse_eq_nil_iff.mp h)
    exact ⟨v, storesUp (a + 4#32) vs, by rw [e, storesUp]⟩

theorem storeBlock_misaligned {s : State} {kind : LsKind} {a : Word} {wb : BitVec 1} (hk : s.cfg.unalignedOk.contains kind = false)
    (ha : (firstStored a wb).toNat % 4 ≠ 0) {vs : List Word} (h : vs ≠ []) :
    storeWords kind (blockStores a wb vs) s = .raise (.dataAddressWrite (firstStored a wb)) s := by
  obtain ⟨v, ws, e⟩ := blockStores_cons a wb h
  rw [e, storeWords_misaligned hk ha]

theorem popm_misaligned (s : State) (k : BitVec 1) {list : BitVec 8} (h : list ≠ 0#8) :
    MisalignedLoad (.popm k list) s .popm 4 (s.getReg 13#4) := by
  have some : (if k == 1#1 && (reglist8 list).getLsbD 15 then reglist8 list &&& 0xAFFF#16 else reglist8 list) ≠ 0#16 :=
    optionList_ne_zero (reglist8_ne_zero h) (fun hb => (Bool.and_eq_true_iff.mp hb).2) (by decide)
  exact misaligned_of_access (if_neg (reglist8_ne_zero h)) fun hk ha => loadWords_misaligned hk ha (listAscending_length_ne_zero some)

theorem ldm_misaligned (s : State) (p : RegNo) (wb : BitVec 1) {list : BitVec 16} (h : list ≠ 0#16) :
    MisalignedLoad (.ldm p wb list) s .ldm 4 (if p = 15#4 ∧ list.getLsbD 15 = true then s.getReg 13#4 else s.getReg p) := by
  have some : (if p == 15#4 && list.getLsbD 15 then list &&& 0x8FFF#16 else list) ≠ 0#16 :=
    optionList_ne_zero h (fun hb => (Bool.and_eq_true_iff.mp hb).2) (by decide)
  have base : (if p = 15#4 ∧ list.getLsbD 15 = true then s.getReg 13#4 else s.getReg p) =
      if p == 15#4 && list.getLsbD 15 then s.getReg 13#4 else s.getReg p := by simp
  rw [base]
  exact misaligned_of_access (if_neg h) fun hk ha => loadWords_misaligned hk ha (listAscending_length_ne_zero some)

theorem ldmts_misaligned (s : State) (p : RegNo) (wb : BitVec 1) {list : BitVec 16} (h : list ≠ 0#16) :
    MisalignedLoad (.ldmts p wb list) s .ldmts 4 (s.getReg p) :=
  misaligned_of_access (if_neg h) fun hk ha => loadWords_misaligned hk ha (listAscending_length_ne_zero h)

/-- A block store, with a moved pointer or without. -/
theorem finishBlock_misaligned {s s0 : State} {kind : LsKind} {a : Word} {wb : BitVec 1} (hk : s0.cfg.unalignedOk.contains kind = false)
    (ha : (firstStored a wb).toNat % 4 ≠ 0) {vs : List Word} (h : vs ≠ []) (p : RegNo) (ptr : Word) :
    (if wb = 1#1 then s.finishStorePtr 4#32 p ptr (storeWords kind (blockStores a wb vs) s0)
      else s.finishStore 4#32 (storeWords kind (blockStores a wb vs) s0)) = raiseEvent (.dataAddressWrite (firstStored a wb)) s0 := by
  rw [storeBlock_misaligned hk ha h]
  split <;> rfl

theorem stm_misaligned (s : State) (p : RegNo) (wb : BitVec 1) {list : BitVec 16} (h : list ≠ 0#16) :
    MisalignedStore (.stm p wb list) s (if wb = 1#1 ∧ list.getLsbD p.toNat = true then s.drawFree 2 else s) .stm 4
      (firstStored (s.getReg p) wb) := by
  intro hk ha
  have drawn : (if wb = 1#1 ∧ list.getLsbD p.toNat = true then s.drawFree 2 else s) =
      s.drawFree (if wb == 1#1 && list.getLsbD p.toNat then 2 else 0) := by
    by_cases overlap : wb = 1#1 ∧ list.getLsbD p.toNat = true <;> simp [overlap, State.drawFree]
  have run : exec (.stm p wb list) s = execStm p wb list s := by rfl
  rw [drawn, run, execStm, if_neg h]
  exact finishBlock_misaligned (s0 := s.drawFree _) hk ha (mt List.map_eq_nil_iff.mp (listAscending_ne_nil h)) _ _

theorem stmts_misaligned (s : State) (p : RegNo) (wb : BitVec 1) {list : BitVec 16} (h : list ≠ 0#16) :
    MisalignedStore (.stmts p wb list) s (if list.getLsbD 15 then s.drawFree (listAscending list).length else s) .stmts 4
      (firstStored (s.getReg p) wb) := by
  intro hk ha
  have drawn : (if list.getLsbD 15 then s.drawFree (listAscending list).length else s) =
      s.drawFree (if list.getLsbD 15 then (listAscending list).length else 0) := by split <;> rfl
  have some : (if list.getLsbD 15 then (List.range (listAscending list).length).map s.freeAt else (listAscending list).map s.readApp) ≠ [] := by
    have := listAscending_ne_nil h
    split <;> simpa
  have run : exec (.stmts p wb list) s = execStmts p wb list s := by rfl
  rw [drawn, run, execStmts, if_neg h]
  exact finishBlock_misaligned (s0 := s.drawFree _) hk ha some _ _

theorem pushm_misaligned (s : State) {list : BitVec 8} (h : list ≠ 0#8) :
    MisalignedStore (.pushm list) s s .pushm 4 (s.getReg 13#4 - 4#32) := by
  have some : listAscending (reglist8 list) ≠ [] := listAscending_ne_nil (reglist8_ne_zero h)
  obtain ⟨r, rs, e⟩ := List.exists_cons_of_ne_nil some
  refine misaligned_of_access (if_neg (mt List.isEmpty_iff.mp some)) fun hk ha => ?_
  rw [e]
  exact storeWords_misaligned hk ha _ _

/-! ## Java -/

theorem State.frameAddresses_cons (s : State) : ∃ as, s.frameAddresses = s.getReg 9#4 :: as :=
  ⟨_, congrArg (· :: _) (BitVec.sub_zero _)⟩

theorem popjc_misaligned {s : State} (there : s.cfg.hasJava = true) : MisalignedLoad .popjc s .popjc 4 (s.getReg 9#4) := by
  refine misaligned_of_access (if_pos there) fun hk ha => ?_
  obtain ⟨as, e⟩ := s.frameAddresses_cons
  rw [e, loadEach, loadWord, load_misaligned hk (misaligned_word ha)]
  rfl

theorem pushjc_misaligned {s : State} (there : s.cfg.hasJava = true) : MisalignedStore .pushjc s s .pushjc 4 (s.getReg 9#4) := by
  refine misaligned_of_access (if_pos there) fun hk ha => ?_
  obtain ⟨as, e⟩ := s.frameAddresses_cons
  have lv : s.java.lv.toList ≠ [] := fun empty => by simpa using congrArg List.length empty
  obtain ⟨v, vs, e'⟩ := List.exists_cons_of_ne_nil lv
  rw [e, e']
  exact storeWords_misaligned hk ha _ _

/-! ## Calls and returns of AVR32A -/

theorem rets_misaligned {s : State} (pushes : s.cfg.archB = false) (mode : s.mode = 1#3) : MisalignedLoad .rets s .rets 4 s.systemSp := by
  have app : s.mode ≠ 0#3 := by rw [mode]; decide
  have run : exec .rets s = execRets s := by rfl
  intro hk ha
  rw [run, execRets, if_neg app, if_pos mode, pushes]
  exact Res.finish_raised (popWords_misaligned hk ha (by decide)) _

theorem rete_misaligned {s : State} (pushes : s.cfg.archB = false) (app : s.mode ≠ 0#3) (sup : s.mode ≠ 1#3) :
    MisalignedLoad .rete s .rete 4 s.systemSp := by
  have run : exec .rete s = execRete s := by rfl
  intro hk ha
  rw [run, execRete, if_neg (not_or.mpr ⟨app, sup⟩), pushes]
  exact Res.finish_raised (popWords_misaligned hk ha (by omega)) _

theorem pushSystem_misaligned {s : State} {va : Word} (hk : s.cfg.unalignedOk.contains .scall = false) (ha : va.toNat % 4 ≠ 0) (v : Word) :
    pushSystem va v s = .raise (.dataAddressWrite va) s := by
  unfold pushSystem
  rw [checkAccess_misaligned .write _ (misaligned_word ha) hk]; rfl

theorem scall_misaligned {s : State} (pushes : s.cfg.archB = false) (mode : s.mode = 0#3 ∨ s.mode = 1#3) :
    MisalignedStore .scall s s .scall 4 (s.systemSp - 4#32) := by
  have run : exec .scall s = execScall s := by rfl
  intro hk ha
  rw [run, execScall, if_pos mode, pushes]
  exact Res.finish_raised (pushSystem_misaligned hk ha _) _

/-! ## Coprocessors -/

theorem storeCopPair_misaligned {s : State} {kind : LsKind} {va : Word} (hk : s.cfg.unalignedOk.contains kind = false)
    (ha : va.toNat % 4 ≠ 0) (cp : BitVec 3) (d : RegNo) :
    s.storeCopPair kind cp d va = .raise (.dataAddressWrite va) (pairDrawn s d) := by
  unfold State.storeCopPair pairDrawn
  split
  · exact storeDouble_misaligned hk ha _ _
  · exact storeDouble_misaligned (s := s.drawFree 2) hk ha _ _

section
variable {s : State} {cp : BitVec 3} (ready : copReady s cp)
include ready

theorem requireCop_ready (o : Out) : requireCop cp s o = o := by
  rw [requireCop, ready.1, ready.2]; rfl

theorem copTransfers_misaligned (d p i : RegNo) (sa : BitVec 2) :
    (∀ disp, MisalignedLoad (.ldcW (.formI cp d p disp)) s .ldcW 4 (s.dispZ p disp 2) ∧
      MisalignedLoad (.ldcD (.formI cp d p disp)) s .ldcD 4 (s.dispZ p disp 2) ∧
      MisalignedStore (.stcW (.formI cp p d disp)) s s .stcW 4 (s.dispZ p disp 2) ∧
      MisalignedStore (.stcD (.formI cp p d disp)) s (pairDrawn s d) .stcD 4 (s.dispZ p disp 2)) ∧
    MisalignedLoad (.ldcW (.formII cp d p)) s .ldcW 4 (s.getReg p - 4#32) ∧
    MisalignedLoad (.ldcD (.formII cp d p)) s .ldcD 4 (s.getReg p - 8#32) ∧
    MisalignedStore (.stcW (.formII cp p d)) s s .stcW 4 (s.getReg p) ∧
    MisalignedStore (.stcD (.formII cp p d)) s (pairDrawn s d) .stcD 4 (s.getReg p) ∧
    MisalignedLoad (.ldcW (.formIII cp d p i sa)) s .ldcW 4 (s.indexed p i sa) ∧
    MisalignedLoad (.ldcD (.formIII cp d p i sa)) s .ldcD 4 (s.indexed p i sa) ∧
    MisalignedStore (.stcW (.formIII cp p i d sa)) s s .stcW 4 (s.indexed p i sa) ∧
    MisalignedStore (.stcD (.formIII cp p i d sa)) s (pairDrawn s d) .stcD 4 (s.indexed p i sa) :=
  have ok := requireCop_ready ready
  have pair {va : Word} (hk : s.cfg.unalignedOk.contains .stcD = false) (ha : va.toNat % 4 ≠ 0) := storeCopPair_misaligned hk ha cp d
  ⟨fun _ => ⟨misalignedLoad_word (ok _), misalignedLoad_double (ok _), misalignedStore_word (ok _), misaligned_of_access (ok _) pair⟩,
    misalignedLoad_word (ok _), misalignedLoad_double (ok _), misalignedStore_word (ok _), misaligned_of_access (ok _) pair,
    misalignedLoad_word (ok _), misalignedLoad_double (ok _), misalignedStore_word (ok _), misaligned_of_access (ok _) pair⟩

theorem copMany_misaligned (p : RegNo) (wb : BitVec 1) {list : BitVec 8} (h : list ≠ 0#8) :
    MisalignedLoad (.ldcmD cp p wb list) s .ldcmD 4 (s.getReg p) ∧
    MisalignedLoad (.ldcmW (.formHigh cp p wb list)) s .ldcmW 4 (s.getReg p) ∧
    MisalignedLoad (.ldcmW (.formLow cp p wb list)) s .ldcmW 4 (s.getReg p) ∧
    MisalignedStore (.stcmD cp p wb list) s s .stcmD 4 (firstStored (s.getReg p) wb) ∧
    MisalignedStore (.stcmW (.formHigh cp p wb list)) s s .stcmW 4 (firstStored (s.getReg p) wb) ∧
    MisalignedStore (.stcmW (.formLow cp p wb list)) s s .stcmW 4 (firstStored (s.getReg p) wb) := by
  have ok := requireCop_ready ready
  have loads {kind : LsKind} {l all : BitVec 16} (hl : l ≠ 0#16) (hk : s.cfg.unalignedOk.contains kind = false)
      (ha : (s.getReg p).toNat % 4 ≠ 0) : s.copLoadMany kind cp p wb l all = raiseEvent (.dataAddressRead (s.getReg p)) s := by
    rw [State.copLoadMany, if_neg hl]
    exact Res.finish_raised (loadWords_misaligned hk ha (listAscending_length_ne_zero hl)) _
  have stores {kind : LsKind} {l : BitVec 16} (hl : l ≠ 0#16) (hk : s.cfg.unalignedOk.contains kind = false)
      (ha : (firstStored (s.getReg p) wb).toNat % 4 ≠ 0) :
      s.copStoreMany kind cp p wb l = raiseEvent (.dataAddressWrite (firstStored (s.getReg p) wb)) s := by
    rw [State.copStoreMany, if_neg hl]
    exact finishBlock_misaligned hk ha (mt List.map_eq_nil_iff.mp (listAscending_ne_nil hl)) _ _
  exact ⟨fun hk ha => (ok _).trans (loads (copPairs_ne_zero h) hk ha), fun hk ha => (ok _).trans (loads (copHigh_ne_zero h) hk ha),
    fun hk ha => (ok _).trans (loads (copLow_ne_zero h) hk ha), fun hk ha => (ok _).trans (stores (copPairs_ne_zero h) hk ha),
    fun hk ha => (ok _).trans (stores (copHigh_ne_zero h) hk ha), fun hk ha => (ok _).trans (stores (copLow_ne_zero h) hk ha)⟩

end

theorem cop0Transfers_misaligned {s : State} (ready : copReady s 0#3) (d p : RegNo) (disp : BitVec 12) :
    MisalignedLoad (.ldc0W d p disp) s .ldc0W 4 (s.dispZ p disp 2) ∧
    MisalignedLoad (.ldc0D d p disp) s .ldc0D 4 (s.dispZ p disp 2) ∧
    MisalignedStore (.stc0W p d disp) s s .stc0W 4 (s.dispZ p disp 2) ∧
    MisalignedStore (.stc0D p d disp) s (pairDrawn s d) .stc0D 4 (s.dispZ p disp 2) :=
  have ok := requireCop_ready ready
  ⟨misalignedLoad_word (ok _), misalignedLoad_double (ok _), misalignedStore_word (ok _),
    misaligned_of_access (ok _) fun hk ha => storeCopPair_misaligned hk ha 0#3 d⟩

/-! ## Forms whose address is a multiple of 4 -/

theorem shiftLeft_two_mod (x : Word) : (x <<< 2).toNat % 4 = 0 := by
  rw [BitVec.toNat_shiftLeft, Nat.shiftLeft_eq]
  omega

theorem wordBase_mod (s : State) (i : RegNo) : (s.wordBase i).toNat % 4 = 0 := by
  rw [State.wordBase, BitVec.toNat_and]
  exact (Nat.and_mod_two_pow (n := 2)).trans (Nat.and_zero _)

theorem add_mod_four {a b : Word} (ha : a.toNat % 4 = 0) (hb : b.toNat % 4 = 0) : (a + b).toNat % 4 = 0 := by
  rw [BitVec.toNat_add]
  omega

theorem rmwAddress_mod (imm : BitVec 15) : (rmwAddress imm).toNat % 4 = 0 := by
  refine (aligned_word_iff (.inl rfl)).mp (beq_iff_eq.mpr (BitVec.eq_of_getLsbD_eq fun k hk => ?_))
  have zero : (imm ++ 0#2).getLsbD k = false := by rw [BitVec.getLsbD_append, if_pos hk, BitVec.getLsbD_zero]
  rw [BitVec.getLsbD_extractLsb', rmwAddress, sext, BitVec.getLsbD_signExtend, Nat.zero_add, if_pos (by omega), zero]
  simp

/-- Settles O42: instruction by instruction. -/
theorem misalignedAccessesTrap : Obligations.MisalignedAccessesTrap := by
  unfold Obligations.MisalignedAccessesTrap
  intro s d p i sa
  refine ⟨halfLoads_misaligned s d p i sa, wordLoads_misaligned s d p i sa, doubleLoads_misaligned s d p i sa,
    fun c disp rev holds => conditional_misaligned d p c disp rev holds, partial_misaligned s d p, singleStores_misaligned s d p i sa,
    doubleStores_misaligned s d p i sa, sthhW_misaligned s d p i sa, fun disp hl => stcond_misaligned hl d p disp,
    xchg_misaligned s d p i, fun disp => misalignedLoad_word rfl, fun k _ => popm_misaligned s k,
    fun wb _ h => ⟨ldm_misaligned s p wb h, ldmts_misaligned s p wb h, stm_misaligned s p wb h, stmts_misaligned s p wb h⟩,
    fun _ => pushm_misaligned s, fun there => ⟨popjc_misaligned there, pushjc_misaligned there⟩,
    fun pushes => ⟨rets_misaligned pushes, rete_misaligned pushes, scall_misaligned pushes⟩, fun cp ready => ?_,
    fun disp short imm => ⟨add_mod_four (wordBase_mod s p) (shiftLeft_two_mod _), add_mod_four (wordBase_mod s _) (shiftLeft_two_mod _),
      add_mod_four (wordBase_mod s _) (shiftLeft_two_mod _), rmwAddress_mod imm⟩⟩
  obtain ⟨formI, lw, ld, sw, sd, lwi, ldi, swi, sdi⟩ := copTransfers_misaligned ready d p i sa
  refine ⟨formI, lw, ld, sw, sd, lwi, ldi, swi, sdi, ?_, fun wb list h => copMany_misaligned ready p wb h⟩
  rintro rfl disp
  exact cop0Transfers_misaligned ready d p disp

end Sys2Proof.Machine
end

section
/-! PROOFS. O55: what tlbw writes into an entry, what tlbr reads back, and which entry tlbs finds. -/

set_option Elab.async false

namespace Sys2Proof.Machine

/-! ## Fields of words -/

/-- One bit of a word with a field replaced. -/
theorem getLsbD_insertField {v x : Word} {pos w k : Nat} (hk : k < 32) :
    (insertField v pos w x).getLsbD k = if pos ≤ k ∧ k < pos + w then x.getLsbD (k - pos) else v.getLsbD k := by
  have mask : (BitVec.ofNat 32 (2 ^ w - 1) <<< pos : Word).getLsbD k = decide (pos ≤ k ∧ k < pos + w) := by
    rw [BitVec.getLsbD_shiftLeft, BitVec.getLsbD_ofNat, Nat.testBit_two_pow_sub_one, Bool.eq_iff_iff]
    simp
    omega
  rw [insertField, BitVec.getLsbD_or, BitVec.getLsbD_and, BitVec.getLsbD_and, BitVec.getLsbD_not, mask]
  by_cases h : pos ≤ k ∧ k < pos + w
  · simp only [h, hk, decide_true, and_self, if_true, BitVec.getLsbD_shiftLeft, Bool.not_true, Bool.and_false, Bool.and_true,
      Bool.false_or, Bool.true_and]
    simp [Nat.not_lt.mpr h.1]
  · simp [h, hk]

theorem bit1_getElem (b : Bool) : (bit1 b)[0] = b := by cases b <;> rfl

/-- TLBEHI field by field (20_memory.md R242). -/
theorem TlbEntry.high_fields (e : TlbEntry) (i : Bool) :
    (e.high i).extractLsb' 10 22 = e.vpn ∧ (e.high i).getLsbD 9 = e.v ∧ (e.high i).getLsbD 8 = i ∧ (e.high i).extractLsb' 0 8 = e.asid := by
  unfold TlbEntry.high
  refine ⟨?_, ?_, ?_, ?_⟩
  · simp (disch := omega) only [BitVec.extractLsb'_append_eq_of_le]
    simp
  · simp only [BitVec.getLsbD_append]; simp [bit1_getElem]
  · simp only [BitVec.getLsbD_append]; simp [bit1_getElem]
  · simp (disch := omega) only [BitVec.extractLsb'_append_eq_of_add_le]
    simp

/-- TLBELO field by field (20_memory.md R243). -/
theorem TlbEntry.low_fields (e : TlbEntry) :
    e.low.extractLsb' 10 22 = e.pfn ∧ e.low.getLsbD 9 = e.c ∧ e.low.getLsbD 8 = e.g ∧ e.low.getLsbD 7 = e.b ∧
    e.low.getLsbD 6 = e.ap.getLsbD 2 ∧ e.low.getLsbD 5 = e.ap.getLsbD 1 ∧ e.low.getLsbD 4 = e.ap.getLsbD 0 ∧
    e.low.extractLsb' 2 2 = e.sz ∧ e.low.getLsbD 1 = e.d ∧ e.low.getLsbD 0 = e.w := by
  unfold TlbEntry.low
  refine ⟨?_, ?_, ?_, ?_, ?_, ?_, ?_, ?_, ?_, ?_⟩
  case refine_1 | refine_8 =>
    simp (disch := omega) only [BitVec.extractLsb'_append_eq_of_le, BitVec.extractLsb'_append_eq_of_add_le]
    simp
  all_goals
    simp only [BitVec.getLsbD_append]
    simp [bit1_getElem]

/-- A field in common is bits in common. -/
theorem getLsbD_congr_of_field {x y : Word} {pos w k : Nat} (h : x.extractLsb' pos w = y.extractLsb' pos w) (lo : pos ≤ k) (hi : k < pos + w) :
    x.getLsbD k = y.getLsbD k := by
  have bit := congrArg (BitVec.getLsbD · (k - pos)) h
  simpa [show k - pos < w by omega, Nat.add_sub_cancel' lo] using bit

/-- The fields of TLBEHI make up the word. -/
theorem eq_of_high_fields {x y : Word} (vpn : x.extractLsb' 10 22 = y.extractLsb' 10 22) (v : x.getLsbD 9 = y.getLsbD 9)
    (i : x.getLsbD 8 = y.getLsbD 8) (asid : x.extractLsb' 0 8 = y.extractLsb' 0 8) : x = y := by
  refine BitVec.eq_of_getLsbD_eq fun k hk => ?_
  obtain h | rfl | rfl | h : k < 8 ∨ k = 8 ∨ k = 9 ∨ 10 ≤ k := by omega
  · exact getLsbD_congr_of_field asid (by omega) (by omega)
  · exact i
  · exact v
  · exact getLsbD_congr_of_field vpn h (by omega)

/-- So do those of TLBELO. -/
theorem eq_of_low_fields {x y : Word} (pfn : x.extractLsb' 10 22 = y.extractLsb' 10 22) (sz : x.extractLsb' 2 2 = y.extractLsb' 2 2)
    (bits : ∀ k ∈ [9, 8, 7, 6, 5, 4, 1, 0], x.getLsbD k = y.getLsbD k) : x = y := by
  refine BitVec.eq_of_getLsbD_eq fun k hk => ?_
  by_cases high : 10 ≤ k
  · exact getLsbD_congr_of_field pfn high (by omega)
  · by_cases size : 2 ≤ k ∧ k < 4
    · exact getLsbD_congr_of_field sz size.1 (by omega)
    · exact bits k (by simp; omega)

/-! ## The entry that tlbw writes -/

theorem usesItlb_select (s : State) : usesItlb s.cfg s.tlbSelect = (s.cfg.mmut == .split && s.mmu.tlbehi.getLsbD 8) := Bool.and_comm _ _

/-- The fields of the entry are those of the two registers, without the bits that an ITLB or a DTLB does not implement (R240, R255). -/
theorem State.tlbHeld_fields (s : State) :
    let itlb := s.cfg.mmut == .split && s.mmu.tlbehi.getLsbD 8
    let dtlb := s.cfg.mmut == .split && !s.mmu.tlbehi.getLsbD 8
    let hi := s.mmu.tlbehi
    let lo := s.mmu.tlbelo
    let e := s.tlbHeld
    e.a = true ∧ e.vpn = hi.extractLsb' 10 22 ∧ e.v = hi.getLsbD 9 ∧ e.asid = hi.extractLsb' 0 8 ∧
    e.pfn = lo.extractLsb' 10 22 ∧ e.c = lo.getLsbD 9 ∧ e.g = lo.getLsbD 8 ∧ e.b = lo.getLsbD 7 ∧
    e.ap.getLsbD 2 = lo.getLsbD 6 ∧ e.ap.getLsbD 1 = (!itlb && lo.getLsbD 5) ∧ e.ap.getLsbD 0 = (!dtlb && lo.getLsbD 4) ∧
    e.sz = lo.extractLsb' 2 2 ∧ e.d = (!itlb && lo.getLsbD 1) ∧ e.w = (!itlb && lo.getLsbD 0) := by
  intro itlb dtlb hi lo e
  have one (k : Nat) (hk : k < 3) : (lo.extractLsb' 4 3).getLsbD k = lo.getLsbD (4 + k) := by simp [hk]
  have ap : e.ap = lo.extractLsb' 4 3 &&& (if itlb then 0b101#3 else if dtlb then 0b110#3 else 0b111#3) := by
    have other : ∀ a b : Bool, (a && !(a && b)) = (a && !b) := by decide
    simp only [e, itlb, dtlb, lo, State.tlbHeld, usesItlb_select, other]
  have apart : (itlb && dtlb) = false := by
    simp only [itlb, dtlb]
    cases s.mmu.tlbehi.getLsbD 8 <;> simp
  refine ⟨rfl, rfl, rfl, rfl, rfl, rfl, rfl, rfl, ?_, ?_, ?_, rfl, ?_, ?_⟩
  · rw [ap, BitVec.getLsbD_and, one 2 (by decide)]
    cases itlb <;> cases dtlb <;> exact Bool.and_true _
  · rw [ap, BitVec.getLsbD_and, one 1 (by decide), Bool.and_comm]
    cases itlb <;> cases dtlb <;> rfl
  · rw [ap, BitVec.getLsbD_and, one 0 (by decide), Bool.and_comm]
    cases hd : dtlb with
    | false => cases itlb <;> rfl
    | true =>
      rw [hd, Bool.and_true] at apart
      rw [apart]
      rfl
  · exact (Bool.and_comm _ _).trans (by rw [usesItlb_select])
  · exact (Bool.and_comm _ _).trans (by rw [usesItlb_select])

/-! ## What each instruction leaves -/

/-- What the TLB instructions leave besides the registers of the MMU. -/
def KeepsTlbRest (s t : State) : Prop :=
  t.pc = s.pc + 2#32 ∧ SameRegs s t [] ∧ SameSr s t [] ∧ SameMem s t ∧ SameSystem { s with mmu := t.mmu } t ∧
  t.mmu.ptbr = s.mmu.ptbr ∧ t.mmu.tlbear = s.mmu.tlbear

theorem keepsTlbRest_of {s : State} {m : MmuRegs} {n : Nat} (ptbr : m.ptbr = s.mmu.ptbr) (tlbear : m.tlbear = s.mmu.tlbear) :
    KeepsTlbRest s { s.advance 2#32 with mmu := m, freeIdx := n } := by
  refine ⟨rfl, fun p _ notPc _ => ?_, fun _ _ _ => rfl, fun _ => rfl, ?_, ptbr, tlbear⟩
  · cases p with
    | pc => exact absurd rfl notPc
    | bank c i => cases c <;> rfl
    | _ => rfl
  · simp [SameSystem]

theorem State.setTlbEntry_eq (s : State) (instr : Bool) {i : Nat} (h : i < 64) (e : TlbEntry) : s.setTlbEntry instr i e =
    { s with mmu := { s.mmu with itlb := if usesItlb s.cfg instr then s.mmu.itlb.set i e else s.mmu.itlb
                                 dtlb := if usesItlb s.cfg instr then s.mmu.dtlb else s.mmu.dtlb.set i e } } := by
  unfold State.setTlbEntry
  rw [dif_pos h]
  split <;> rfl

/-- Of two TLBs one has an entry written. -/
theorem getElem_written (itlb dtlb : Vector TlbEntry 64) (u b : Bool) {p n : Nat} (hp : p < 64) (hn : n < 64) (e : TlbEntry) :
    (if b then (if u then itlb.set p e else itlb) else if u then dtlb else dtlb.set p e)[n] =
      if b = u ∧ n = p then e else (if b then itlb else dtlb)[n] := by
  cases b <;> cases u <;> simp [Vector.getElem_set, eq_comm]

section
variable {s : State} (mmu : hasMmu s.cfg = true) (priv : s.privileged = true)
include mmu priv

theorem requireTlb_passes (o : Out) : requireTlb s o = o := by
  rw [requireTlb, requireUnit, if_pos mmu, requireRight, if_pos priv]

/-- tlbw writes one entry of one TLB (20_memory.md R255). -/
theorem tlbw_writes (h : s.tlbPointer.toNat < s.tlbSize s.tlbSelect) : ∃ itlb dtlb : Vector TlbEntry 64,
    exec .tlbw s = .next { s.advance 2#32 with mmu := { s.mmu with itlb := itlb, dtlb := dtlb } } ∧
    ∀ (b : Bool) n (hn : n < 64), (if b then itlb else dtlb)[n] =
      if b = usesItlb s.cfg s.tlbSelect ∧ n = s.tlbPointer.toNat then s.tlbHeld else (if b then s.mmu.itlb else s.mmu.dtlb)[n] := by
  have small : s.tlbPointer.toNat < 64 := s.tlbPointer.isLt
  have run : exec .tlbw s = .next ((s.advance 2#32).setTlbEntry s.tlbSelect s.tlbPointer.toNat s.tlbHeld) :=
    (requireTlb_passes mmu priv _).trans (congrArg _ (if_pos h))
  rw [State.setTlbEntry_eq _ _ small] at run
  exact ⟨_, _, run, fun b n hn => getElem_written s.mmu.itlb s.mmu.dtlb _ b small hn s.tlbHeld⟩

/-- A pointer past the entries writes nothing (notes/assumptions/17.md). -/
theorem tlbw_past (h : s.tlbSize s.tlbSelect ≤ s.tlbPointer.toNat) : exec .tlbw s = .next (s.advance 2#32) :=
  (requireTlb_passes mmu priv _).trans (congrArg _ (if_neg (Nat.not_lt.mpr h)))

/-- tlbr gives the fields of the entry that the pointer names; the bits that are not implemented are free (20_memory.md R256). -/
theorem tlbr_reads {n : Nat} (hn : n < 64) (pointer : s.tlbPointer.toNat = n) (h : n < s.tlbSize s.tlbSelect) :
    ∃ (m : MmuRegs) (k : Nat), exec .tlbr s = .next { s.advance 2#32 with mmu := m, freeIdx := k } ∧
    m = { s.mmu with tlbehi := (s.tlb s.tlbSelect)[n].high s.tlbSelect
                     tlbelo := ((s.tlb s.tlbSelect)[n].low &&& ~~~s.tlbAbsent) ||| (s.free &&& s.tlbAbsent) } := by
  have entry : (s.tlb s.tlbSelect).toList.getD n TlbEntry.invalid = (s.tlb s.tlbSelect)[n] := by simp [List.getD_eq_getElem?_getD, hn]
  subst pointer
  refine ⟨_, s.freeIdx + 1, (requireTlb_passes mmu priv _).trans (if_pos h), ?_⟩
  rw [entry]

/-- Past the entries it gives any values (U11). -/
theorem tlbr_past (h : s.tlbSize s.tlbSelect ≤ s.tlbPointer.toNat) : ∃ (m : MmuRegs) (k : Nat),
    exec .tlbr s = .next { s.advance 2#32 with mmu := m, freeIdx := k } ∧ ∃ hi lo, m = { s.mmu with tlbehi := hi, tlbelo := lo } :=
  ⟨_, s.freeIdx + 2, (requireTlb_passes mmu priv _).trans (if_neg (Nat.not_lt.mpr h)), _, _, rfl⟩

end

/-! ## The bits that tlbr leaves free -/

/-- Where a bit is implemented, it is the entry's. -/
theorem getLsbD_merge {a m f : Word} {k : Nat} (hk : k < 32) (h : m.getLsbD k = false) :
    ((a &&& ~~~m) ||| (f &&& m)).getLsbD k = a.getLsbD k := by
  rw [BitVec.getLsbD_or, BitVec.getLsbD_and, BitVec.getLsbD_and, BitVec.getLsbD_not, h]
  simp [hk]

theorem extractLsb'_merge {a m f : Word} {pos w : Nat} (hw : pos + w ≤ 32) (h : ∀ k, pos ≤ k → k < pos + w → m.getLsbD k = false) :
    ((a &&& ~~~m) ||| (f &&& m)).extractLsb' pos w = a.extractLsb' pos w := by
  refine BitVec.eq_of_getLsbD_eq fun k hk => ?_
  rw [BitVec.getLsbD_extractLsb', BitVec.getLsbD_extractLsb', getLsbD_merge (by omega) (h _ (by omega) (by omega))]

/-- What an ITLB and a DTLB do not implement (20_memory.md R240). -/
theorem State.tlbAbsent_getLsbD (s : State) {k : Nat} (hk : k < 32) : s.tlbAbsent.getLsbD k =
    if s.cfg.mmut == .split && s.mmu.tlbehi.getLsbD 8 then decide (k = 0 ∨ k = 1 ∨ k = 5)
    else s.cfg.mmut == .split && decide (k = 4) := by
  unfold State.tlbAbsent
  rw [usesItlb_select]
  have itlb : ∀ k, k < 32 → (0x00000023#32).getLsbD k = decide (k = 0 ∨ k = 1 ∨ k = 5) := by decide
  have dtlb : ∀ k, k < 32 → (0x00000010#32).getLsbD k = decide (k = 4) := by decide
  split
  · exact itlb k hk
  · split
    · next split => rw [split, dtlb k hk, Bool.true_and]
    · next shared => rw [Bool.eq_false_iff.mpr shared, Bool.false_and, BitVec.getLsbD_zero]

theorem tlbr_low_fields (s : State) (e : TlbEntry) :
    let itlb := s.cfg.mmut == .split && s.mmu.tlbehi.getLsbD 8
    let dtlb := s.cfg.mmut == .split && !s.mmu.tlbehi.getLsbD 8
    let lo := (e.low &&& ~~~s.tlbAbsent) ||| (s.free &&& s.tlbAbsent)
    lo.extractLsb' 10 22 = e.pfn ∧ lo.getLsbD 9 = e.c ∧ lo.getLsbD 8 = e.g ∧ lo.getLsbD 7 = e.b ∧ lo.getLsbD 6 = e.ap.getLsbD 2 ∧
    (itlb = false → lo.getLsbD 5 = e.ap.getLsbD 1) ∧ (dtlb = false → lo.getLsbD 4 = e.ap.getLsbD 0) ∧
    lo.extractLsb' 2 2 = e.sz ∧ (itlb = false → lo.getLsbD 1 = e.d ∧ lo.getLsbD 0 = e.w) := by
  intro itlb dtlb lo
  have absent {k : Nat} (hk : k < 32) : s.tlbAbsent.getLsbD k =
      if itlb then decide (k = 0 ∨ k = 1 ∨ k = 5) else s.cfg.mmut == .split && decide (k = 4) := s.tlbAbsent_getLsbD hk
  have always {k : Nat} (hk : k < 32) (h : k ∉ [0, 1, 4, 5]) : s.tlbAbsent.getLsbD k = false := by
    simp only [List.mem_cons, List.not_mem_nil, or_false, not_or] at h
    rw [absent hk]
    split <;> simp [h]
  have ofItlb {k : Nat} (hk : k < 32) (hi : itlb = false) (h : k ≠ 4) : s.tlbAbsent.getLsbD k = false := by
    rw [absent hk, hi]
    simp [h]
  have ofDtlb (hd : dtlb = false) : s.tlbAbsent.getLsbD 4 = false := by
    have neither : ∀ a b : Bool, (a && b) = false → (a && !b) = false → a = false := by decide
    rw [absent (by decide)]
    split
    · rfl
    · next hi => rw [neither _ _ (Bool.eq_false_iff.mpr hi) hd, Bool.false_and]
  obtain ⟨pfn, c, g, b, ap2, ap1, ap0, sz, d, w⟩ := e.low_fields
  exact ⟨(extractLsb'_merge (by decide) fun k hk _ => always (by omega) (by simp; omega)).trans pfn,
    (getLsbD_merge (by decide) (always (by decide) (by decide))).trans c, (getLsbD_merge (by decide) (always (by decide) (by decide))).trans g,
    (getLsbD_merge (by decide) (always (by decide) (by decide))).trans b,
    (getLsbD_merge (by decide) (always (by decide) (by decide))).trans ap2,
    fun hi => (getLsbD_merge (by decide) (ofItlb (by decide) hi (by decide))).trans ap1,
    fun hd => (getLsbD_merge (by decide) (ofDtlb hd)).trans ap0,
    (extractLsb'_merge (by decide) fun k hk _ => always (by omega) (by simp; omega)).trans sz,
    fun hi => ⟨(getLsbD_merge (by decide) (ofItlb (by decide) hi (by decide))).trans d,
      (getLsbD_merge (by decide) (ofItlb (by decide) hi (by decide))).trans w⟩⟩

/-- On a shared TLB tlbr of the entry that tlbw writes gives both registers back (20_memory.md R255, R256). -/
theorem tlbr_of_held {s : State} (mmu : hasMmu s.cfg = true) (priv : s.privileged = true) (shared : s.cfg.mmut = .shared) {n : Nat} (hn : n < 64)
    (pointer : s.tlbPointer.toNat = n) (h : n < s.tlbSize s.tlbSelect) (held : s.mmu.dtlb[n] = s.tlbHeld) :
    Gives (exec .tlbr s) fun u => u.mmu.tlbehi = s.mmu.tlbehi ∧ u.mmu.tlbelo = s.mmu.tlbelo := by
  have noItlb : (s.cfg.mmut == .split && s.mmu.tlbehi.getLsbD 8) = false := by rw [shared]; rfl
  have noDtlb : (s.cfg.mmut == .split && !s.mmu.tlbehi.getLsbD 8) = false := by rw [shared]; rfl
  have entry : (s.tlb s.tlbSelect)[n] = s.tlbHeld := by
    simp only [State.tlb, usesItlb_select, noItlb]
    exact held
  obtain ⟨m, k, run, rfl⟩ := tlbr_reads mmu priv hn pointer h
  rw [entry] at run
  obtain ⟨-, vpn, v, asid, pfn, c, g, b, ap2, ap1, ap0, sz, d, w⟩ := s.tlbHeld_fields
  rw [noItlb] at ap1 d w
  rw [noDtlb] at ap0
  obtain ⟨vpn', v', i', asid'⟩ := s.tlbHeld.high_fields s.tlbSelect
  obtain ⟨pfn', c', g', b', ap2', ap1', ap0', sz', dw'⟩ := tlbr_low_fields s s.tlbHeld
  obtain ⟨d', w'⟩ := dw' noItlb
  refine ⟨_, run, eq_of_high_fields (vpn'.trans vpn) (v'.trans v) i' (asid'.trans asid), eq_of_low_fields (pfn'.trans pfn) (sz'.trans sz) ?_⟩
  simp only [List.forall_mem_cons, List.not_mem_nil, false_imp_iff, implies_true, and_true]
  exact ⟨c'.trans c, g'.trans g, b'.trans b, ap2'.trans ap2, (ap1' noItlb).trans ap1, (ap0' noDtlb).trans ap0, d'.trans d, w'.trans w⟩

/-! ## The search of tlbs -/

/-- An entry that hits is one that matches, in the terms of numbers (20_memory.md R248, R257). -/
theorem TlbEntry.hit_iff_matches (e : TlbEntry) (mmucr hi : Word) :
    e.hit (mmucr.getLsbD 1) (hi.setWidth 8) (hi &&& 0xFFFFFC00#32) = true ↔ Matches e mmucr hi := by
  have start : (hi &&& 0xFFFFFC00#32).toNat = hi.toNat / 1024 * 1024 := toNat_and_not_pageMask hi 0#2
  have page : ((e.vpn ++ 0#10 : Word) &&& ~~~pageMask e.sz) = ((hi &&& 0xFFFFFC00#32) &&& ~~~pageMask e.sz) ↔
      e.vpn.toNat * 1024 / 2 ^ pageLog e.sz = hi.toNat / 1024 * 1024 / 2 ^ pageLog e.sz := by
    rw [BitVec.toNat_eq, toNat_and_not_pageMask, toNat_and_not_pageMask, toNat_append_zero, start,
      Nat.mul_left_inj (Nat.two_pow_pos _).ne']
  have asid : hi.setWidth 8 = hi.extractLsb' 0 8 := BitVec.setWidth_eq_extractLsb' (by decide)
  rw [TlbEntry.hit, Bool.and_eq_true, Bool.and_eq_true, beq_iff_eq, page, asid, Bool.or_eq_true, Bool.or_eq_true, beq_iff_eq, and_assoc, or_assoc]
  rfl

theorem State.mem_tlbHits {s : State} {instr : Bool} {va : Word} {e : TlbEntry} {i : Nat} : (e, i) ∈ s.tlbHits instr va ↔
    i < s.tlbSize instr ∧ (∃ h : i < 64, (s.tlb instr)[i] = e) ∧ e.hit (s.mmu.mmucr.getLsbD 1) (s.mmu.tlbehi.setWidth 8) va = true := by
  rw [State.tlbHits, List.mem_filter, List.mem_zipIdx_iff_getElem?, List.getElem?_take]
  by_cases hs : i < s.tlbSize instr <;> by_cases h : i < 64 <;> simp [hs, h]

/-- The hits come in the order of their indexes. -/
theorem State.tlbHits_pairwise (s : State) (instr : Bool) (va : Word) : (s.tlbHits instr va).Pairwise fun a b => a.2 < b.2 := by
  refine List.Pairwise.filter _ (List.pairwise_map.mp ?_)
  rw [List.zipIdx_map_snd]
  exact List.pairwise_lt_range'

/-- The last hit has the greatest index. -/
theorem State.tlbHits_last {s : State} {instr : Bool} {va : Word} {a b : TlbEntry × Nat} (last : (s.tlbHits instr va).getLast? = some b)
    (ha : a ∈ s.tlbHits instr va) : a = b ∨ a.2 < b.2 := by
  obtain ⟨front, e⟩ := List.getLast?_eq_some_iff.mp last
  have sorted := s.tlbHits_pairwise instr va
  rw [e] at sorted ha
  obtain h | h := List.mem_append.mp ha
  · exact .inr ((List.pairwise_append.mp sorted).2.2 a h b (by simp))
  · exact .inl (List.mem_singleton.mp h)

section
variable {s : State} (mmu : hasMmu s.cfg = true) (priv : s.privileged = true)
include mmu priv

/-- Without a hit N is set and the pointer keeps its value (D28). -/
theorem tlbs_none (h : (s.tlbHits s.tlbSelect (s.mmu.tlbehi &&& 0xFFFFFC00#32)).getLast? = none) :
    exec .tlbs s = .next { s.advance 2#32 with mmu := { s.mmu with mmucr := setBit s.mmu.mmucr 3 true } } := by
  have run : exec .tlbs s = execTlbs s := by rfl
  rw [run, execTlbs, requireTlb_passes mmu priv, h]

/-- With one the pointer receives the index of the last (20_memory.md R257). -/
theorem tlbs_last {e : TlbEntry} {i : Nat} (h : (s.tlbHits s.tlbSelect (s.mmu.tlbehi &&& 0xFFFFFC00#32)).getLast? = some (e, i)) :
    (let cr := insertField (setBit s.mmu.mmucr 3 false) (if usesItlb s.cfg s.tlbSelect then 26 else 14) 6 (BitVec.ofNat 32 i)
     exec .tlbs s = .next { s.advance 2#32 with mmu := { s.mmu with mmucr := cr } }) := by
  have run : exec .tlbs s = execTlbs s := by rfl
  rw [run, execTlbs, requireTlb_passes mmu priv, h]

end

/-- The pointer of the TLB that TLBEHI[I] names, in a word of MMUCR (20_memory.md R245). -/
def pointerField (itlb : Bool) (mmucr : Word) : Nat := (if itlb then mmucr.extractLsb' 26 6 else mmucr.extractLsb' 14 6).toNat

theorem pointerField_eq (itlb : Bool) (mmucr : Word) : pointerField itlb mmucr = (mmucr.extractLsb' (if itlb then 26 else 14) 6).toNat := by
  cases itlb <;> rfl

/-- What tlbs writes to MMUCR: N and the pointer, and no other bit. -/
theorem tlbs_mmucr (mmucr : Word) (itlb : Bool) {i : Nat} (hi : i < 64) :
    let cr := insertField (setBit mmucr 3 false) (if itlb then 26 else 14) 6 (BitVec.ofNat 32 i)
    cr.getLsbD 3 = false ∧ pointerField itlb cr = i ∧
    ∀ k, k < 32 → k ≠ 3 → (if itlb then k < 26 else k < 14 ∨ 20 ≤ k) → cr.getLsbD k = mmucr.getLsbD k := by
  intro cr
  refine ⟨?_, ?_, fun k hk h3 outside => ?_⟩
  · simp only [cr]
    rw [getLsbD_insertField (by decide), if_neg (by cases itlb <;> decide), getLsbD_setBit (by decide), if_pos rfl]
  · have field : cr.extractLsb' (if itlb then 26 else 14) 6 = BitVec.ofNat 6 i := by
      refine BitVec.eq_of_getLsbD_eq fun k hk => ?_
      have place : (if itlb then 26 else 14) + k < 32 := by cases itlb <;> simp <;> omega
      rw [BitVec.getLsbD_extractLsb', getLsbD_insertField place, if_pos (by omega), Nat.add_sub_cancel_left, BitVec.getLsbD_ofNat,
        BitVec.getLsbD_ofNat, decide_eq_true hk, decide_eq_true (show k < 32 by omega)]
      rfl
    rw [pointerField_eq, field, BitVec.toNat_ofNat, Nat.mod_eq_of_lt hi]
  · simp only [cr]
    have away : ¬ ((if itlb then 26 else 14) ≤ k ∧ k < (if itlb then 26 else 14) + 6) := by
      cases itlb
      · simp only [Bool.false_eq_true, if_false] at outside ⊢
        omega
      · simp only [if_true] at outside ⊢
        omega
    rw [getLsbD_insertField hk, if_neg away, getLsbD_setBit hk, if_neg h3]

theorem tlbs_mmucr_none (mmucr : Word) (itlb : Bool) :
    let cr := setBit mmucr 3 true
    cr.getLsbD 3 = true ∧ pointerField itlb cr = pointerField itlb mmucr ∧ ∀ k, k < 32 → k ≠ 3 → cr.getLsbD k = mmucr.getLsbD k := by
  intro cr
  have others : ∀ k, k < 32 → k ≠ 3 → cr.getLsbD k = mmucr.getLsbD k := fun k hk h3 => by
    simp only [cr]
    rw [getLsbD_setBit hk, if_neg h3]
  refine ⟨?_, ?_, others⟩
  · simp only [cr]
    rw [getLsbD_setBit (by decide), if_pos rfl]
  · rw [pointerField_eq, pointerField_eq]
    congr 1
    refine BitVec.eq_of_getLsbD_eq fun k hk => ?_
    have place : 3 < (if itlb then 26 else 14) + k ∧ (if itlb then 26 else 14) + k < 32 := by cases itlb <;> simp <;> omega
    rw [BitVec.getLsbD_extractLsb', BitVec.getLsbD_extractLsb', others _ place.2 (by omega)]

/-- Settles O55: tlbw by the entry that it writes, tlbr by the fields it reads back, tlbs by the last entry that matches. -/
theorem tlbInstructions : Obligations.TlbInstructions := by
  intro s mmu priv itlb dtlb p count entries hi lo rest
  have uses : usesItlb s.cfg s.tlbSelect = itlb := usesItlb_select s
  have pointer : s.tlbPointer.toNat = p := by simp only [State.tlbPointer, uses]; rfl
  have size : s.tlbSize s.tlbSelect = count := by simp only [State.tlbSize, uses]; rfl
  have table : s.tlb s.tlbSelect = entries s := by simp only [State.tlb, uses]; rfl
  have keeps {m : MmuRegs} {n : Nat} (ptbr : m.ptbr = s.mmu.ptbr) (tlbear : m.tlbear = s.mmu.tlbear) :
    rest { s.advance 2#32 with mmu := m, freeIdx := n } := keepsTlbRest_of ptbr tlbear
  refine ⟨fun h hp => ?_, fun hp => ?_, ?_, ?_⟩
  · obtain ⟨newItlb, newDtlb, run, tables⟩ := tlbw_writes mmu priv (by rw [pointer, size]; exact hp)
    rw [uses, pointer] at tables
    have entry : (if itlb then newItlb else newDtlb)[p] = s.tlbHeld := by rw [tables itlb p h, if_pos ⟨rfl, rfl⟩]
    have fields := s.tlbHeld_fields
    rw [← entry] at fields
    obtain ⟨a, vpn, v, asid, pfn, c, g, b, ap2, ap1, ap0, sz, d, w⟩ := fields
    refine ⟨_, run, a, vpn, v, asid, pfn, c, g, b, ap2, ap1, ap0, sz, d, w, fun b n hn other => ?_, rfl, rfl, rfl, keeps rfl rfl,
      fun shared => ?_⟩
    · exact (tables b n hn).trans (if_neg fun same => other.elim (absurd same.1) (absurd same.2))
    · have noItlb : itlb = false := by simp only [itlb, shared]; rfl
      rw [noItlb] at entry
      exact tlbr_of_held (s := { s.advance 2#32 with mmu := { s.mmu with itlb := newItlb, dtlb := newDtlb } }) mmu priv shared h pointer
        (size ▸ hp) entry
  · exact tlbw_past mmu priv (by rw [pointer, size]; exact hp)
  · have h : p < 64 := pointer ▸ s.tlbPointer.isLt
    by_cases hp : p < count
    · obtain ⟨m, k, run, rfl⟩ := tlbr_reads mmu priv h pointer (by rw [size]; exact hp)
      refine ⟨_, run, fun h hp => ?_, rfl, rfl, rfl, keeps rfl rfl⟩
      intro e
      have entry : (s.tlb s.tlbSelect)[p] = e := by simp only [table]; rfl
      obtain ⟨vpn, v, i, asid⟩ := e.high_fields s.tlbSelect
      rw [entry]
      exact ⟨vpn, v, i, asid, tlbr_low_fields s e⟩
    · obtain ⟨m, k, run, w, w', rfl⟩ := tlbr_past mmu priv (by rw [pointer, size]; exact Nat.le_of_not_lt hp)
      exact ⟨_, run, fun _ h => absurd h hp, rfl, rfl, rfl, keeps rfl rfl⟩
  · have found {e : TlbEntry} {i : Nat} : (e, i) ∈ s.tlbHits s.tlbSelect (hi &&& 0xFFFFFC00#32) ↔
        i < count ∧ (∃ h : i < 64, (entries s)[i] = e) ∧ Matches e s.mmu.mmucr hi := by
      rw [State.mem_tlbHits, size, table, TlbEntry.hit_iff_matches]
    cases last : (s.tlbHits s.tlbSelect (hi &&& 0xFFFFFC00#32)).getLast? with
    | none =>
      have empty := List.getLast?_eq_none_iff.mp last
      obtain ⟨n, kept, others⟩ := tlbs_mmucr_none s.mmu.mmucr itlb
      refine ⟨_, tlbs_none mmu priv last, fun _ => ⟨n, kept⟩, fun i h hc hit => ?_, fun k hk h3 _ => others k hk h3, rfl, rfl, rfl, rfl, keeps rfl rfl⟩
      have := found.mpr ⟨hc, ⟨h, rfl⟩, hit⟩
      rw [empty] at this
      cases this
    | some b =>
      obtain ⟨e, j⟩ := b
      obtain ⟨hj, ⟨small, here⟩, hit⟩ := found.mp (List.mem_of_getLast? last)
      obtain ⟨n, moved, others⟩ := tlbs_mmucr s.mmu.mmucr itlb small
      have run := tlbs_last mmu priv last
      rw [uses] at run
      refine ⟨_, run, fun no => absurd (here ▸ hit) (no j small hj), fun i h hc hi later => ⟨n, ?_⟩, others,
        rfl, rfl, rfl, rfl, keeps rfl rfl⟩
      obtain same | before := State.tlbHits_last last (found.mpr ⟨hc, ⟨h, rfl⟩, hi⟩)
      · exact moved.trans (congrArg Prod.snd same).symm
      · exact absurd (here ▸ hit) (later j small before hj)

end Sys2Proof.Machine
end

section
/-! PROOFS. O3, O4 and O5: the code of an instruction decodes to that instruction, and what decodes has the code it was decoded from
(30_encoding.md R351 to R353, R410). -/

namespace Sys2Proof

/-! ## Runs of bits -/

/-- A field of a field is a field of the whole. -/
theorem extract_extract {w s l t m : Nat} (z : BitVec w) (h : t + m ≤ l) :
    (z.extractLsb' s l).extractLsb' t m = z.extractLsb' (s + t) m := by
  ext i hi
  simp [show t + i < l by omega, Nat.add_assoc]

/-- A concatenation is `z` exactly where its two parts are the two parts of `z`. -/
theorem cat_eq_iff {n m k : Nat} {x : BitVec n} {y : BitVec m} {z : BitVec k} (h : n + m = k) :
    cat k x y = z ↔ x = z.extractLsb' m n ∧ y = z.extractLsb' 0 m := by
  constructor
  · rintro rfl
    rw [extract_cat_hi x y h le_rfl, extract_cat_lo x y h (Nat.zero_add m).le]
    simp
  · rintro ⟨rfl, rfl⟩
    rw [cat_extract z h (Nat.zero_add m).symm, BitVec.extractLsb'_eq_self]

/-- The register that a field of three bits names is the even one of its pair (R356). -/
theorem evenReg_cat (x : BitVec 3) : evenReg (cat 4 x 0b0#1) = true := by
  revert x; decide

/-! ## From an instruction to its code and back -/

namespace Laws.DecodeEncode

/-- The laws of the 237 constructors, in the order of the constructors. -/
theorem decodeCode_encodeCode (i : Instr) : Statement i :=
  Instr.rec (motive := Statement)
    abs acr adc add addCond addabs cpB cpH cpW cpc max min neg rsub rsubCond sbc scr sub subCond tnbz divs divu mac macsD macuD mul
    mulsD muluD addhhW machhD machhW macwhD mulhhW mulwhD mulnhhW mulnwhD sataddH sataddW satsubH satsubW satrnds satrndu sats satu
    subhhW mulsathhH mulsathhW mulsatrndhhH mulsatrndwhW mulsatwhW macsathhW and andCond eor eorCond or orCond andn andh andl com eorh
    eorl orh orl tst bfexts bfextu bfins bld brev bst castsB castsH castuB castuH cbr clz sbr swapB swapBh swapH asr lsl lsr rol ror
    acall brCond3 brCond4 icall mcall rcall rjmp retCond mov movCond movh ldUb ldUbCond ldSb ldSbCond ldUh ldUhCond ldSh ldShCond ldW
    ldWCond ldD ldinsB ldinsH ldswpSh ldswpUh ldswpW lddpc lddsp stB stBCond stH stHCond stW stWCond stD stcond stdsp sthhW stswpH
    stswpW pushm popm ldm stm ldmts stmts csrf csrfcz ssrf breakpoint frs cache pref mfsr mfdr mtsr mtdr musfr mustr nop scall sscall
    rete rets retd sleep retss srCond sync tlbr tlbs tlbw cop ldcD ldcW ldc0D ldc0W ldcmD ldcmW mvcrD mvcrW mvrcD mvrcW stcD stcW stc0D
    stc0W stcmD stcmW incjosp popjc pushjc retj pabsSb pabsSh packshUb packshSb packwSh paddB paddH paddhUb paddhSh paddsUb paddsSb
    paddsUh paddsSh paddsubH paddsubhSh paddsubsUh paddsubsSh paddxH paddxhSh paddxsUh paddxsSh pasrB pasrH pavgUb pavgSh plslB plslH
    plsrB plsrH pmaxUb pmaxSh pminUb pminSh psad psubB psubH psubaddH psubaddhSh psubaddsUh psubaddsSh psubhUb psubhSh psubsUb psubsSb
    psubsUh psubsSh psubxH psubxhSh psubxsUh psubxsSh punpckubH punpcksbH memc mems memt xchg i

end Laws.DecodeEncode

/-- A word that decodes says in its first halfword that it is an extended instruction (R352). -/
theorem isExtended_of_decodeWord {w : Word} {i : Instr} (h : decodeWord w = some i) : isExtended (w.extractLsb' 16 16) = true := by
  rw [isExtended, extract_extract w (by decide), beq_iff_eq]
  by_contra hw
  rw [decodeWord, if_neg hw] at h
  cases h

/-- Decoding the bytes of a code decodes the code, and leaves what follows (R351). -/
theorem decodeBytes_bytes {code : Code} {i : Instr} (h : decodeCode code = some i) (rest : List Byte) :
    decodeBytes (code.bytes ++ rest) = .ok i rest := by
  cases code with
  | half c =>
    have bytes : cat 16 (c.extractLsb' 8 8) (c.extractLsb' 0 8) = c := (cat_eq_iff rfl).mpr ⟨rfl, rfl⟩
    simp only [decodeCode, Option.ite_none_left_eq_some] at h
    simp [Code.bytes, decodeBytes, bytes, h]
  | word w =>
    have high : cat 16 (w.extractLsb' 24 8) (w.extractLsb' 16 8) = w.extractLsb' 16 16 := cat_extract w rfl rfl
    have low : cat 16 (w.extractLsb' 8 8) (w.extractLsb' 0 8) = w.extractLsb' 0 16 := cat_extract w rfl rfl
    have bytes : cat 32 (w.extractLsb' 16 16) (w.extractLsb' 0 16) = w := (cat_eq_iff rfl).mpr ⟨rfl, rfl⟩
    rw [decodeCode] at h
    simp [Code.bytes, decodeBytes, high, low, bytes, isExtended_of_decodeWord h, h]

/-- Settles O4: the law of the constructor gives the code's instruction, and the bytes are those of the code. -/
theorem decodeOfEncode : Obligations.DecodeOfEncode := fun i rest wf =>
  decodeBytes_bytes (Laws.DecodeEncode.decodeCode_encodeCode i wf) rest

/-- Settles O3: each word is the code of its instruction, so that O4 decodes it. -/
theorem decodeSampleWords : Obligations.DecodeSampleWords :=
  ⟨decodeOfEncode (.abs 3#4) [] rfl, decodeOfEncode (.add (.formI 4#4 0#4)) [] rfl, decodeOfEncode (.acall 2#8) [] rfl,
    decodeOfEncode (.brCond3 0#3 2#8) [] rfl, decodeOfEncode (.pushm 0x41#8) [] rfl, decodeOfEncode .scall [] rfl,
    decodeOfEncode (.mfsr 1#4 66#8) [] rfl, decodeOfEncode (.rcall (.formII 0x20000#21)) [] rfl,
    decodeOfEncode (.stcond 1#4 0#4 0#16) [] rfl, decodeOfEncode (.stm 13#4 1#1 0x400F#16) [] rfl⟩

end Sys2Proof
end

section
/-! PROOFS. O5: the decoder is a tree of tests of fields. On the way to a row it has found the bits of a mask to be those of a value; every bit of
the row's code is then a bit that was tested or a bit of an operand. -/

namespace Sys2Proof

/-! ## What the tests of fields have found -/

/-- The bits `c` of a field, at the place `s` where it stands. -/
def place (n s : Nat) {l : Nat} (c : BitVec l) : BitVec n := c.setWidth n <<< s

/-- The mask of a field keeps that field, in its place. -/
theorem and_place_allOnes {n s l : Nat} (z : BitVec n) :
    z &&& place n s (BitVec.allOnes l) = place n s (z.extractLsb' s l) := by
  ext i hi
  by_cases hs : i < s
  · simp [place, hs]
  · by_cases hl : i - s < l
    · simp [place, hs, hl, show s + (i - s) = i by omega, hi]
    · simp [place, hs, hl]

/-- A field inside the mask is that field of the value. -/
theorem known_field {n s l : Nat} {z mask value : BitVec n} {c : BitVec l} (h : z &&& mask = value)
    (hm : mask.extractLsb' s l = BitVec.allOnes l) (hv : value.extractLsb' s l = c) : (c = z.extractLsb' s l) = True := by
  rw [← hv, ← h, BitVec.extractLsb'_and, hm, BitVec.and_allOnes, eq_self]

/-- Where the mask holds every bit, the value is all there is. -/
theorem known_all {n : Nat} {z mask value c : BitVec n} (h : z &&& mask = value)
    (hm : mask = BitVec.allOnes n) (hv : value = c) : (c = z) = True := by
  rw [← hv, ← h, hm, BitVec.and_allOnes, eq_self]

/-- Where the bits `mask` of `z` are those of `value`, what the decoder answers (`o`) is well formed, and its code is that of `z`. -/
def SoundFrom {n : Nat} (mask value z : BitVec n) (code : BitVec n → Code) (o : Option Instr) : Prop :=
  z &&& mask = value → ∀ i, o = some i → WellFormed i = true ∧ encodeCode i = code z

namespace SoundFrom

variable {n : Nat} {mask value z : BitVec n} {code : BitVec n → Code} {a b : Option Instr}

theorem none : SoundFrom mask value z code none := by rintro - _ ⟨⟩

/-- At a row: by default its code is compared with `z` field by field, an operand's field with itself and a fixed one with what the tests
found. -/
theorem row {i : Instr} (hi : WellFormed i = true := by simp only [WellFormed, evenReg_cat, Bool.and_self])
    (he : z &&& mask = value → encodeCode i = code z := by
      intro hz
      simp (disch := decide) only [encodeCode, Code.half.injEq, Code.word.injEq, cat_eq_iff, extract_extract, extract_cat_lo,
        extract_cat_hi, Nat.zero_add, Nat.reduceAdd, Nat.reduceSub, BitVec.extractLsb'_eq_self, known_field hz, known_all hz, and_self]) :
    SoundFrom mask value z code (some i) := by
  rintro hz _ ⟨⟩
  exact ⟨hi, he hz⟩

/-- At a test of a field: where it succeeds, the field joins the mask and its bits join the value. -/
theorem test {s l : Nat} {c : BitVec l}
    (ha : SoundFrom (mask ||| place n s (BitVec.allOnes l)) (value ||| place n s c) z code a)
    (hb : SoundFrom mask value z code b) : SoundFrom mask value z code (if z.extractLsb' s l = c then a else b) := by
  intro hz
  split
  next hc => exact ha (by rw [BitVec.and_or_distrib_left, hz, and_place_allOnes z, hc])
  next => exact hb hz

/-- A part of the decoder may know fewer of the bits than were tested. -/
theorem weaken {mask' value' : BitVec n} (ha : SoundFrom mask' value' z code a) (hm : mask &&& mask' = mask' := by decide)
    (hv : value &&& mask' = value' := by decide) : SoundFrom mask value z code a := by
  intro hz
  exact ha (by rw [← hv, ← hz, BitVec.and_assoc, hm])

end SoundFrom

/-! ## The decoder, test by test -/

theorem decodeHalf_sound (h : Half) : SoundFrom 0#16 0#16 h .half (decodeHalf h) := by
  unfold decodeHalf decodeHalf000 decodeHalf001 decodeHalf010 decodeHalf011 decodeHalf100 decodeHalf101 decodeHalf110
  repeat' first | exact .none | apply SoundFrom.test | exact .row

/-- The group is one for bits 31:29 and 24:20 (R405). -/
theorem decodeWord00000_sound (w : Word) : SoundFrom 0xE1F00000#32 0xE0000000#32 w .word (decodeWord00000 w) := by
  unfold decodeWord00000 decodeWord00000x0000 decodeWord00000x0001 decodeWord00000x0010
  repeat' first | exact .none | apply SoundFrom.test | exact .row

/-- The group is reached from five tests, and knows no more than bits 31:29 (R391, R405). -/
theorem decodeK21_sound (w : Word) : SoundFrom 0xE0000000#32 0xE0000000#32 w .word (decodeK21 w) := by
  unfold decodeK21
  repeat' first | exact .none | apply SoundFrom.test | exact .row

theorem decodeWord_sound (w : Word) : SoundFrom 0#32 0#32 w .word (decodeWord w) := by
  unfold decodeWord
  refine .test ?_ .none
  iterate 5 refine .test (.weaken (decodeK21_sound w)) ?_
  refine .test (.weaken (decodeWord00000_sound w)) ?_
  unfold decodeWord00001 decodeWord01100 decodeWord01101 decodeWord01110 decodeWord01111 decodeWord10000 decodeWord10001
    decodeWord10010 decodeWord10011 decodeWord10100 decodeWord10101 decodeWord10110 decodeWord10111 decodeWord11010 decodeWord11011
    decodeWord11100 decodeWord11101 decodeWord11110 decodeWord11111
  repeat' first | exact .none | apply SoundFrom.test | exact .row

/-- Settles O5: from no bit known, each way through the decoder ends at no instruction, or at a row that fixes every bit of the code. -/
theorem encodeOfDecode : Obligations.EncodeOfDecode := by
  intro code i h
  cases code with
  | half c =>
    simp only [decodeCode, Option.ite_none_left_eq_some] at h
    exact decodeHalf_sound c BitVec.and_zero i h.2
  | word w => exact decodeWord_sound w BitVec.and_zero i h

end Sys2Proof
end

section
/-! PROOFS. O13: what stops an instruction before its operation: the fetch, the code, the unit or revision, and the coprocessor. -/

namespace Sys2Proof.Machine

variable {s s1 : State}

/-! ## Unit and coprocessor -/

@[simp] theorem requireUnit_true (s : State) (o : Out) : requireUnit true s o = o := rfl

/-- The check for the unit comes first in every instruction of an optional one (30_encoding.md R411). -/
theorem exec_eq_requireUnit (i : Instr) (s : State) : ∃ o, exec i s = requireUnit (unitPresent i s.cfg) s o := by
  cases i with
  | addCond | rsubCond | andCond | eorCond | orCond | movh | ldUbCond | ldSbCond | ldUhCond | ldShCond | ldWCond | stBCond | stHCond | stWCond =>
    exact ⟨_, rfl⟩
  | sscall | retss | tlbr | tlbs | tlbw | incjosp | popjc | pushjc | retj | memc | mems | memt => exact ⟨_, rfl⟩
  | addhhW | machhD | machhW | macwhD | mulhhW | mulwhD | mulnhhW | mulnwhD | sataddH | sataddW | satsubH | satrnds | satrndu | sats | satu
  | subhhW | mulsathhH | mulsathhW | mulsatrndhhH | mulsatrndwhW | mulsatwhW | macsathhW => exact ⟨_, rfl⟩
  | pabsSb | pabsSh | packshUb | packshSb | packwSh | paddB | paddH | paddhUb | paddhSh | paddsUb | paddsSb | paddsUh | paddsSh | paddsubH
  | paddsubhSh | paddsubsUh | paddsubsSh | paddxH | paddxhSh | paddxsUh | paddxsSh | pasrB | pasrH | pavgUb | pavgSh | plslB | plslH | plsrB
  | plsrH | pmaxUb | pmaxSh | pminUb | pminSh | psad | psubB | psubH | psubaddH | psubaddhSh | psubaddsUh | psubaddsSh | psubhUb | psubhSh
  | psubsUb | psubsSb | psubsUh | psubsSh | psubxH | psubxhSh | psubxsUh | psubxsSh | punpckubH | punpcksbH => exact ⟨_, rfl⟩
  | satsubW f => cases f <;> exact ⟨_, rfl⟩
  | subCond f =>
    cases f with
    | formI => exact ⟨_, (requireUnit_true s _).symm⟩
    | formII => exact ⟨_, rfl⟩
  | _ => exact ⟨_, (requireUnit_true s _).symm⟩

/-- The check for the coprocessor comes first in every instruction of one (48_system_coprocessor_java.md R960). -/
theorem exec_eq_requireCop {i : Instr} {cp : BitVec 3} (h : coprocessorOf i = some cp) (s : State) : ∃ o, exec i s = requireCop cp s o := by
  cases i with
  | cop | ldc0D | ldc0W | ldcmD | mvcrD | mvcrW | mvrcD | mvrcW | stc0D | stc0W | stcmD => cases h; exact ⟨_, rfl⟩
  | ldcD f | ldcW f | ldcmW f | stcD f | stcW f | stcmW f => cases f <;> cases h <;> exact ⟨_, rfl⟩
  | _ => cases h

/-! ## The fetch -/

theorem fetchHalf_odd {va : Word} (h : va.toNat % 2 = 1) : fetchHalf va s = .raise (.instructionAddress va) s := by
  rw [fetchHalf, if_pos (by rw [← BitVec.testBit_toNat, Nat.testBit_zero, h]; rfl)]

/-- The fetch of a halfword at an even address is translated (R206, R235). -/
theorem fetchHalf_even {va : Word} (h : va.toNat % 2 = 0) (s : State) :
    fetchHalf va s = (translate .fetch s.privileged va s).bind fun r t =>
      if t.busAnswers .fetch r.pa && t.busAnswers .fetch (r.pa + 1#32) then .ok (cat 16 (t.byteAt r.pa) (t.byteAt (r.pa + 1#32))) t
      else .raise .busErrorFetch t := by
  rw [fetchHalf, if_neg (by rw [← BitVec.testBit_toNat, Nat.testBit_zero, h]; decide)]

/-- The event of a halfword is that of the code (R1067). -/
theorem fetchCode_raises {e : Event}
    (h : fetchHalf s.pc s = .raise e s1 ∨
      ∃ h s0, fetchHalf s.pc s = .ok h s0 ∧ isExtended h = true ∧ fetchHalf (s.pc + 2#32) s0 = .raise e s1) :
    fetchCode s = .raise e s1 := by
  rw [fetchCode]
  obtain first | ⟨c, s0, first, extended, second⟩ := h
  · rw [first]; rfl
  · simp only [first, Res.bind, extended, if_true, second]

/-- A fetch leaves the PC. -/
theorem fetchCode_pc {r : Res Code} (h : fetchCode s = r) : r.Leaves fun t => t.pc = s.pc :=
  h ▸ (fetchCode_accessed s).mono fun _ h => h.pc

/-! ## The step -/

/-- At a boundary that nothing interrupts, the step runs what it fetches (60_exceptions.md R1101). -/
theorem step_uninterrupted (h : Uninterrupted s) : step s = runAtPc s.sample := by
  obtain ⟨reset, stopped, ocd, pending, breakpoint, awake, java⟩ := h
  simp [step, stepSampled, reset, stopped, ocd, pending, breakpoint, awake, java]

theorem runAtPc_illegal {code : Code} (hf : fetchCode s = .ok code s1) (hd : decodeCode code = none) :
    runAtPc s = onNext (fun t => (t.windowPast s1 code.bytes.length false).clock s1 false) (takeEvent .illegalOpcode s.pc s1) := by
  have pc : s1.pc = s.pc := fetchCode_pc hf
  simp [runAtPc, hf, hd, raiseEvent, pc]

theorem runAtPc_raises {e : Event} (hf : fetchCode s = .raise e s1) : runAtPc s = onNext (fun t => t.clock s1 false) (takeEvent e s.pc s1) := by
  have pc : s1.pc = s.pc := fetchCode_pc hf
  simp [runAtPc, hf, raiseEvent, pc]

/-- Settles O13: the first check of the instruction, and the events of its fetch. -/
theorem missingUnitsTrap : Obligations.MissingUnitsTrap := by
  refine ⟨fun i s absent => ?_, fun i cp s hc signal => ?_, fun i cp s hc quiet absent => ?_, fun i s => perform_unimplemented,
    fun s s1 code free hf hd => ?_, fun s va => fetchHalf_odd, fun s s1 va e even ht => ?_, fun s s1 va r even ht silent => ?_,
    fun s s1 e free hf => ?_⟩
  · obtain ⟨o, run⟩ := exec_eq_requireUnit i s
    rw [run, absent]; rfl
  · obtain ⟨o, run⟩ := exec_eq_requireCop hc s
    rw [run, requireCop, if_pos signal]
  · obtain ⟨o, run⟩ := exec_eq_requireCop hc s
    rw [run, requireCop, quiet, absent]; rfl
  · rw [step_uninterrupted free, runAtPc_illegal hf hd]; rfl
  · rw [fetchHalf_even even, ht]; rfl
  · rw [fetchHalf_even even, ht]
    obtain h | h := silent <;> simp [Res.bind, h]
  · rw [step_uninterrupted free, runAtPc_raises (fetchCode_raises hf)]; rfl

end Sys2Proof.Machine
end

section
/-! PROOFS. O30: the sixteen conditions after cp.w, each read from the flags that the comparison left. -/

namespace Sys2Proof.Machine

/-! ## The flags of an update -/

@[simp] theorem State.setFlags_flagC (s : State) (u : FlagUpdate) : (s.setFlags u).flagC = u.c.getD s.flagC := getLsbD_applyFlags (by decide)
@[simp] theorem State.setFlags_flagZ (s : State) (u : FlagUpdate) : (s.setFlags u).flagZ = u.z.getD s.flagZ := getLsbD_applyFlags (by decide)
@[simp] theorem State.setFlags_flagN (s : State) (u : FlagUpdate) : (s.setFlags u).flagN = u.n.getD s.flagN := getLsbD_applyFlags (by decide)
@[simp] theorem State.setFlags_flagV (s : State) (u : FlagUpdate) : (s.setFlags u).flagV = u.v.getD s.flagV := getLsbD_applyFlags (by decide)
@[simp] theorem State.setFlags_flagQ (s : State) (u : FlagUpdate) : (s.setFlags u).flagQ = u.q.getD s.flagQ := getLsbD_applyFlags (by decide)

/-! ## The flags of a difference -/

/-- Where the exact difference of two words fits, it is that of the machine; elsewhere the sign is the other one. -/
theorem toInt_sub_neg_iff (a b : Word) :
    (a - b).toInt < 0 ↔ (a.toInt < b.toInt ↔ fitsSigned 32 (a.toInt - b.toInt)) := by
  have ha := a.toInt_lt
  have ha' := a.le_toInt
  have hb := b.toInt_lt
  have hb' := b.le_toInt
  rw [BitVec.toInt_sub, Int.bmod_def]
  simp only [fitsSigned]
  omega

/-- The flags that the comparison of `a` with `b` leaves in `t`. -/
structure Compared (t : State) (a b : Word) : Prop where
  c : t.flagC = true ↔ a.toNat < b.toNat
  z : t.flagZ = true ↔ a = b
  n : t.flagN = true ↔ (a - b).toInt < 0
  v : t.flagV = true ↔ ¬ fitsSigned 32 (a.toInt - b.toInt)

theorem compared_setFlags (s : State) (a b : Word) : Compared (s.setFlags (subFlags a b (a - b))) a b where
  c := by rw [State.setFlags_flagC]; exact cSub_iff a b
  z := by rw [State.setFlags_flagZ]; exact beq_iff_eq.trans sub_eq_zero
  n := by rw [State.setFlags_flagN]; simp [subFlags, BitVec.msb_eq_toInt]
  v := by rw [State.setFlags_flagV]; exact vSub_iff a b

variable {t : State} {a b : Word}

/-- N and V differ where the first operand is the smaller one, as signed words. -/
theorem Compared.less (h : Compared t a b) : (t.flagN != t.flagV) = true ↔ a.toInt < b.toInt := by
  have sign := toInt_sub_neg_iff a b
  rw [← h.n] at sign
  have overflow := h.v
  cases hn : t.flagN <;> cases hv : t.flagV <;> simp_all

/-- C or Z: the first operand is no larger, as unsigned words. -/
theorem Compared.lowerOrSame (h : Compared t a b) : (t.flagC || t.flagZ) = true ↔ a.toNat ≤ b.toNat := by
  rw [Bool.or_eq_true, h.c, h.z, ← BitVec.toNat_inj, Nat.le_iff_lt_or_eq]

/-- Z, or N and V that differ: it is no larger, as signed words. -/
theorem Compared.lessOrEqual (h : Compared t a b) : (t.flagZ || t.flagN != t.flagV) = true ↔ a.toInt ≤ b.toInt := by
  rw [Bool.or_eq_true, h.less, h.z, ← BitVec.toInt_inj, Int.le_iff_lt_or_eq, or_comm]

/-- Settles O30: C is the unsigned order, N and V together the signed one, Z equality; each condition is one of these or the negation of one. -/
theorem conditionsAfterCompare : Obligations.ConditionsAfterCompare := by
  intro s rd rs
  have h := compared_setFlags (s.advance 2#32) (s.getReg rd) (s.getReg rs)
  refine ⟨_, rfl, h.z, ?ne, ?cc, h.c, ?ge, h.less, h.n, ?pl, h.lowerOrSame, ?gt, h.lessOrEqual, ?hi, h.v, ?vc, ?qs, rfl⟩
  case ne => simpa [State.cond] using not_congr h.z
  case cc => simpa [State.cond] using not_congr h.c
  case ge => simpa [State.cond] using not_congr h.less
  case pl => simpa [State.cond] using not_congr h.n
  case gt => simpa [State.cond] using not_congr h.lessOrEqual
  case hi => simpa [State.cond] using not_congr h.lowerOrSame
  case vc => simpa [State.cond] using not_congr h.v
  case qs => simp [State.cond, subFlags]; rfl

end Sys2Proof.Machine
end

section
/-! PROOFS. O57: the multiple transfers of a coprocessor: which registers their lists name, what they load and store, and what they leave. -/

namespace Sys2Proof.Machine

/-! ## The lists -/

/-- Each bit of the first `n` names a pair (30_encoding.md R359). -/
theorem getLsbD_pairs (list : BitVec 8) (n i : Nat) (hi : i < 16) :
    ((List.range n).foldl (fun acc k => if list.getLsbD k then acc ||| (0b11#16 <<< (2 * k)) else acc) 0#16).getLsbD i =
      (decide (i / 2 < n) && list.getLsbD (i / 2)) := by
  induction n with
  | zero => simp
  | succ n ih =>
    have pair : (0b11#16 <<< (2 * n)).getLsbD i = decide (i / 2 = n) := by
      have two (m : Nat) : (0b11#16).getLsbD m = decide (m < 2) := by
        rw [BitVec.getLsbD_ofNat, show 0b11 = 2 ^ 2 - 1 by rfl, Nat.testBit_two_pow_sub_one, ← Bool.decide_and, decide_eq_decide]
        omega
      rw [BitVec.getLsbD_shiftLeft, two]
      simp only [hi, decide_true, Bool.true_and, ← decide_not, ← Bool.decide_and, decide_eq_decide]
      omega
    rw [List.range_succ, List.foldl_append, List.foldl_cons, List.foldl_nil]
    by_cases hn : i / 2 = n
    · subst hn
      split <;> simp_all
    · have : (i / 2 < n + 1) ↔ i / 2 < n := by omega
      split <;> simp_all

theorem getLsbD_copPairs (list : BitVec 8) {i : Nat} (hi : i < 16) : (copPairs list).getLsbD i = list.getLsbD (i / 2) := by
  rw [copPairs, getLsbD_pairs list 8 i hi, decide_eq_true (by omega : i / 2 < 8), Bool.true_and]

theorem getLsbD_copHigh (list : BitVec 8) (i : Nat) : (copHigh list).getLsbD i = (decide (8 ≤ i) && list.getLsbD (i - 8)) := by
  rw [copHigh, BitVec.getLsbD_append]
  by_cases h : i < 8
  · simp [h]
  · simp [h, Nat.le_of_not_lt h]

theorem getLsbD_copLow (list : BitVec 8) {i : Nat} (hi : i < 16) : (copLow list).getLsbD i = (decide (i < 8) && list.getLsbD i) := by
  rw [copLow, BitVec.getLsbD_setWidth, decide_eq_true hi, Bool.true_and]
  by_cases h : i < 8
  · simp [h]
  · simp [h, BitVec.getLsbD_of_ge list i (Nat.le_of_not_lt h)]

/-- A list names no register twice. -/
theorem listAscending_nodup (list : BitVec 16) : (listAscending list).Nodup := by
  refine List.Nodup.map_on (fun i hi j hj e => ?_) (List.nodup_range.filter _)
  have small {k : Nat} (hk : k ∈ (List.range 16).filter fun k => list.getLsbD k) : k < 16 := List.mem_range.mp (List.mem_of_mem_filter hk)
  have := congrArg BitVec.toNat e
  rwa [BitVec.toNat_ofNat, BitVec.toNat_ofNat, Nat.mod_eq_of_lt (small hi), Nat.mod_eq_of_lt (small hj)] at this

/-! ## The words of a block -/

theorem storesUp_eq (a : Word) (vs : List Word) (k : Nat) :
    storesUp (a + BitVec.ofNat 32 (4 * k)) vs = (vs.zipIdx k).map fun p => (a + BitVec.ofNat 32 (4 * p.2), p.1) := by
  induction vs generalizing k with
  | nil => rfl
  | cons v vs ih =>
    have next : a + BitVec.ofNat 32 (4 * k) + 4#32 = a + BitVec.ofNat 32 (4 * (k + 1)) := by
      rw [Nat.mul_add, BitVec.ofNat_add, BitVec.add_assoc]
    rw [storesUp, next, ih, List.zipIdx_cons, List.map_cons]

theorem storesDown_eq (a : Word) (vs : List Word) (k : Nat) :
    storesDown (a - BitVec.ofNat 32 (4 * k)) vs = (vs.zipIdx k).map fun p => (a - BitVec.ofNat 32 (4 * (p.2 + 1)), p.1) := by
  induction vs generalizing k with
  | nil => rfl
  | cons v vs ih =>
    have next : a - BitVec.ofNat 32 (4 * k) - 4#32 = a - BitVec.ofNat 32 (4 * (k + 1)) := by
      rw [Nat.mul_add, BitVec.ofNat_add, sub_sub]
    rw [storesDown, next, ih, List.zipIdx_cons, List.map_cons]

/-- The stores of a block are those that its list names. -/
theorem blockStores_eq_listStores (a : Word) (wb : BitVec 1) (list : BitVec 16) (value : RegNo → Word) :
    blockStores a wb ((listAscending list).map value) = listStores a wb list value := by
  have up := storesUp_eq a ((listAscending list).reverse.map value) 0
  have down := storesDown_eq a ((listAscending list).map value) 0
  rw [Nat.mul_zero, BitVec.add_zero] at up
  rw [Nat.mul_zero, BitVec.sub_zero] at down
  unfold blockStores listStores
  by_cases h : wb = 1#1
  · simp [h, down, List.zipIdx_map]
  · simp [h, up, ← List.map_reverse, List.zipIdx_map]

/-! ## The coprocessor registers -/

theorem State.copReg_setCopReg (s : State) (cp c : BitVec 3) (i j : RegNo) (v : Word) :
    (s.setCopReg cp i v).copReg c j = if c = cp ∧ j = i then v else s.copReg c j := by
  simp only [State.copReg, State.setCopReg, Vector.getElem_set, ← BitVec.toNat_inj]
  by_cases hc : c.toNat = cp.toNat
  · by_cases hj : j.toNat = i.toNat
    · simp [hc, hj]
    · simp [hc, hj, Ne.symm hj]
  · simp [hc, Ne.symm hc]

/-- A write of several registers reaches the coprocessors alone. -/
theorem State.setCopRegs_eq (s : State) (cp : BitVec 3) (l : List (RegNo × Word)) : ∃ cop, s.setCopRegs cp l = { s with cop := cop } := by
  induction l generalizing s with
  | nil => exact ⟨s.cop, rfl⟩
  | cons p l ih => exact ih (s.setCopReg cp p.1 p.2)

theorem State.freeCopRegs_eq (s : State) (cp : BitVec 3) (is : List RegNo) :
    ∃ cop n, s.freeCopRegs cp is = { s with cop := cop, freeIdx := n } := by
  induction is generalizing s with
  | nil => exact ⟨s.cop, s.freeIdx, rfl⟩
  | cons i is ih => exact ih ((s.setCopReg cp i s.free).drawFree 1)

theorem State.copReg_setCopRegs_other (s : State) (cp c : BitVec 3) {j : RegNo} {is : List RegNo} (vs : List Word)
    (h : ¬ (c = cp ∧ j ∈ is)) : (s.setCopRegs cp (is.zip vs)).copReg c j = s.copReg c j := by
  induction is generalizing s vs with
  | nil => rfl
  | cons i is ih =>
    cases vs with
    | nil => rfl
    | cons v vs =>
      rw [List.zip_cons_cons, State.setCopRegs, ih (s.setCopReg cp i v) vs fun ⟨hc, hj⟩ => h ⟨hc, .tail _ hj⟩, State.copReg_setCopReg,
        if_neg fun ⟨hc, hj⟩ => h ⟨hc, hj ▸ .head _⟩]

theorem State.freeCopRegs_other (s : State) (cp : BitVec 3) (is : List RegNo) : SameCops s (s.freeCopRegs cp is) cp is := by
  induction is generalizing s with
  | nil => exact fun _ _ _ => rfl
  | cons i is ih =>
    intro c j h
    rw [State.freeCopRegs, ih ((s.setCopReg cp i s.free).drawFree 1) c j fun ⟨hc, hj⟩ => h ⟨hc, .tail _ hj⟩]
    exact (s.copReg_setCopReg cp c i j s.free).trans (if_neg fun ⟨hc, hj⟩ => h ⟨hc, hj ▸ .head _⟩)

/-- Each register that is named once holds its value. -/
theorem State.copReg_setCopRegs_same (s : State) (cp : BitVec 3) {is : List RegNo} (h : is.Nodup) (vs : List Word) {q : RegNo × Word}
    (hq : q ∈ is.zip vs) : (s.setCopRegs cp (is.zip vs)).copReg cp q.1 = q.2 := by
  induction is generalizing s vs with
  | nil => cases hq
  | cons i is ih =>
    obtain ⟨new, rest⟩ := List.nodup_cons.mp h
    cases vs with
    | nil => cases hq
    | cons v vs =>
      rw [List.zip_cons_cons, State.setCopRegs]
      obtain rfl | hq := List.mem_cons.mp hq
      · rw [State.copReg_setCopRegs_other _ cp cp vs fun ⟨_, hj⟩ => new hj, State.copReg_setCopReg, if_pos ⟨rfl, rfl⟩]
      · exact ih _ rest vs hq

/-! ## What the transfers leave -/

theorem ReadsAll.checked {kind : LsKind} {vas : List Word} {s s1 : State} {vs : List Word} (h : ReadsAll kind vas s vs s1) :
    OnlyChecked s s1 := by
  induction vas generalizing s vs with
  | nil => obtain ⟨-, rfl⟩ := h; exact .refl _
  | cons va vas ih =>
    obtain ⟨bs, rest, s0, first, -, -, others⟩ := h
    exact first.checked.trans (ih others)

theorem ReachesAll.accessed {kind : LsKind} {ws : List (Word × Word)} {s s1 : State} {ps : List (Word × Nat)}
    (h : ReachesAll kind ws s ps s1) : Accessed s s1 := by
  have := storeWords_accessed kind ws s
  rwa [storeWords_reachesAll h] at this

theorem touches_of_inRange {ps : List (Word × Nat)} {p : Word × Nat} {a : Word} (hp : p ∈ ps) (h : inRange p.1 p.2 a) : touches ps a := by
  obtain ⟨i, hi, rfl⟩ := h
  refine ⟨p, hp, ?_⟩
  rw [add_sub_cancel_left, BitVec.toNat_ofNat]
  exact Nat.lt_of_le_of_lt (Nat.mod_le ..) hi

/-- The stores reach the bytes of their transfers alone. -/
theorem ReachesAll.sameMemBut {kind : LsKind} {ws : List (Word × Word)} {s s1 : State} {ps : List (Word × Nat)}
    (h : ReachesAll kind ws s ps s1) (wf : Memory.wf s.mem = true) : SameMemBut s s1 ps := by
  induction ws generalizing s ps with
  | nil => obtain ⟨-, rfl⟩ := h; exact fun _ _ => rfl
  | cons p ws ih =>
    obtain ⟨qs, rest, s0, first, -, rfl, others⟩ := h
    intro a outside
    have wf0 : Memory.wf s0.mem = true := first.checked.mem ▸ wf
    rw [ih others (writeTransfers_wf wf0) a fun ⟨q, hq, ha⟩ => outside ⟨q, List.mem_append_right _ hq, ha⟩]
    exact (read_writeTransfers_outside wf0 fun q hq ha => outside (touches_of_inRange (List.mem_append_left _ hq) ha)).trans
      (congrArg (Memory.read · a.toNat) first.checked.mem)

/-- Coprocessor registers and free values are no part of an access. -/
theorem Accessed.withCop {s s1 : State} (h : Accessed s s1) (cop : Vector (Vector Word 16) 8) (n : Nat) :
    Accessed { s with cop := cop } { s1 with cop := cop, freeIdx := n } := by
  obtain ⟨⟨mem, busErr, itlb, dtlb, _, between, rfl⟩, wf, i, d⟩ := h
  exact ⟨⟨mem, busErr, itlb, dtlb, n, between, rfl⟩, wf, i, d⟩

/-- The pointer of an instruction of four bytes, where it has one: `t` is `u`, the state behind the instruction, with the pointer moved. -/
def Moved (u t : State) : Option (RegNo × Word) → Prop
  | none => t = u
  | some (p, v) => t = u.setReg p v

/-- Behind accesses that lead from `s` to `s1`, an instruction of four bytes that writes coprocessor registers and moves its pointer leaves the
rest as the accesses do. -/
theorem Accessed.behind_cop {s s1 t : State} {cop : Vector (Vector Word 16) 8} {n : Nat} {ptr : Option (RegNo × Word)} (h : Accessed s s1)
    (moved : Moved { s1.advance 4#32 with cop := cop, freeIdx := n } t ptr) :
    SameRegs s t (ptr.map Prod.fst).toList ∧ SameSr s t [] ∧ t.mem = s1.mem ∧ t.cop = cop ∧ SameSystem { s1 with cop := t.cop } t := by
  have hc := h.withCop cop n
  have sr := h.sr
  cases ptr with
  | none =>
    obtain rfl := moved
    refine ⟨hc.sameRegs_advance 4#32, fun k _ _ => ?_, rfl, rfl, ?_⟩
    · simp [State.srBit, sr]
    · simp [SameSystem]
  | some q =>
    obtain rfl := moved
    refine ⟨hc.sameRegs_setReg 4#32 q.1 q.2, fun k _ _ => ?_, ?_, ?_, ?_⟩
    · simp [State.srBit, sr]
    · simp
    · simp
    · simp [SameSystem]

theorem Accessed.pointerAt {s s1 t : State} {cop : Vector (Vector Word 16) 8} {n : Nat} {ptr : Option (RegNo × Word)} (h : Accessed s s1)
    (moved : Moved { s1.advance 4#32 with cop := cop, freeIdx := n } t ptr) {i : Instr} (len : s.after i = s.pc + 4#32) :
    PointerAt i s t ptr := by
  have pc := h.pc
  cases ptr with
  | none => obtain rfl := moved; simp [PointerAt, len, pc]
  | some q =>
    obtain ⟨p, v⟩ := q
    obtain rfl := moved
    by_cases h15 : p = 15#4
    · subst h15; rw [PointerAt, Writes, if_pos rfl]; rfl
    · rw [PointerAt, Writes, if_neg h15, State.getReg_setReg_same _ _ h15, State.setReg_keeps_pc _ _ h15, len, ← pc]
      exact ⟨rfl, rfl⟩

/-- The pointer moves with write-back. -/
theorem moved_writeBack (u : State) (wb : BitVec 1) (p : RegNo) (v : Word) :
    Moved u (if wb = 1#1 then u.setReg p v else u) (if wb = 1#1 then some (p, v) else none) := by
  split <;> rfl

theorem pointer_registers (wb : BitVec 1) (p : RegNo) (v : Word) :
    ((if wb = 1#1 then some (p, v) else none).map Prod.fst).toList = if wb = 1#1 then [p] else [] := by
  split <;> rfl

theorem State.copReg_congr {s t : State} (h : t.cop = s.cop) (c : BitVec 3) (i : RegNo) : t.copReg c i = s.copReg c i := by
  simp only [State.copReg, h]

theorem Accessed.cop {s t : State} (h : Accessed s t) : t.cop = s.cop := by obtain ⟨_, _, _, _, _, _, rfl⟩ := h.frame; rfl

/-- An empty list (93_implementation_defined.md U40). -/
theorem emptyList_frame (s : State) (cp : BitVec 3) (rp : RegNo) (is : List RegNo) :
    CopFrame s s (((s.advance 4#32).freeCopRegs cp is).freeRegs [rp]) cp is [rp] := by
  have others := (s.advance 4#32).freeCopRegs_other cp is
  obtain ⟨cop, n, e⟩ := (s.advance 4#32).freeCopRegs_eq cp is
  rw [e] at others ⊢
  obtain ⟨regs, sr, mem, copied, system⟩ :=
    (Accessed.refl s).behind_cop (cop := cop) (n := n) (ptr := some (rp, Config.freeWord n)) rfl
  refine ⟨.refl s, fun c j h => (State.copReg_congr copied c j).trans (others c j h), fun p real notPc other => ?_, sr,
    fun a => congrArg (Memory.read · a.toNat) mem, system⟩
  exact ((Accessed.drawFree _ 1).readPhys p).trans (regs p real notPc other)

/-- ldcm of a coprocessor that is there (48_system_coprocessor_java.md R966, R967). -/
theorem loadsCops_of_run {i : Instr} {s : State} {kind : LsKind} {cp : BitVec 3} {rp : RegNo} {wb : BitVec 1} {list all : BitVec 16}
    (run : exec i s = s.copLoadMany kind cp rp wb list all) (len : s.after i = s.pc + 4#32) : LoadsCops i s kind cp rp wb list all := by
  refine ⟨fun nonempty vs s1 reads => ?_, fun empty => ⟨_, run.trans (if_pos empty), emptyList_frame ..⟩⟩
  have h := reads.checked.accessed
  have once := List.nodup_reverse.mpr (listAscending_nodup list)
  obtain ⟨cop, written⟩ := (s1.advance 4#32).setCopRegs_eq cp (loadedRegs list vs)
  have moved := moved_writeBack { s1.advance 4#32 with cop := cop } wb rp (s.getReg rp + BitVec.ofNat 32 (4 * (listAscending list).length))
  obtain ⟨regs, sr, mem, copied, system⟩ := h.behind_cop (n := s1.freeIdx) moved
  have loaded (c : BitVec 3) (j : RegNo) := State.copReg_congr (copied.trans (congrArg State.cop written).symm) c j
  refine ⟨_, ?_, fun q hq => (loaded cp q.1).trans (State.copReg_setCopRegs_same _ cp once vs hq), h.pointerAt (n := s1.freeIdx) moved len,
    reads.checked, fun c j other => ?_, pointer_registers wb rp _ ▸ regs, sr, fun a => ?_, system⟩
  · simp only [run, State.copLoadMany, if_neg nonempty, loadWords_eq_loadEach, loadEach_readsAll reads, Res.bind, Res.finish, written]
  · rw [loaded, loadedRegs, State.copReg_setCopRegs_other _ cp c vs fun ⟨hc, hj⟩ => other ⟨hc, List.mem_reverse.mp hj⟩]
    exact State.copReg_congr h.cop c j
  · exact congrArg (Memory.read · a.toNat) (mem.trans reads.checked.mem)

/-- stcm of a coprocessor that is there (48_system_coprocessor_java.md R976, R977). -/
theorem storesCops_of_run {i : Instr} {s : State} {kind : LsKind} {cp : BitVec 3} {rp : RegNo} {wb : BitVec 1} {list : BitVec 16}
    (run : exec i s = s.copStoreMany kind cp rp wb list) (len : s.after i = s.pc + 4#32) : StoresCops i s kind cp rp wb list := by
  refine ⟨fun nonempty ps s1 reaches => ?_, fun empty => ⟨_, run.trans (if_pos empty), emptyList_frame s cp rp []⟩⟩
  have moved := moved_writeBack (s1.advance 4#32) wb rp (s.getReg rp - BitVec.ofNat 32 (4 * (listAscending list).length))
  obtain ⟨regs, sr, mem, copied, system⟩ := reaches.accessed.behind_cop (cop := s1.cop) (n := s1.freeIdx) moved
  rw [copied] at system
  refine ⟨_, ?_, mem, fun wf a outside => ?_, pointer_registers wb rp _ ▸ regs, sr, system,
    reaches.accessed.pointerAt (cop := s1.cop) (n := s1.freeIdx) moved len⟩
  · simp only [run, State.copStoreMany, if_neg nonempty, blockStores_eq_listStores, storeWords_reachesAll reaches]
    split <;> rfl
  · exact (congrArg (Memory.read · a.toNat) mem).trans (reaches.sameMemBut wf a outside)

/-- Settles O57: the lists bit by bit, and each instruction as the transfer of the registers of its list. -/
theorem coprocessorMultiple : Obligations.CoprocessorMultiple := by
  refine ⟨fun list i hi => ⟨getLsbD_copPairs list hi, getLsbD_copHigh list i, getLsbD_copLow list hi⟩, fun s cp rp wb list ready => ?_⟩
  have ok := requireCop_ready ready
  exact ⟨loadsCops_of_run (ok _) rfl, loadsCops_of_run (ok _) rfl, loadsCops_of_run (ok _) rfl, storesCops_of_run (ok _) rfl,
    storesCops_of_run (ok _) rfl, storesCops_of_run (ok _) rfl⟩

end Sys2Proof.Machine
end

section
/-! PROOFS. O15: what the instructions that write only registers and flags leave. Each way such an instruction ends advances the PC, then writes
registers, then flags; every one of these writes leaves all but what it names. -/

namespace Sys2Proof.Machine

variable {s t : State} {after : Word} {ds : List RegNo} {bits : List Nat}

/-! ## Writes of registers and flags -/

/-- From `s` to `t` only the registers `ds` and the bits `bits` of SR have been written, and R15 was advanced to `after`. -/
structure WritesOnly (s t : State) (after : Word) (ds : List RegNo) (bits : List Nat) : Prop where
  phys : ∀ i, t.phys i = s.phys i
  regs : SameRegs s t ds
  sr : SameSr s t bits
  mem : SameMem s t
  system : SameSystem s t
  pc : 15#4 ∉ ds → t.pc = after

namespace WritesOnly

theorem advance (s : State) (len : Word) (ds : List RegNo) (bits : List Nat) : WritesOnly s (s.advance len) (s.pc + len) ds bits where
  phys := s.phys_advance len
  regs p _ notPc _ := s.readPhys_advance len p notPc
  sr _ _ _ := rfl
  mem _ := rfl
  system := by simp [SameSystem]
  pc _ := rfl

/-- A write of R`d` reaches the physical register that `d` names in `s` (10_state.md R104). -/
theorem setReg (h : WritesOnly s t after ds bits) {d : RegNo} (hd : d ∈ ds) (v : Word) : WritesOnly s (t.setReg d v) after ds bits where
  phys i := (t.phys_setReg d v i).trans (h.phys i)
  regs p real notPc other := by
    have ne : p ≠ t.phys d := h.phys d ▸ other d hd
    exact (t.readPhys_writePhys_other v (t.phys_real d) real ne).trans (h.regs p real notPc other)
  sr n hn notIn := (t.srBit_setReg d v n).trans (h.sr n hn notIn)
  mem a := (congrArg (Memory.read · a.toNat) (t.setReg_mem d v)).trans (h.mem a)
  system := by simpa [SameSystem] using h.system
  pc notIn := (t.setReg_keeps_pc v (fun e => notIn (e ▸ hd))).trans (h.pc notIn)

/-- The counter of the free values is no register. -/
theorem drawFree (h : WritesOnly s t after ds bits) (n : Nat) : WritesOnly s (t.drawFree n) after ds bits where
  phys := h.phys
  regs p real notPc other := ((Accessed.drawFree t n).readPhys p).trans (h.regs p real notPc other)
  sr := h.sr
  mem := h.mem
  system := h.system
  pc := h.pc

theorem freeRegs (h : WritesOnly s t after ds bits) {is : List RegNo} (sub : is ⊆ ds) : WritesOnly s (t.freeRegs is) after ds bits := by
  induction is generalizing t with
  | nil => exact h
  | cons i is ih =>
    obtain ⟨hi, rest⟩ := List.cons_subset.mp sub
    exact ih ((h.setReg hi t.free).drawFree 1) rest

/-- A pair is two registers, with an odd number too. -/
theorem setPair (h : WritesOnly s t after ds bits) {d : RegNo} (hd : d ∈ ds) (hd1 : d + 1#4 ∈ ds) (hi lo : Word) :
    WritesOnly s (t.setPair d hi lo) after ds bits := by
  unfold State.setPair
  split
  · exact (h.setReg hd1 hi).setReg hd lo
  · exact h.freeRegs (by simp [hd, hd1])

end WritesOnly

/-- The bits of SR that a flag update names. -/
def FlagUpdate.named (u : FlagUpdate) : List Nat :=
  [(u.q, bitQ), (u.v, bitV), (u.n, bitN), (u.z, bitZ), (u.c, bitC)].filterMap fun p => p.1.map fun _ => p.2

theorem getLsbD_setBitIf_other {w : Word} {n m : Nat} {o : Option Bool} (hm : m < 32) (h : ∀ b, o = some b → m ≠ n) :
    (setBitIf w n o).getLsbD m = w.getLsbD m := by
  cases o with
  | none => rfl
  | some b => rw [setBitIf, getLsbD_setBit hm, if_neg (h b rfl)]

/-- A flag update changes the bits it names and no other. -/
theorem srBit_setFlags_other (s : State) {u : FlagUpdate} {n : Nat} (hn : n < 32) (notIn : n ∉ u.named) :
    (s.setFlags u).srBit n = s.srBit n := by
  have other (o : Option Bool) (k : Nat) (hk : (o, k) ∈ [(u.q, bitQ), (u.v, bitV), (u.n, bitN), (u.z, bitZ), (u.c, bitC)]) (b : Bool)
      (ho : o = some b) : n ≠ k := fun e => notIn (List.mem_filterMap.mpr ⟨_, hk, by rw [ho, e]; rfl⟩)
  rw [State.srBit, State.setFlags_sr, applyFlags, getLsbD_setBitIf_other hn (other u.c bitC (by simp)),
    getLsbD_setBitIf_other hn (other u.z bitZ (by simp)), getLsbD_setBitIf_other hn (other u.n bitN (by simp)),
    getLsbD_setBitIf_other hn (other u.v bitV (by simp)), getLsbD_setBitIf_other hn (other u.q bitQ (by simp)), State.srBit]

theorem WritesOnly.setFlags (h : WritesOnly s t after ds []) (u : FlagUpdate) : WritesOnly s (t.setFlags u) after ds u.named where
  phys i := (t.phys_setFlags u i).trans (h.phys i)
  regs p real notPc other := (t.readPhys_setFlags u p).trans (h.regs p real notPc other)
  sr n hn notIn := (srBit_setFlags_other t hn notIn).trans (h.sr n hn (by simp))
  mem := h.mem
  system := h.system
  pc := h.pc

/-! ## The ways an instruction ends -/

/-- The instruction `i` with the outcome `o` completes, and has written only the registers `ds` and the bits `bits` of SR. -/
def CompletesWriting (i : Instr) (s : State) (o : Out) (ds : List RegNo) (bits : List Nat) : Prop :=
  Gives o fun t => WritesOnly s t (s.after i) ds bits

namespace CompletesWriting

variable {i : Instr} {o : Out} {len : Word} {d : RegNo} {u : FlagUpdate}

theorem finishReg {v : Word} (hu : u.named = bits := by rfl) (hlen : s.pc + len = s.after i := by rfl) :
    CompletesWriting i s (s.finishReg len d v u) [d] bits :=
  ⟨_, rfl, hlen ▸ hu ▸ ((WritesOnly.advance s len [d] []).setReg (List.mem_singleton_self d) v).setFlags u⟩

theorem finishFlags (hu : u.named = bits := by rfl) (hlen : s.pc + len = s.after i := by rfl) :
    CompletesWriting i s (s.finishFlags len u) [] bits :=
  ⟨_, rfl, hlen ▸ hu ▸ (WritesOnly.advance s len [] []).setFlags u⟩

theorem finishPair {v : BitVec 64} (hlen : s.pc + len = s.after i := by rfl) :
    CompletesWriting i s (s.finishPair len d v) [d, d + 1#4] [] :=
  ⟨_, rfl, hlen ▸ (WritesOnly.advance s len [d, d + 1#4] []).setPair (by simp) (by simp) _ _⟩

/-- Both registers of a pair receive any value (93_implementation_defined.md U41, U42). -/
theorem freePair (hlen : s.pc + len = s.after i := by rfl) :
    CompletesWriting i s (.next ((s.advance len).freeRegs [d + 1#4, d])) [d, d + 1#4] [] :=
  ⟨_, rfl, hlen ▸ (WritesOnly.advance s len [d, d + 1#4] []).freeRegs (by simp)⟩

theorem finishNop (hlen : s.pc + len = s.after i := by rfl) : CompletesWriting i s (s.finishNop len) ds bits :=
  ⟨_, rfl, hlen ▸ WritesOnly.advance s len ds bits⟩

theorem ite {p : Prop} [Decidable p] {o' : Out} (h : CompletesWriting i s o ds bits) (h' : CompletesWriting i s o' ds bits) :
    CompletesWriting i s (if p then o else o') ds bits :=
  iteInduction (motive := (CompletesWriting i s · ds bits)) (fun _ => h) fun _ => h'

theorem ifCond {c : Cond} (h : CompletesWriting i s o ds bits) (hlen : s.pc + len = s.after i := by rfl) :
    CompletesWriting i s (s.ifCond c len o) ds bits :=
  .ite h (.finishNop hlen)

theorem requireUnit {ok : Bool} (present : ok = true) (h : CompletesWriting i s o ds bits) :
    CompletesWriting i s (requireUnit ok s o) ds bits := by
  rw [present]; exact h

end CompletesWriting

/-- A frame is kept where each of its instructions completes, writing only what the frame names. -/
theorem keepsRest_of {frame : Instr → Option (List RegNo × List Nat)} {present : Instr → Params → Bool}
    (h : ∀ i ds bits, frame i = some (ds, bits) → ∀ s : State, present i s.cfg = true → CompletesWriting i s (exec i s) ds bits) :
    KeepsRest frame present := fun i ds bits named s unit => by
  obtain ⟨t, run, only⟩ := h i ds bits named s unit
  exact ⟨t, run, only.regs, only.sr, only.mem, only.system, only.pc⟩

/-! ## The instructions -/

theorem arithmetic_completes (i : Instr) (ds : List RegNo) (bits : List Nat) (named : arithmeticFrame i = some (ds, bits)) (s : State)
    (present : unitPresent i s.cfg = true) : CompletesWriting i s (exec i s) ds bits := by
  cases i with
  | abs | acr | adc | addabs | max | min | neg | sbc | scr | mac => cases named; exact .finishReg
  | add f | rsub f | sub f | mul f => cases f <;> cases named <;> exact .finishReg
  | cpB | cpH | tnbz => cases named; exact .finishFlags
  | cpW f | cpc f => cases f <;> cases named <;> exact .finishFlags
  | macsD | macuD | mulsD | muluD => cases named; exact .finishPair
  | divs | divu => cases named; exact .ite .freePair .finishPair
  | addCond | rsubCond => cases named; exact .requireUnit present (.ifCond .finishReg)
  | subCond f =>
    cases f with
    | formI c rd f imm =>
      cases named
      exact .ifCond (.finishReg (apply_ite FlagUpdate.named (f = 0#1) _ _))
    | formII => cases named; exact .requireUnit present (.ifCond .finishReg)
  | _ => cases named

theorem move_completes (i : Instr) (ds : List RegNo) (bits : List Nat) (named : moveFrame i = some (ds, bits)) (s : State)
    (present : unitPresent i s.cfg = true) : CompletesWriting i s (exec i s) ds bits := by
  cases i with
  | mov f => cases f <;> cases named <;> exact .finishReg
  | movCond f => cases f <;> cases named <;> exact .ifCond .finishReg
  | movh => cases named; exact .requireUnit present .finishReg
  | mustr | srCond => cases named; exact .finishReg
  | musfr => cases named; exact .finishFlags
  | nop | frs | pref => cases named; exact .finishNop
  | _ => cases named

/-- Settles O15: each instruction of the two lists by the way it ends. -/
theorem arithmeticAndMoveFrame : Obligations.ArithmeticAndMoveFrame :=
  ⟨keepsRest_of arithmetic_completes, keepsRest_of move_completes, fun _ _ => rfl⟩

end Sys2Proof.Machine
end

section
/-! PROOFS. O18 and O19: the flags of an addition and of a subtraction, with a carry or borrow in, as statements about exact integers
(40_arithmetic.md R450), and the instructions that add, subtract and compare. -/

namespace Sys2Proof.Machine

/-! ## Flags of exact integers -/

section
variable {n P : Nat} (hP : P = 2 ^ n)
include hP

/-- The sign bit counts `P` in the unsigned value and `-P` in the signed one. -/
theorem msb_cases (a : BitVec (n + 1)) :
    a.msb = true ∧ P ≤ a.toNat ∧ a.toNat < 2 * P ∧ a.toInt = a.toNat - 2 * P ∨ a.msb = false ∧ a.toNat < P ∧ a.toInt = a.toNat := by
  have range := a.isLt
  have double : 2 ^ (n + 1) = 2 * P := by omega
  rw [BitVec.toInt_eq_msb_cond, BitVec.msb_eq_decide, Nat.add_sub_cancel, double, ← hP]
  by_cases h : P ≤ a.toNat
  · exact .inl (by simp [h]; omega)
  · exact .inr (by simp [h]; omega)

theorem fitsSigned_iff {x : Int} : fitsSigned (n + 1) x ↔ -(P : Int) ≤ x ∧ x < P := by
  simp [fitsSigned, hP]

/-- A sum of two vectors and a carry wraps at most once. -/
theorem add_carry_wraps (a b : BitVec (n + 1)) (c : Bool) :
    (a + b + BitVec.ofNat (n + 1) c.toNat).toNat = a.toNat + b.toNat + c.toNat ∨
    (a + b + BitVec.ofNat (n + 1) c.toNat).toNat + 2 * P = a.toNat + b.toNat + c.toNat := by
  have double : 2 ^ (n + 1) = 2 * P := by omega
  have ha := a.isLt
  have hb := b.isLt
  have hc := c.toNat_le
  have kept : (a + b + BitVec.ofNat (n + 1) c.toNat).toNat = (a.toNat + b.toNat + c.toNat) % (2 * P) := by simp [double]
  by_cases h : a.toNat + b.toNat + c.toNat < 2 * P
  · exact .inl (kept.trans (Nat.mod_eq_of_lt h))
  · rw [Nat.mod_eq_sub_mod (by omega), Nat.mod_eq_of_lt (by omega)] at kept
    omega

/-- V and C of an addition with a carry in: the exact sum does not fit (R450). -/
theorem addFlags_exact (a b : BitVec (n + 1)) (c : Bool) :
    (vAdd a b (a + b + BitVec.ofNat (n + 1) c.toNat) = true ↔ ¬ fitsSigned (n + 1) (a.toInt + b.toInt + c.toNat)) ∧
    (cAdd a b (a + b + BitVec.ofNat (n + 1) c.toNat) = true ↔ 2 * P ≤ a.toNat + b.toNat + c.toNat) := by
  have wraps := add_carry_wraps hP a b c
  have hc := c.toNat_le
  generalize a + b + BitVec.ofNat (n + 1) c.toNat = r at wraps
  rw [fitsSigned_iff hP]
  obtain ⟨ha, la, ia⟩ | ⟨ha, la, ia⟩ := msb_cases hP a <;> obtain ⟨hb, lb, ib⟩ | ⟨hb, lb, ib⟩ := msb_cases hP b <;>
    obtain ⟨hr, lr, -⟩ | ⟨hr, lr, -⟩ := msb_cases hP r <;> simp [vAdd, cAdd, ha, hb, hr] <;> omega

/-- V and C of a subtraction with a borrow in: the exact difference does not fit, and it is negative (R450). The difference is what the
subtrahend and the borrow are added to, to give the minuend. -/
theorem subFlags_exact (a b : BitVec (n + 1)) (c : Bool) :
    (vSub a b (a - b - BitVec.ofNat (n + 1) c.toNat) = true ↔ ¬ fitsSigned (n + 1) (a.toInt - b.toInt - c.toNat)) ∧
    (cSub a b (a - b - BitVec.ofNat (n + 1) c.toNat) = true ↔ a.toNat < b.toNat + c.toNat) := by
  have restored : a - b - BitVec.ofNat (n + 1) c.toNat + b + BitVec.ofNat (n + 1) c.toNat = a := by ring
  have wraps := add_carry_wraps hP (a - b - BitVec.ofNat (n + 1) c.toNat) b c
  rw [restored] at wraps
  have hc := c.toNat_le
  generalize a - b - BitVec.ofNat (n + 1) c.toNat = r at wraps
  rw [fitsSigned_iff hP]
  obtain ⟨ha, la, ia⟩ | ⟨ha, la, ia⟩ := msb_cases hP a <;> obtain ⟨hb, lb, ib⟩ | ⟨hb, lb, ib⟩ := msb_cases hP b <;>
    obtain ⟨hr, lr, -⟩ | ⟨hr, lr, -⟩ := msb_cases hP r <;> simp [vSub, cSub, ha, hb, hr] <;> omega

/-- N: the upper half of the unsigned values is negative. -/
theorem msb_iff (r : BitVec (n + 1)) : r.msb = true ↔ P ≤ r.toNat := by
  simp [BitVec.msb_eq_decide, hP]

end

section
variable {s t : State} {i : Instr} {d : RegNo} {len : Word}

/-! ## The flags behind an instruction -/

theorem State.carry_eq (s : State) : s.carry = BitVec.ofNat 32 s.flagC.toNat := by
  unfold State.carry
  cases s.flagC <;> rfl

/-- The update `u`, with a sticky Z where the instruction takes C as an input (R450). -/
def stickyIf (s : State) (sticky : Bool) (u : FlagUpdate) : FlagUpdate := if sticky then stickyZ s.flagZ u else u

/-- What an update of SR leaves in each of V, N, Z and C. -/
theorem flags_applyFlags {sr : Word} {u : FlagUpdate} (h : t.sr = applyFlags sr u) :
    t.flagV = u.v.getD (sr.getLsbD 3) ∧ t.flagN = u.n.getD (sr.getLsbD 2) ∧ t.flagZ = u.z.getD (sr.getLsbD 1) ∧
    t.flagC = u.c.getD (sr.getLsbD 0) := by
  simp only [State.flagV, State.flagN, State.flagZ, State.flagC, State.srBit, h]
  exact ⟨getLsbD_applyFlags (by decide), getLsbD_applyFlags (by decide), getLsbD_applyFlags (by decide), getLsbD_applyFlags (by decide)⟩

/-- V, N, Z and C where an update gives all four. -/
theorem flags_of_sr {sticky v n z c : Bool} {sr : Word}
    (h : t.sr = applyFlags sr (stickyIf s sticky { v := some v, n := some n, z := some z, c := some c })) :
    Flags t (v = true) (n = true) (z = true ∧ (sticky = true → s.flagZ = true)) (c = true) := by
  obtain ⟨hv, hn, hz, hc⟩ := flags_applyFlags h
  rw [Flags, hv, hn, hz, hc]
  cases sticky <;> simp [stickyIf, stickyZ]

/-- The flags of an addition with the carry `c` (R450). -/
theorem flags_of_addFlags {a b : Word} {c sticky : Bool} {sr : Word}
    (h : t.sr = applyFlags sr (stickyIf s sticky (addFlags a b (a + b + BitVec.ofNat 32 c.toNat)))) :
    Flags t (¬ fitsSigned 32 (a.toInt + b.toInt + c.toNat)) (2 ^ 31 ≤ (a.toNat + b.toNat + c.toNat) % 2 ^ 32)
      ((a.toNat + b.toNat + c.toNat) % 2 ^ 32 = 0 ∧ (sticky = true → s.flagZ = true)) (2 ^ 32 ≤ a.toNat + b.toNat + c.toNat) := by
  obtain ⟨hv, hn, hz, hc⟩ := flags_of_sr h
  obtain ⟨overflow, carry⟩ := addFlags_exact (n := 31) rfl a b c
  have kept : (a + b + BitVec.ofNat 32 c.toNat).toNat = (a.toNat + b.toNat + c.toNat) % 2 ^ 32 := by simp
  refine ⟨hv.trans overflow, hn.trans ?_, hz.trans (and_congr_left' ?_), hc.trans carry⟩
  · rw [← kept]; exact msb_iff (n := 31) rfl _
  · rw [← kept, beq_iff_eq, ← BitVec.toNat_inj]; rfl

/-- The flags of a subtraction with the borrow `c` (R450). -/
theorem differenceFlags_of_subFlags {n : Nat} {a b : BitVec (n + 1)} {c sticky : Bool} {sr : Word}
    (h : t.sr = applyFlags sr (stickyIf s sticky (subFlags a b (a - b - BitVec.ofNat (n + 1) c.toNat)))) :
    DifferenceFlags s t a b c sticky := by
  obtain ⟨hv, hn, hz, hc⟩ := flags_of_sr h
  obtain ⟨overflow, borrow⟩ := subFlags_exact rfl a b c
  exact ⟨hv.trans overflow, hn.trans (msb_iff rfl _), hz.trans (and_congr_left' beq_iff_eq), hc.trans borrow⟩

/-! ## The ways an instruction ends -/

/-- R`d` has been written after the PC was advanced, so that R15 is a jump (10_state.md R111). -/
theorem writes_finishReg {v : Word} (u : FlagUpdate) (hlen : s.pc + len = s.after i) :
    Writes i s (((s.advance len).setReg d v).setFlags u) d v := by
  obtain ⟨t, run, writes, -⟩ := s.finishReg_noFlags i d v hlen
  cases run
  simpa [Writes] using writes

theorem sr_finishReg (v : Word) (u : FlagUpdate) : (((s.advance len).setReg d v).setFlags u).sr = applyFlags s.sr u := by simp

theorem adds_of_finishReg {a b : Word} {c sticky : Bool} {r : Word} (hr : r = a + b + BitVec.ofNat 32 c.toNat)
    (run : exec i s = s.finishReg len d r (stickyIf s sticky (addFlags a b r))) (hlen : s.pc + len = s.after i) : Adds i s d a b c sticky := by
  subst hr
  refine ⟨_, run, ?_, flags_of_addFlags (sr_finishReg _ _)⟩
  have value : a + b + BitVec.ofNat 32 c.toNat = BitVec.ofNat 32 (a.toNat + b.toNat + c.toNat) := by simp [BitVec.ofNat_add]
  exact value ▸ writes_finishReg _ hlen

theorem subtracts_of_finishReg {a b : Word} {c sticky : Bool} {r : Word} (hr : r = a - b - BitVec.ofNat 32 c.toNat)
    (run : exec i s = s.finishReg len d r (stickyIf s sticky (subFlags a b r))) (hlen : s.pc + len = s.after i) :
    Subtracts i s d a b c sticky := by
  subst hr
  exact ⟨_, run, writes_finishReg _ hlen, differenceFlags_of_subFlags (n := 31) (sr_finishReg _ _)⟩

theorem compares_of_finishFlags {n : Nat} {a b : BitVec (n + 1)} {c sticky : Bool} {r : BitVec (n + 1)}
    (hr : r = a - b - BitVec.ofNat (n + 1) c.toNat) (run : exec i s = s.finishFlags len (stickyIf s sticky (subFlags a b r)))
    (hlen : s.pc + len = s.after i) : Compares i s a b c sticky := by
  subst hr
  exact ⟨_, run, hlen, differenceFlags_of_subFlags (sr := s.sr) rfl⟩

end

/-! ## The instructions -/

/-- acr adds 0 and the carry (40_arithmetic.md R452). -/
theorem addFlags_zero (a r : Word) :
    addFlags a 0#32 r = { v := some (r.msb && !a.msb), n := some r.msb, z := some (r == 0), c := some (!r.msb && a.msb) } := by
  simp [addFlags, vAdd, cAdd, Bool.and_comm]

/-- scr subtracts 0 and the borrow (R467). -/
theorem subFlags_zero (a r : Word) :
    subFlags a 0#32 r = { v := some (a.msb && !r.msb), n := some r.msb, z := some (r == 0), c := some (!a.msb && r.msb) } := by
  simp [subFlags, vSub, cSub]

/-- neg subtracts from 0 (R463). -/
theorem subFlags_neg (a r : Word) :
    subFlags 0#32 a r = { v := some (a.msb && r.msb), n := some r.msb, z := some (r == 0), c := some (a.msb || r.msb) } := by
  simp only [subFlags, vSub, cSub]
  cases a.msb <;> cases r.msb <;> rfl

/-- Without a carry in. -/
theorem adds_of_addInto {s : State} {i : Instr} {d : RegNo} {len a b : Word} (run : exec i s = s.addInto len d a b)
    (hlen : s.pc + len = s.after i := by rfl) : Adds i s d a b false false :=
  adds_of_finishReg (BitVec.add_zero _).symm run hlen

theorem subtracts_of_subInto {s : State} {i : Instr} {d : RegNo} {len a b : Word} (run : exec i s = s.subInto len d a b)
    (hlen : s.pc + len = s.after i := by rfl) : Subtracts i s d a b false false :=
  subtracts_of_finishReg (BitVec.sub_zero _).symm run hlen

theorem compares_of_subFlags {n : Nat} {s : State} {i : Instr} {a b : BitVec (n + 1)} {len : Word}
    (run : exec i s = s.finishFlags len (subFlags a b (a - b))) (hlen : s.pc + len = s.after i := by rfl) : Compares i s a b false false :=
  compares_of_finishFlags (BitVec.sub_zero _).symm run hlen

theorem exec_acr (rd : RegNo) (s : State) : exec (.acr rd) s =
    s.finishReg 2#32 rd (s.getReg rd + s.carry) (stickyZ s.flagZ (addFlags (s.getReg rd) 0#32 (s.getReg rd + s.carry))) := by
  rw [addFlags_zero]; rfl

/-- Settles O18: each instruction is the addition of its operands, acr that of 0. -/
theorem additionExact : Obligations.AdditionExact := fun s =>
  ⟨fun _ _ => adds_of_addInto rfl, fun _ _ _ _ => adds_of_addInto rfl,
    fun _ _ _ => adds_of_finishReg (sticky := true) (by rw [s.carry_eq]) rfl rfl,
    fun rd => adds_of_finishReg (sticky := true) (by rw [s.carry_eq, BitVec.add_zero]) (exec_acr rd s) rfl⟩

theorem exec_scr (rd : RegNo) (s : State) : exec (.scr rd) s =
    s.finishReg 2#32 rd (s.getReg rd - s.carry) (stickyZ s.flagZ (subFlags (s.getReg rd) 0#32 (s.getReg rd - s.carry))) := by
  rw [subFlags_zero]; rfl

theorem exec_neg (rd : RegNo) (s : State) : exec (.neg rd) s = s.subInto 2#32 rd 0#32 (s.getReg rd) := by
  rw [State.subInto, subFlags_neg]; rfl

/-- The immediate of format III counts words for the stack pointer alone (R470). -/
theorem exec_sub_formIII {rd : RegNo} (h : rd ≠ 13#4) (imm : BitVec 8) (s : State) :
    exec (.sub (.formIII rd imm)) s = s.subInto 2#32 rd (s.getReg rd) (sext imm) :=
  congrArg (s.subInto 2#32 rd (s.getReg rd)) (if_neg h)

/-- Settles O19: each instruction is the subtraction of its operands, from 0 for neg, of 0 and the borrow for scr and cpc with one register. -/
theorem subtractionExact : Obligations.SubtractionExact := by
  intro s
  have borrow (a b : Word) : a - b - s.carry = a - b - BitVec.ofNat 32 s.flagC.toNat := by rw [s.carry_eq]
  refine ⟨?subI, ?subII, ?subIII, ?subSp, ?subIV, ?subV, ?subCond, ?rsubI, ?rsubII, ?neg, ?sbc, ?scr, ?cpB, ?cpH, ?cpWI, ?cpWII, ?cpWIII,
    ?cpcI, ?cpcII⟩
  case subI | subII | subSp | subIV | subV | rsubI | rsubII => intros; exact subtracts_of_subInto rfl
  case subIII => exact fun _ imm h => subtracts_of_subInto (exec_sub_formIII h imm s)
  case subCond => exact fun _ _ _ h => subtracts_of_finishReg (BitVec.sub_zero _).symm (if_pos h) rfl
  case neg => exact fun rd => subtracts_of_subInto (exec_neg rd s)
  case sbc => exact fun _ _ _ => subtracts_of_finishReg (sticky := true) (borrow _ _) rfl rfl
  case scr => exact fun rd => subtracts_of_finishReg (sticky := true) (by rw [s.carry_eq, BitVec.sub_zero]) (exec_scr rd s) rfl
  case cpB => exact fun _ _ => compares_of_subFlags (n := 7) rfl
  case cpH => exact fun _ _ => compares_of_subFlags (n := 15) rfl
  case cpWI | cpWII | cpWIII => intros; exact compares_of_subFlags (n := 31) rfl
  case cpcI | cpcII => intros; exact compares_of_finishFlags (n := 31) (sticky := true) (borrow _ _) rfl rfl

end Sys2Proof.Machine
end

section
/-! PROOFS. O20 and O21: the magnitudes, the conditional forms, the maximum and minimum, and the search for a zero byte
(40_arithmetic.md R451, R455, R456, R461, R462, R465, R471, R472). -/

namespace Sys2Proof.Machine

variable {s : State} {i : Instr} {d : RegNo} {len v : Word}

/-! ## Magnitudes -/

/-- The magnitude, which for the most negative number is that number as an unsigned one (R451). -/
theorem absWord_eq (v : Word) : absWord v = BitVec.ofNat 32 v.toInt.natAbs := by
  rw [absWord]
  obtain ⟨sign, -, range, value⟩ | ⟨sign, -, value⟩ := msb_cases (n := 31) rfl v
  · rw [if_pos sign]
    apply BitVec.eq_of_toNat_eq
    rw [BitVec.toNat_sub, BitVec.toNat_ofNat, BitVec.toNat_ofNat]
    omega
  · rw [if_neg (by simp [sign]), value, Int.natAbs_natCast, BitVec.ofNat_toNat, BitVec.setWidth_eq]

theorem absWord_eq_zero (v : Word) : absWord v = 0#32 ↔ v = 0#32 := by
  unfold absWord
  split <;> simp

/-- Where a register and Z alone are written. -/
theorem finishReg_zeroFlag (s : State) (i : Instr) (d : RegNo) (v : Word) (hlen : s.pc + len = s.after i) :
    Gives (s.finishReg len d v (zeroFlag v)) fun t => Writes i s t d v ∧ (t.flagZ = true ↔ v = 0#32) := by
  obtain ⟨-, -, hz, -⟩ := flags_applyFlags (sr_finishReg (s := s) (d := d) (len := len) v (zeroFlag v))
  refine ⟨_, rfl, writes_finishReg _ hlen, ?_⟩
  rw [hz]
  exact beq_iff_eq

theorem abs_gives (s : State) (rd : RegNo) : Gives (exec (.abs rd) s) fun t =>
    Writes (.abs rd) s t rd (BitVec.ofNat 32 (s.getReg rd).toInt.natAbs) ∧ (t.flagZ = true ↔ s.getReg rd = 0#32) := by
  rw [← absWord_eq, ← absWord_eq_zero]
  exact finishReg_zeroFlag s (.abs rd) rd _ rfl

theorem addabs_gives (s : State) (rd rx ry : RegNo) : Gives (exec (.addabs rd rx ry) s) fun t =>
    Writes (.addabs rd rx ry) s t rd (BitVec.ofNat 32 ((s.getReg rx).toNat + (s.getReg ry).toInt.natAbs)) ∧
    (t.flagZ = true ↔ ((s.getReg rx).toNat + (s.getReg ry).toInt.natAbs) % 2 ^ 32 = 0) := by
  have value : s.getReg rx + absWord (s.getReg ry) = BitVec.ofNat 32 ((s.getReg rx).toNat + (s.getReg ry).toInt.natAbs) := by
    rw [absWord_eq, BitVec.ofNat_add, BitVec.ofNat_toNat, BitVec.setWidth_eq]
  obtain ⟨t, run, writes, zero⟩ := finishReg_zeroFlag s (.addabs rd rx ry) rd (s.getReg rx + absWord (s.getReg ry)) (len := 4#32) rfl
  refine ⟨t, run, value ▸ writes, zero.trans ?_⟩
  rw [← BitVec.toNat_inj, value, BitVec.toNat_ofNat]
  rfl

/-! ## The conditional forms -/

/-- A condition that fails leaves the advance of the PC (30_encoding.md R370). -/
theorem conditionally_of_ifCond {c : Cond} {o : Out} {P : Prop} (run : exec i s = s.ifCond c (BitVec.ofNat 32 (instrLength i)) o)
    (holds : exec i s = o → P) : Conditionally (s.cond c) i s P := by
  rw [State.ifCond] at run
  unfold Conditionally
  split at run
  next h => rw [if_pos h]; exact holds run
  next h => rw [if_neg h]; exact run

/-- A form that writes a register where its condition holds. -/
theorem conditionally_sets {c : Cond} {u : FlagUpdate}
    (run : exec i s = s.ifCond c (BitVec.ofNat 32 (instrLength i)) (s.finishReg (BitVec.ofNat 32 (instrLength i)) d v u)) :
    Conditionally (s.cond c) i s (Sets i s d v) :=
  conditionally_of_ifCond run fun h => ⟨_, h, writes_finishReg u rfl⟩

/-- Settles O20: the magnitudes, and each conditional form by its check for the revision and for its condition. -/
theorem absoluteAndConditional : Obligations.AbsoluteAndConditional := fun s =>
  ⟨abs_gives s, addabs_gives s, fun _ _ _ _ rev => conditionally_sets (if_pos rev), fun _ _ _ rev => conditionally_sets (if_pos rev),
    fun _ _ _ _ rev => conditionally_sets (if_pos rev), fun _ _ _ _ => conditionally_sets rfl⟩

/-! ## Maximum and minimum -/

/-- What `max` and `min` share: they write the chosen register to R`d` and nothing else. -/
theorem gives_chosen {p q : Prop} [Decidable p] [Decidable q] {a b : Word} (same : p ↔ q)
    (run : exec i s = s.finishReg len d (if p then a else b) noFlags) (hlen : s.pc + len = s.after i := by rfl) :
    Gives (exec i s) fun t =>
      Writes i s t d (if q then a else b) ∧ SameRegs s t [d] ∧ SameSr s t [] ∧ SameMem s t ∧ SameSystem s t := by
  rw [run, if_congr same rfl rfl]
  exact s.finishReg_noFlags i d _ hlen

/-! ## The search for a zero byte -/

theorem bytePart_eq_zero (v : Word) (p : BitVec 2) : bytePart v p = 0 ↔ v.toNat / 2 ^ (8 * p.toNat) % 256 = 0 := by
  rw [← BitVec.toNat_inj, bytePart, BitVec.extractLsb'_toNat, Nat.shiftRight_eq_div_pow]
  rfl

/-- The four bytes of a word, by their numbers. -/
theorem bytePart_any_eq_zero (v : Word) :
    (bytePart v 3#2 == 0 || bytePart v 2#2 == 0 || bytePart v 1#2 == 0 || bytePart v 0#2 == 0) = true ↔
      ∃ k, k < 4 ∧ v.toNat / 2 ^ (8 * k) % 256 = 0 := by
  simp only [Bool.or_eq_true, beq_iff_eq, bytePart_eq_zero]
  constructor
  · rintro (((h | h) | h) | h)
    exacts [⟨3, by decide, h⟩, ⟨2, by decide, h⟩, ⟨1, by decide, h⟩, ⟨0, by decide, h⟩]
  · rintro ⟨k, hk, h⟩
    interval_cases k
    exacts [.inr h, .inl (.inr h), .inl (.inl (.inr h)), .inl (.inl (.inl h))]

theorem tnbz_gives (s : State) (rd : RegNo) : Gives (exec (.tnbz rd) s) fun t =>
    (t.flagZ = true ↔ ∃ k, k < 4 ∧ (s.getReg rd).toNat / 2 ^ (8 * k) % 256 = 0) ∧ t.pc = s.pc + 2#32 ∧
    SameRegs s t [] ∧ SameSr s t [1] ∧ SameMem s t ∧ SameSystem s t := by
  obtain ⟨t, run, only⟩ := arithmetic_completes (.tnbz rd) [] [1] rfl s rfl
  obtain rfl := Host.Outcome.next.inj run
  obtain ⟨-, -, zero, -⟩ := flags_applyFlags ((s.advance 2#32).setFlags_sr _)
  refine ⟨_, run, ?_, only.pc (by simp), only.regs, only.sr, only.mem, only.system⟩
  rw [← bytePart_any_eq_zero, zero]
  rfl

/-! ## The words -/

/-- A word of three parts, joined in either order. -/
theorem cat_append {a b c k m : Nat} (x : BitVec a) (y : BitVec b) (z : BitVec c) (hm : b + c = m) (hk : a + m = k) :
    cat k (x ++ y) z = cat k x (cat m y z) := by
  subst hm hk
  simp [cat, BitVec.append_assoc]

/-- The word of an instruction with three registers and the code `c`, as R461 and R462 print it. -/
theorem cat_three_registers (rx ry rd : RegNo) (c : BitVec 12) :
    cat 32 (0b111#3 ++ rx ++ 0b00000#5) (ry ++ c ++ rd) =
      (cat 32 0b111#3 <| cat 29 rx <| cat 25 0b00000#5 <| cat 20 ry <| cat 16 c <| rd) := by
  have low : ry ++ c ++ rd = cat 20 (ry ++ c) rd := (BitVec.setWidth_eq _).symm
  rw [low, cat_append ry c rd (m := 16) rfl rfl, cat_append _ _ _ (m := 25) rfl rfl, cat_append _ _ _ (m := 29) rfl rfl]

/-- Settles O21: the words are the codes of the instructions, max and min write the word they choose, and tnbz writes Z. -/
theorem maximumMinimumZeroByte : Obligations.MaximumMinimumZeroByte := by
  refine ⟨fun rd rx ry => ?_, fun rd rx ry => ?_, fun rd => ?_, fun s => ⟨fun rd rx ry => ?_, fun rd rx ry => ?_, tnbz_gives s⟩⟩
  · rw [cat_three_registers]; exact Laws.DecodeEncode.max rd rx ry rfl
  · rw [cat_three_registers]; exact Laws.DecodeEncode.min rd rx ry rfl
  · have code : 0b010111001110#12 ++ rd = cat 16 0b010111001110#12 rd := (BitVec.setWidth_eq _).symm
    rw [code]; exact Laws.DecodeEncode.tnbz rd rfl
  · exact gives_chosen BitVec.slt_iff_toInt_lt rfl
  · exact gives_chosen BitVec.slt_iff_toInt_lt rfl

end Sys2Proof.Machine
end

section
/-! PROOFS. O22 and O23: the values that the multiplications and divisions give to a register or to an even pair, as exact integers
(41_multiplication.md R500 to R508). -/

namespace Sys2Proof.Machine

variable {s : State} {i : Instr} {d : RegNo} {len : Word}

/-! ## The ways an instruction ends -/

theorem setsTo_of_finishReg {v : Word} {u : FlagUpdate} {P : Word → Prop} (value : P v) (run : exec i s = s.finishReg len d v u)
    (hlen : s.pc + len = s.after i := by rfl) : SetsTo i s d P :=
  ⟨v, value, _, run, writes_finishReg u hlen⟩

/-- The lower register of a pair is not R15 and not the upper one, so that writing it last leaves the write, or the jump, of the upper one
(00_scope.md R29, 10_state.md R111). -/
theorem writesPair_setPair (even : evenNo d = true) (v : BitVec 64) (hlen : s.pc + len = s.after i) :
    WritesPair i s ((s.advance len).setPair d (v.extractLsb' 32 32) (v.extractLsb' 0 32)) d v := by
  have notPc : d ≠ 15#4 := by rintro rfl; exact absurd even (by decide)
  have upper : d + 1#4 ≠ d := by simp
  obtain ⟨t, run, writes, -⟩ := s.finishReg_noFlags i (d + 1#4) (v.extractLsb' 32 32) hlen
  cases run
  rw [State.setPair, if_pos even]
  refine ⟨State.getReg_setReg_same _ _ notPc, ?_⟩
  rw [Writes, State.getReg_setReg_other _ _ upper, State.setReg_keeps_pc _ _ notPc]
  simpa [Writes] using writes

theorem setsPairTo_of_finishPair {v : BitVec 64} {P : BitVec 64 → Prop} (value : P v) (run : exec i s = s.finishPair len d v)
    (hlen : s.pc + len = s.after i := by rfl) : SetsPairTo i s d P :=
  fun even => ⟨v, value, _, run, writesPair_setPair even v hlen⟩

/-! ## Products -/

/-- A product of two signed words fits a signed doubleword. -/
theorem toInt_ofInt_mul (a b : Word) : (BitVec.ofInt 64 (a.toInt * b.toInt)).toInt = a.toInt * b.toInt := by
  have low := BitVec.le_toInt_mul_toInt (x := a) (y := b)
  have high := BitVec.toInt_mul_toInt_le (x := a) (y := b)
  exact BitVec.toInt_ofInt_eq_self (by decide) (by omega) (by omega)

/-- A product of two unsigned words fits an unsigned doubleword. -/
theorem toNat_ofNat_mul (a b : Word) : (BitVec.ofNat 64 (a.toNat * b.toNat)).toNat = a.toNat * b.toNat := by
  have fits : a.toNat * b.toNat < 2 ^ 32 * 2 ^ 32 := Nat.mul_lt_mul'' a.isLt b.isLt
  exact (BitVec.toNat_ofNat _ _).trans (Nat.mod_eq_of_lt fits)

/-- The low word of a product with a sign-extended factor. -/
theorem mul_sext {n : Nat} (a : Word) (imm : BitVec n) : a * sext imm = BitVec.ofInt 32 (a.toInt * imm.toInt) := by
  rw [BitVec.ofInt_mul, BitVec.ofInt_toInt]
  rfl

/-- Settles O22: each instruction writes its product, or the sum of its product and what the destination held. -/
theorem multiplicationExact : Obligations.MultiplicationExact := by
  intro s
  refine ⟨?mulI, ?mulII, ?mulIII, ?mac, ?mulsD, ?muluD, ?macsD, ?macuD⟩
  case mulI => exact fun _ _ => setsTo_of_finishReg (BitVec.toNat_mul _ _) rfl
  case mulII => exact fun _ _ _ => setsTo_of_finishReg (BitVec.toNat_mul _ _) rfl
  case mulIII => exact fun _ _ imm => setsTo_of_finishReg (mul_sext _ imm) rfl
  case mac => exact fun _ _ _ => setsTo_of_finishReg (by rw [BitVec.toNat_add, BitVec.toNat_mul, Nat.mod_add_mod]) rfl
  case mulsD => exact fun _ _ _ => setsPairTo_of_finishPair (toInt_ofInt_mul _ _) rfl
  case muluD => exact fun _ _ _ => setsPairTo_of_finishPair (toNat_ofNat_mul _ _) rfl
  case macsD => exact fun _ _ _ => setsPairTo_of_finishPair (by rw [BitVec.ofInt_add, BitVec.ofInt_toInt]) rfl
  case macuD => exact fun _ _ _ => setsPairTo_of_finishPair (by rw [BitVec.toNat_add, toNat_ofNat_mul]) rfl

/-! ## Quotients and remainders -/

/-- `q` and `r` divide `a` by `b` as signed words: the remainder is smaller in magnitude than the divisor and, unless 0, has the sign of the
dividend (R501). -/
def DividesSigned (a b q r : Word) : Prop :=
  a.toInt = q.toInt * b.toInt + r.toInt ∧ r.toInt.natAbs < b.toInt.natAbs ∧ (r.toInt ≠ 0 → (r.toInt < 0 ↔ a.toInt < 0))

/-- `q` and `r` divide `a` by `b` as unsigned words (R502). -/
def DividesUnsigned (a b q r : Word) : Prop := a.toNat = q.toNat * b.toNat + r.toNat ∧ r.toNat < b.toNat

/-- Every quotient but that of the most negative word by -1 fits a signed word (U42). -/
theorem toInt_ofInt_tdiv {a b : Word} (noOverflow : ¬ (a = 0x80000000#32 ∧ b = 0xFFFFFFFF#32)) :
    (BitVec.ofInt 32 (a.toInt.tdiv b.toInt)).toInt = a.toInt.tdiv b.toInt := by
  rw [BitVec.toInt_ofInt, ← BitVec.toInt_sdiv]
  exact BitVec.toInt_sdiv_of_ne_or_ne a b (not_and_or.mp noOverflow)

/-- Every remainder fits a signed word. -/
theorem toInt_ofInt_tmod (a b : Word) : (BitVec.ofInt 32 (a.toInt.tmod b.toInt)).toInt = a.toInt.tmod b.toInt := by
  rw [← BitVec.toInt_srem, BitVec.ofInt_toInt]

/-- A remainder of a truncating division that is not 0 has the sign of the dividend. -/
theorem tmod_neg_iff {a b : Int} (h : a.tmod b ≠ 0) : a.tmod b < 0 ↔ a < 0 := by
  have notDvd : ¬ b ∣ a := fun dvd => h (Int.tmod_eq_zero_of_dvd dvd)
  rw [← Int.sign_eq_neg_one_iff_neg, Int.sign_tmod, if_neg notDvd, Int.sign_eq_neg_one_iff_neg]

/-- The remainder of a truncating division is smaller in magnitude than the divisor. -/
theorem natAbs_tmod_lt (a : Int) {b : Int} (h : b ≠ 0) : (a.tmod b).natAbs < b.natAbs :=
  Int.natAbs_tmod a b ▸ Nat.mod_lt _ (Int.natAbs_pos.mpr h)

theorem dividesSigned_tdiv_tmod {a b : Word} (nonzero : b ≠ 0#32) (noOverflow : ¬ (a = 0x80000000#32 ∧ b = 0xFFFFFFFF#32)) :
    DividesSigned a b (BitVec.ofInt 32 (a.toInt.tdiv b.toInt)) (BitVec.ofInt 32 (a.toInt.tmod b.toInt)) := by
  rw [DividesSigned, toInt_ofInt_tdiv noOverflow, toInt_ofInt_tmod]
  exact ⟨(Int.tdiv_mul_add_tmod _ _).symm, natAbs_tmod_lt _ (BitVec.toInt_ne.mpr nonzero), tmod_neg_iff⟩

/-- Neither the quotient nor the remainder is greater than the dividend, so that both fit an unsigned word. -/
theorem dividesUnsigned_div_mod {a b : Word} (nonzero : b ≠ 0#32) :
    DividesUnsigned a b (BitVec.ofNat 32 (a.toNat / b.toNat)) (BitVec.ofNat 32 (a.toNat % b.toNat)) := by
  have quotient : a.toNat / b.toNat < 2 ^ 32 := (Nat.div_le_self _ _).trans_lt a.isLt
  have remainder : a.toNat % b.toNat < 2 ^ 32 := (Nat.mod_le _ _).trans_lt a.isLt
  rw [DividesUnsigned, BitVec.toNat_ofNat, BitVec.toNat_ofNat, Nat.mod_eq_of_lt quotient, Nat.mod_eq_of_lt remainder]
  exact ⟨(Nat.div_add_mod' _ _).symm, Nat.mod_lt _ (Nat.pos_of_ne_zero (BitVec.toNat_ne_iff_ne.mpr nonzero))⟩

/-! ## The divisions -/

/-- The quotient is the lower word of the pair, the remainder the upper one. -/
theorem setsPairTo_of_finishDivision {q r : Word} {P : Word → Word → Prop} (value : P q r) (run : exec i s = s.finishDivision d q r)
    (hlen : s.pc + 4#32 = s.after i := by rfl) : SetsPairTo i s d fun v => P (v.extractLsb' 0 32) (v.extractLsb' 32 32) := by
  refine setsPairTo_of_finishPair ?_ run hlen
  rwa [BitVec.extractLsb'_append_eq_right, BitVec.extractLsb'_append_eq_left]

/-- Where the quotient is defined (U41, U42). -/
theorem exec_divs (rd : RegNo) {rx ry : RegNo} (nonzero : s.getReg ry ≠ 0#32)
    (noOverflow : ¬ (s.getReg rx = 0x80000000#32 ∧ s.getReg ry = 0xFFFFFFFF#32)) :
    exec (.divs rd rx ry) s = s.finishDivision rd (BitVec.ofInt 32 ((s.getReg rx).toInt.tdiv (s.getReg ry).toInt))
      (BitVec.ofInt 32 ((s.getReg rx).toInt.tmod (s.getReg ry).toInt)) :=
  if_neg (by simpa [nonzero] using noOverflow)

/-- Settles O23: each division writes a quotient and a remainder that divide its operands. -/
theorem divisionExact : Obligations.DivisionExact := fun _ =>
  ⟨fun rd _ _ nonzero noOverflow => setsPairTo_of_finishDivision (dividesSigned_tdiv_tmod nonzero noOverflow) (exec_divs rd nonzero noOverflow),
    fun _ _ _ nonzero => setsPairTo_of_finishDivision (dividesUnsigned_div_mod nonzero) (if_neg nonzero)⟩

end Sys2Proof.Machine
end

section
/-! PROOFS. O17: what the DSP and the packed instructions leave, where their unit is there. Each ends with the write of a register and of flags,
or with the write of a pair. -/

namespace Sys2Proof.Machine

theorem dsp_completes (i : Instr) (ds : List RegNo) (bits : List Nat) (named : dspFrame i = some (ds, bits)) (s : State)
    (present : unitPresent i s.cfg = true) : CompletesWriting i s (exec i s) ds bits := by
  cases i with
  | addhhW | subhhW | machhW | mulhhW | mulnhhW | sataddH | sataddW | satsubH | satrnds | satrndu | sats | satu | mulsathhW | macsathhW =>
    cases named; exact .requireUnit present .finishReg
  | satsubW f => cases f <;> cases named <;> exact .requireUnit present .finishReg
  | machhD | macwhD | mulwhD | mulnwhD => cases named; exact .requireUnit present .finishPair
  | mulsathhH | mulsatrndhhH | mulsatrndwhW | mulsatwhW => cases named; exact .requireUnit present (.ite .finishReg .finishReg)
  | _ => cases named

theorem packed_completes (i : Instr) (ds : List RegNo) (bits : List Nat) (named : packedFrame i = some (ds, bits)) (s : State)
    (present : unitPresent i s.cfg = true) : CompletesWriting i s (exec i s) ds bits := by
  cases i with
  | pabsSb | pabsSh | punpckubH | punpcksbH | paddB | paddH | psubB | psubH | paddxH | psubxH | paddsubH | psubaddH | paddhUb | paddhSh
  | psubhUb | psubhSh | paddxhSh | psubxhSh | paddsubhSh | psubaddhSh | pavgUb | pavgSh | psad | pasrB | pasrH | plslB | plslH | plsrB
  | plsrH | packshUb | packshSb | packwSh | paddsUb | paddsSb | paddsUh | paddsSh | psubsUb | psubsSb | psubsUh | psubsSh | paddxsUh
  | paddxsSh | psubxsUh | psubxsSh | paddsubsUh | paddsubsSh | psubaddsUh | psubaddsSh | pmaxUb | pmaxSh | pminUb | pminSh =>
    cases named; exact .requireUnit present .finishReg
  | _ => cases named

/-- Settles O17: each instruction of the two lists by the way it ends. -/
theorem dspAndPackedFrame : Obligations.DspAndPackedFrame := ⟨keepsRest_of dsp_completes, keepsRest_of packed_completes⟩

end Sys2Proof.Machine
end

section
/-! PROOFS. O24: the sums and differences of selected halfwords, the exact products, and the 48-bit accumulator in the high bits of a pair
(42_dsp.md R540 (b), (d), (f), R541 to R548, R557). -/

namespace Sys2Proof.Machine

variable {s : State} {i : Instr} {d : RegNo}

/-! ## Exact products -/

/-- An integer that fits a signed word is the value of its word. -/
theorem toInt_ofInt_of_fits {n : Nat} {x : Int} (h : fitsSigned (n + 1) x) : (BitVec.ofInt (n + 1) x).toInt = x :=
  BitVec.toInt_ofInt_eq_self n.succ_pos h.1 h.2

/-- A product of two signed factors, read as fractions from -1 up to but not including 1, is (-1) × (-1), the one that does not fit, or is below 1
by a unit of the narrower factor at least (R540 (f)). -/
theorem fraction_mul_cases {a b A B : Int} (wide : B ≤ A) (ha : -A ≤ a ∧ a < A) (hb : -B ≤ b ∧ b < B) :
    (a = -A ∧ b = -B) ∨ (-(A * B) ≤ a * b ∧ a * b + B ≤ A * B) := by
  obtain ⟨ha, ha'⟩ := ha
  obtain ⟨hb, hb'⟩ := hb
  by_cases minus : a = -A ∧ b = -B
  · exact .inl minus
  · refine .inr ⟨by nlinarith, ?_⟩
    rcases not_and_or.mp minus with h | h
    · have : -(A - 1) ≤ a := by omega
      nlinarith
    · have : -(B - 1) ≤ b := by omega
      nlinarith

/-- The same of two words, with the test for the one product that does not fit: each factor is the most negative of its width. -/
theorem toInt_mul_cases {m n : Nat} (a lo : BitVec m) (b lo' : BitVec n) (hlo : lo.toInt = -2 ^ (m - 1)) (hlo' : lo'.toInt = -2 ^ (n - 1))
    (wide : (2 : Int) ^ (n - 1) ≤ 2 ^ (m - 1)) :
    ((a == lo && b == lo') = true ∧ a.toInt * b.toInt = 2 ^ (m - 1) * 2 ^ (n - 1)) ∨
    ((a == lo && b == lo') = false ∧ -(2 ^ (m - 1) * 2 ^ (n - 1)) ≤ a.toInt * b.toInt ∧
      a.toInt * b.toInt + 2 ^ (n - 1) ≤ 2 ^ (m - 1) * 2 ^ (n - 1)) := by
  have product := fraction_mul_cases wide ⟨a.le_toInt, a.toInt_lt⟩ ⟨b.le_toInt, b.toInt_lt⟩
  rw [← hlo, ← hlo', BitVec.toInt_inj, BitVec.toInt_inj] at product
  by_cases minus : a = lo ∧ b = lo'
  · exact .inl ⟨by simpa using minus, by rw [minus.1, minus.2, hlo, hlo', neg_mul_neg]⟩
  · exact .inr ⟨by simpa using minus, by simpa [hlo, hlo', minus] using product⟩

/-- The halfword that an instruction computes with is sign-extended (R540 (b)). -/
theorem half_eq_sext (v : Word) (x : BitVec 1) : half v x = sext (halfPart v x) := (apply_ite sext _ _ _).symm

theorem toInt_sext {n : Nat} (h : n ≤ 32) (v : BitVec n) : (sext v).toInt = v.toInt := BitVec.toInt_signExtend_of_le h

theorem toInt_half (v : Word) (x : BitVec 1) : (half v x).toInt = (halfPart v x).toInt :=
  half_eq_sext v x ▸ toInt_sext (by decide) _

theorem halfProduct_cases (a : Word) (x : BitVec 1) (b : Word) (y : BitVec 1) :
    (halvesSaturate a x b y = true ∧ halfProduct a x b y = 2 ^ 30) ∨
    (halvesSaturate a x b y = false ∧ -2 ^ 30 ≤ halfProduct a x b y ∧ halfProduct a x b y + 2 ^ 15 ≤ 2 ^ 30) := by
  rw [halfProduct, toInt_half, toInt_half]
  exact toInt_mul_cases (halfPart a x) 0x8000#16 (halfPart b y) 0x8000#16 rfl rfl le_rfl

theorem wordHalfProduct_cases (a b : Word) (y : BitVec 1) :
    (wordHalfSaturates a b y = true ∧ wordHalfProduct a b y = 2 ^ 46) ∨
    (wordHalfSaturates a b y = false ∧ -2 ^ 46 ≤ wordHalfProduct a b y ∧ wordHalfProduct a b y + 2 ^ 15 ≤ 2 ^ 46) := by
  rw [wordHalfProduct, toInt_half]
  exact toInt_mul_cases a 0x80000000#32 (halfPart b y) 0x8000#16 rfl rfl (by decide)

/-- A product of halfwords and its negation fit a word. -/
theorem halfProduct_fits (a : Word) (x : BitVec 1) (b : Word) (y : BitVec 1) :
    fitsSigned 32 (halfProduct a x b y) ∧ fitsSigned 32 (-halfProduct a x b y) := by
  have product := halfProduct_cases a x b y
  unfold fitsSigned
  omega

/-- A product of a word and a halfword and its negation fit the accumulator. -/
theorem wordHalfProduct_fits (a b : Word) (y : BitVec 1) :
    fitsSigned 48 (wordHalfProduct a b y) ∧ fitsSigned 48 (-wordHalfProduct a b y) := by
  have product := wordHalfProduct_cases a b y
  unfold fitsSigned
  omega

/-! ## The accumulator -/

/-- A result in the accumulator is the high 48 bits of the pair, above 16 zero bits (R540 (d)). -/
theorem setsPairTo_of_finishAcc48 {x : Int} (P : BitVec 48 → Prop) (value : P (BitVec.ofInt 48 x)) (run : exec i s = s.finishAcc48 d x)
    (hlen : s.pc + 4#32 = s.after i := by rfl) :
    SetsPairTo i s d fun v => v.extractLsb' 0 16 = 0#16 ∧ P (v.extractLsb' 16 48) :=
  setsPairTo_of_finishPair ⟨BitVec.extractLsb'_append_eq_right, BitVec.extractLsb'_append_eq_left.symm ▸ value⟩ run hlen

/-- Settles O24: where the DSP extension is there, each instruction ends with the sum, the difference or the product it is named after. -/
theorem dspProducts : Obligations.DspProducts := by
  intro s dsp
  refine ⟨?addhhW, ?subhhW, ?mulhhW, ?mulnhhW, ?machhW, ?machhD, ?macwhD, ?mulwhD, ?mulnwhD⟩
  case addhhW => exact fun _ _ _ _ _ => adds_of_addInto (if_pos dsp)
  case subhhW => exact fun _ _ _ _ _ => subtracts_of_subInto (if_pos dsp)
  case mulhhW => exact fun _ _ _ _ _ => setsTo_of_finishReg (toInt_ofInt_of_fits (halfProduct_fits _ _ _ _).1) (if_pos dsp)
  case mulnhhW => exact fun _ _ _ _ _ => setsTo_of_finishReg (toInt_ofInt_of_fits (halfProduct_fits _ _ _ _).2) (if_pos dsp)
  case machhW => exact fun _ _ _ _ _ => setsTo_of_finishReg (by rw [BitVec.ofInt_add, BitVec.ofInt_toInt]; rfl) (if_pos dsp)
  case machhD => exact fun _ _ _ _ _ => setsPairTo_of_finishAcc48 (· = _) rfl (if_pos dsp)
  case macwhD => exact fun _ _ _ _ => setsPairTo_of_finishAcc48 (· = _) rfl (if_pos dsp)
  case mulwhD => exact fun _ _ _ _ => setsPairTo_of_finishAcc48 (·.toInt = _) (toInt_ofInt_of_fits (wordHalfProduct_fits _ _ _).1) (if_pos dsp)
  case mulnwhD => exact fun _ _ _ _ => setsPairTo_of_finishAcc48 (·.toInt = _) (toInt_ofInt_of_fits (wordHalfProduct_fits _ _ _).2) (if_pos dsp)

end Sys2Proof.Machine
end

section
/-! PROOFS. O25: the saturating instructions of the DSP set on exact integers: when saturation changes a value, what each test for it says, and
the flags that record it (42_dsp.md R540 (c), (f), R549 to R556, R558 to R563). -/

namespace Sys2Proof.Machine

variable {s : State} {i : Instr} {d : RegNo}

/-! ## Saturation -/

/-- Saturation keeps the integers that fit, and only these. -/
theorem satS_eq_self_iff {n : Nat} {x : Int} : satS n x = x ↔ fitsSigned n x := by
  unfold satS fitsSigned
  split_ifs <;> omega

theorem satS_of_above {n : Nat} {x : Int} (h : 2 ^ (n - 1) ≤ x) : satS n x = 2 ^ (n - 1) - 1 := if_pos (by omega)

theorem satS_of_below {n : Nat} {x : Int} (h : x < -2 ^ (n - 1)) : satS n x = -2 ^ (n - 1) := by
  have pos : (0 : Int) < 2 ^ (n - 1) := by positivity
  rw [satS, if_neg (by omega), if_pos h]

/-- What is saturated to some width fits every signed word of that width or more. -/
theorem satS_fits {m n : Nat} (h : m ≤ n) (x : Int) : fitsSigned n (satS m x) := by
  have pos : (0 : Int) < 2 ^ (m - 1) := by positivity
  have mono : (2 : Int) ^ (m - 1) ≤ 2 ^ (n - 1) := pow_le_pow_right₀ (by decide) (by omega)
  unfold satS fitsSigned
  split_ifs <;> omega

/-- What is saturated to an unsigned width fits every wider signed word. -/
theorem satSU_fits {m n : Nat} (h : m < n) (x : Int) : fitsSigned n (satSU m x) := by
  have pos : (0 : Int) < 2 ^ m := by positivity
  have mono : (2 : Int) ^ m ≤ 2 ^ (n - 1) := pow_le_pow_right₀ (by decide) (by omega)
  unfold satSU fitsSigned
  split_ifs <;> omega

/-! ## The ways an instruction ends -/

/-- Q is set where `q` says so, and is never cleared (R540 (c)). -/
theorem flagQ_finishReg {len v : Word} {u : FlagUpdate} {q : Bool} {Q : Prop} (sat : q = true ↔ Q) (hu : u.q = stickyQ s.flagQ q) :
    (((s.advance len).setReg d v).setFlags u).flagQ = true ↔ s.flagQ = true ∨ Q := by
  rw [State.setFlags_flagQ, hu, ← sat]
  exact Bool.or_eq_true_iff

theorem gives_finishSat {v : Word} {q : Bool} {Q : Prop} (sat : q = true ↔ Q) (run : exec i s = s.finishSat d v q)
    (hlen : s.pc + 4#32 = s.after i := by rfl) :
    Gives (exec i s) fun t => Writes i s t d v ∧ (t.flagQ = true ↔ s.flagQ = true ∨ Q) :=
  ⟨_, run, writes_finishReg _ hlen, flagQ_finishReg sat rfl⟩

/-- `v` is the saturation of `x` to `n` bits, and `q` its record. -/
structure Saturates (n : Nat) (x : Int) (v : Word) (q : Bool) : Prop where
  value : v.toInt = satS n x
  record : q = true ↔ satS n x ≠ x

theorem saturatesTo_of_finishSat {n : Nat} {x : Int} {v : Word} {q : Bool} (sat : Saturates n x v q) (run : exec i s = s.finishSat d v q)
    (hlen : s.pc + 4#32 = s.after i := by rfl) : SaturatesTo i s d n x :=
  ⟨v, sat.value, gives_finishSat sat.record run hlen⟩

/-! ## Sums and differences -/

/-- `t` is `x` kept to the width of `a`, `ov` says that `x` does not fit, and `x` is so near to `a` that the sign of `a` tells on which side. -/
structure Wraps {n : Nat} (a t : BitVec (n + 1)) (ov : Bool) (x : Int) : Prop where
  kept : t = BitVec.ofInt (n + 1) x
  overflow : ov = true ↔ ¬ fitsSigned (n + 1) x
  near : -2 ^ n ≤ x - a.toInt ∧ x - a.toInt ≤ 2 ^ n

theorem wraps_add {n : Nat} (a b : BitVec (n + 1)) : Wraps a (a + b) (vAdd a b (a + b)) (a.toInt + b.toInt) where
  kept := by rw [BitVec.ofInt_add, BitVec.ofInt_toInt, BitVec.ofInt_toInt]
  overflow := vAdd_iff a b
  near := by
    have low : -2 ^ n ≤ b.toInt := b.le_toInt
    have high : b.toInt < 2 ^ n := b.toInt_lt
    omega

theorem wraps_sub {n : Nat} (a b : BitVec (n + 1)) : Wraps a (a - b) (vSub a b (a - b)) (a.toInt - b.toInt) where
  kept := by rw [Int.sub_eq_add_neg, BitVec.ofInt_add, BitVec.ofInt_neg, BitVec.ofInt_toInt, BitVec.ofInt_toInt, BitVec.sub_eq_add_neg]
  overflow := vSub_iff a b
  near := by
    have low : -2 ^ n ≤ b.toInt := b.le_toInt
    have high : b.toInt < 2 ^ n := b.toInt_lt
    omega

/-- The wrapped value, or the bound that the sign of the first operand selects. -/
theorem Wraps.toInt_clamped {n : Nat} {a t : BitVec (n + 1)} {ov : Bool} {x : Int} (h : Wraps a t ov x) {lo hi : BitVec (n + 1)}
    (hlo : lo.toInt = -2 ^ n) (hhi : hi.toInt = 2 ^ n - 1) : (if ov then (if a.msb then lo else hi) else t).toInt = satS (n + 1) x := by
  obtain ⟨kept, overflow, near⟩ := h
  cases ov with
  | false =>
    have fits : fitsSigned (n + 1) x := by simpa using overflow
    simp only [Bool.false_eq_true, if_false]
    rw [kept, toInt_ofInt_of_fits fits, satS_eq_self_iff.mpr fits]
  | true =>
    have outside : ¬ (-2 ^ n ≤ x ∧ x < 2 ^ n) := overflow.mp rfl
    simp only [if_true, BitVec.msb_eq_toInt, decide_eq_true_eq]
    split_ifs with negative
    · rw [hlo, satS_of_below (by rw [Nat.add_sub_cancel]; omega), Nat.add_sub_cancel]
    · rw [hhi, satS_of_above (by rw [Nat.add_sub_cancel]; omega), Nat.add_sub_cancel]

/-- V and Q record the saturation, N and Z are those of the result, and C is cleared (R549 to R552). -/
theorem saturatesWithFlags_of_finishReg {n : Nat} {r : BitVec (n + 1)} {v : Word} {ov : Bool} {x : Int} (value : v.toInt = r.toInt)
    (sat : r.toInt = satS (n + 1) x) (overflow : ov = true ↔ ¬ fitsSigned (n + 1) x)
    (run : exec i s = s.finishReg 4#32 d v { q := stickyQ s.flagQ ov, v := some ov, n := some r.msb, z := some (r == 0), c := some false })
    (hlen : s.pc + 4#32 = s.after i := by rfl) : SaturatesWithFlags i s d (n + 1) x := by
  have record : ov = true ↔ satS (n + 1) x ≠ x := overflow.trans (not_congr satS_eq_self_iff.symm)
  have zero : r = 0 ↔ satS (n + 1) x = 0 := by rw [← sat, ← BitVec.toInt_inj]; simp
  refine ⟨v, value.trans sat, _, run, writes_finishReg _ hlen, flagQ_finishReg record rfl, ?_⟩
  obtain ⟨hv, hn, hz, hc⟩ := flags_applyFlags (sr_finishReg (s := s) (d := d) (len := 4#32) v _)
  rw [Flags, hv, hn, hz, hc]
  exact ⟨record, by simp [BitVec.msb_eq_toInt, sat], beq_iff_eq.trans zero, by simp⟩

theorem saturatesWithFlags_of_finishSatWord {a t : Word} {ov : Bool} {x : Int} (wraps : Wraps a t ov x)
    (run : exec i s = s.finishSatWord d a t ov) (hlen : s.pc + 4#32 = s.after i := by rfl) : SaturatesWithFlags i s d 32 x :=
  saturatesWithFlags_of_finishReg (n := 31) rfl (wraps.toInt_clamped rfl rfl) wraps.overflow run hlen

theorem saturatesWithFlags_of_finishSatHalf {a t : Half} {ov : Bool} {x : Int} (wraps : Wraps a t ov x)
    (run : exec i s = s.finishSatHalf d a t ov) (hlen : s.pc + 4#32 = s.after i := by rfl) : SaturatesWithFlags i s d 16 x :=
  saturatesWithFlags_of_finishReg (n := 15) (toInt_sext (by decide) _) (wraps.toInt_clamped rfl rfl) wraps.overflow run hlen

/-! ## Products -/

/-- A test `p` that holds only where `x` is above the range, and then chooses the greatest value, saturates `x`. -/
theorem saturates_ite {n : Nat} {x : Int} {p : Bool} {hi v : Word} (test : p = true ∧ 2 ^ (n - 1) ≤ x ∨ p = false ∧ fitsSigned n x)
    (hhi : hi.toInt = 2 ^ (n - 1) - 1) (value : fitsSigned n x → v.toInt = x) : Saturates n x (if p then hi else v) p := by
  obtain ⟨rfl, above⟩ | ⟨rfl, fits⟩ := test
  · exact ⟨hhi.trans (satS_of_above above).symm, by simp only [satS_of_above above, true_iff]; omega⟩
  · exact ⟨(value fits).trans (satS_eq_self_iff.mpr fits).symm, by simp [satS_eq_self_iff.mpr fits]⟩

/-- The saturating products choose between two ends (R558, R560 to R562). -/
theorem saturatesTo_of_ite {n : Nat} {x : Int} {p : Bool} {hi v : Word} (test : p = true ∧ 2 ^ (n - 1) ≤ x ∨ p = false ∧ fitsSigned n x)
    (hhi : hi.toInt = 2 ^ (n - 1) - 1) (value : fitsSigned n x → v.toInt = x)
    (run : exec i s = if p then s.finishSat d hi true else s.finishSat d v false) (hlen : s.pc + 4#32 = s.after i := by rfl) :
    SaturatesTo i s d n x :=
  saturatesTo_of_finishSat (saturates_ite test hhi value) (run.trans (by cases p <;> rfl)) hlen

theorem toInt_sext_ofInt {x : Int} (h : fitsSigned 16 x) : (sext (BitVec.ofInt 16 x)).toInt = x :=
  (toInt_sext (by decide) _).trans (toInt_ofInt_of_fits h)

/-- The product of two halfwords as a fraction of 16 bits, cut off or rounded by adding `r`: (-1) × (-1) alone does not fit. -/
theorem halfFraction_cases {a b : Word} {x y : BitVec 1} {r q : Int} (hr : 0 ≤ r ∧ r < 2 ^ 15) (hq : q = (halfProduct a x b y + r) / 2 ^ 15) :
    halvesSaturate a x b y = true ∧ 2 ^ 15 ≤ q ∨ halvesSaturate a x b y = false ∧ fitsSigned 16 q :=
  (halfProduct_cases a x b y).imp (fun ⟨test, product⟩ => ⟨test, by omega⟩) fun ⟨test, product⟩ => ⟨test, by unfold fitsSigned; omega⟩

/-- The product of a word and a halfword as a fraction of 32 bits. -/
theorem wordHalfFraction_cases {a b : Word} {y : BitVec 1} {r q : Int} (hr : 0 ≤ r ∧ r < 2 ^ 15) (hq : q = (wordHalfProduct a b y + r) / 2 ^ 15) :
    wordHalfSaturates a b y = true ∧ 2 ^ 31 ≤ q ∨ wordHalfSaturates a b y = false ∧ fitsSigned 32 q :=
  (wordHalfProduct_cases a b y).imp (fun ⟨test, product⟩ => ⟨test, by omega⟩) fun ⟨test, product⟩ => ⟨test, by unfold fitsSigned; omega⟩

theorem satDoubleProduct_saturates (a : Word) (x : BitVec 1) (b : Word) (y : BitVec 1) :
    Saturates 32 (halfProduct a x b y * 2) (satDoubleProduct a x b y) (halvesSaturate a x b y) := by
  refine saturates_ite ?_ rfl toInt_ofInt_of_fits
  exact (halfProduct_cases a x b y).imp (fun ⟨test, product⟩ => ⟨test, by omega⟩) fun ⟨test, product⟩ => ⟨test, by unfold fitsSigned; omega⟩

theorem macsathhW_gives (dsp : s.cfg.hasDsp = true) (rd rx : RegNo) (xp : BitVec 1) (ry : RegNo) (yp : BitVec 1) :
    let p := (half (s.getReg rx) xp).toInt * (half (s.getReg ry) yp).toInt * 2
    ∃ v : Word, v.toInt = satS 32 (satS 32 p + (s.getReg rd).toInt) ∧
      Gives (exec (.macsathhW rd rx xp ry yp) s) fun t => Writes (.macsathhW rd rx xp ry yp) s t rd v ∧
        (t.flagQ = true ↔ s.flagQ = true ∨ satS 32 p ≠ p ∨ v.toInt ≠ satS 32 p + (s.getReg rd).toInt) := by
  intro p
  obtain ⟨value, record⟩ := satDoubleProduct_saturates (s.getReg rx) xp (s.getReg ry) yp
  have sum : (BitVec.ofInt 32 (satS 32 (satS 32 p + (s.getReg rd).toInt))).toInt = satS 32 (satS 32 p + (s.getReg rd).toInt) :=
    toInt_ofInt_of_fits (satS_fits le_rfl _)
  refine ⟨_, sum, ?_⟩
  rw [sum]
  refine gives_finishSat ?_ ((if_pos dsp).trans (by rw [value]; rfl))
  rw [Bool.or_eq_true, record, bne_iff_ne]
  rfl

/-! ## Shifts -/

/-- The shift right rounds down. -/
theorem toInt_sshiftRight_eq_div (v : Word) (n : Nat) : (v.sshiftRight n).toInt = v.toInt / 2 ^ n := by
  rw [BitVec.toInt_sshiftRight, Int.shiftRight_eq_div_pow, Nat.cast_pow]
  rfl

/-- The bit of place 0 is the integer's remainder by 2. -/
theorem toInt_emod_two (v : Word) : v.toInt % 2 = (v.getLsbD 0).toNat := by
  have parity : (v.getLsbD 0).toNat = v.toNat % 2 := by
    rw [BitVec.getLsbD, Nat.toNat_testBit, pow_zero, Nat.div_one]
  rw [parity, BitVec.toInt_eq_toNat_cond]
  split <;> omega

/-- Half of `u`, and 1 more where `u` is odd, is half of `u + 1`; it cannot overflow. -/
theorem toInt_sshiftRight_one_rounded (u : Word) : (if u.getLsbD 0 then u.sshiftRight 1 + 1#32 else u.sshiftRight 1).toInt = (u.toInt + 1) / 2 := by
  have parity := toInt_emod_two u
  have halved := toInt_sshiftRight_eq_div u 1
  have low := u.le_toInt
  have high := u.toInt_lt
  cases odd : u.getLsbD 0 <;> rw [odd] at parity
  · rw [if_neg Bool.false_ne_true, halved]
    simp only [Bool.toNat_false] at parity
    omega
  · rw [if_pos rfl, BitVec.toInt_add, halved, show (1#32).toInt = 1 from rfl, Int.bmod_def]
    simp only [Bool.toNat_true] at parity
    omega

/-- The last bit shifted out is the lowest one of what a shift by one place less leaves; added, it rounds to the nearest (R553). -/
theorem toInt_shiftRound (v : Word) (sa : BitVec 5) : (shiftRound true v sa).toInt = roundedShift v.toInt sa.toNat := by
  unfold shiftRound roundedShift
  cases amount : sa.toNat with
  | zero =>
    obtain rfl : sa = 0#5 := BitVec.eq_of_toNat_eq amount
    simp
  | succ k =>
    have nonzero : sa ≠ 0#5 := by rintro rfl; simp at amount
    have lastBit : v.getLsbD k = (v.sshiftRight k).getLsbD 0 := by
      rw [BitVec.getLsbD_sshiftRight, if_pos (by omega)]
      simp
    have round : (v.toInt + 2 ^ k) / 2 ^ (k + 1) = ((v.sshiftRight k).toInt + 1) / 2 := by
      rw [toInt_sshiftRight_eq_div, pow_succ, ← Int.ediv_ediv_of_nonneg (by positivity), Int.add_ediv_of_dvd_right dvd_rfl,
        Int.ediv_self (by positivity)]
    rw [if_neg k.succ_ne_zero, Nat.add_sub_cancel, round, lastBit, BitVec.sshiftRight_add, ← toInt_sshiftRight_one_rounded]
    simp [nonzero]

/-! ## Clamps -/

/-- `clampSigned` and `clampUnsigned` in one: the test and clamp for the width `bp` (R555, R556). -/
def clampBy (sat : Nat → Int → Int) (t : Word) (bp : BitVec 5) : Word × Bool :=
  if bp = 0#5 then (t, false) else (BitVec.ofInt 32 (sat bp.toNat t.toInt), sat bp.toNat t.toInt != t.toInt)

theorem clampSigned_eq : clampSigned = clampBy satS := rfl

theorem clampUnsigned_eq : clampUnsigned = clampBy satSU := rfl

theorem clampsTo_of_clampBy {sat : Nat → Int → Int} (fits : ∀ (bp : BitVec 5) (x : Int), fitsSigned 32 (sat bp.toNat x)) {bp : BitVec 5}
    {t : Word} {x : Int} (ht : t.toInt = x) (run : exec i s = s.finishSat d (clampBy sat t bp).1 (clampBy sat t bp).2)
    (hlen : s.pc + 4#32 = s.after i := by rfl) : ClampsTo i s d sat bp x := by
  subst ht
  by_cases zero : bp = 0#5
  · simp only [clampBy, ClampsTo, if_pos zero] at run ⊢
    exact ⟨t, rfl, gives_finishSat (by simp) run hlen⟩
  · simp only [clampBy, ClampsTo, if_neg zero] at run ⊢
    exact ⟨_, toInt_ofInt_of_fits (fits bp _), gives_finishSat bne_iff_ne run hlen⟩

theorem clampsTo_satS {bp : BitVec 5} {t : Word} {x : Int} (ht : t.toInt = x)
    (run : exec i s = s.finishSat d (clampSigned t bp).1 (clampSigned t bp).2) (hlen : s.pc + 4#32 = s.after i := by rfl) :
    ClampsTo i s d satS bp x :=
  clampsTo_of_clampBy (fun bp => satS_fits (by omega)) ht (clampSigned_eq ▸ run) hlen

theorem clampsTo_satSU {bp : BitVec 5} {t : Word} {x : Int} (ht : t.toInt = x)
    (run : exec i s = s.finishSat d (clampUnsigned t bp).1 (clampUnsigned t bp).2) (hlen : s.pc + 4#32 = s.after i := by rfl) :
    ClampsTo i s d satSU bp x :=
  clampsTo_of_clampBy (fun bp => satSU_fits bp.isLt) ht (clampUnsigned_eq ▸ run) hlen

/-- Settles O25: where the DSP extension is there, each instruction ends with the saturation of the exact integer it is named after. -/
theorem dspSaturation : Obligations.DspSaturation := by
  intro s dsp
  refine ⟨?sataddW, ?satsubWI, ?satsubWII, ?sataddH, ?satsubH, ?clamps, ?mulsathhH, ?mulsathhW, ?mulsatrndhhH, ?mulsatrndwhW, ?mulsatwhW,
    macsathhW_gives dsp⟩
  case sataddW => exact fun _ _ _ => saturatesWithFlags_of_finishSatWord (wraps_add _ _) (if_pos dsp)
  case satsubWI => exact fun _ _ _ => saturatesWithFlags_of_finishSatWord (wraps_sub _ _) (if_pos dsp)
  case satsubWII =>
    intro rd rs imm
    rw [← toInt_sext (by decide) imm]
    exact saturatesWithFlags_of_finishSatWord (wraps_sub _ _) (if_pos dsp)
  case sataddH => exact fun _ _ _ => saturatesWithFlags_of_finishSatHalf (wraps_add _ _) (if_pos dsp)
  case satsubH => exact fun _ _ _ => saturatesWithFlags_of_finishSatHalf (wraps_sub _ _) (if_pos dsp)
  case clamps =>
    intro rd sa bp
    have shifted := toInt_sshiftRight_eq_div (s.getReg rd) sa.toNat
    have rounded := toInt_shiftRound (s.getReg rd) sa
    exact ⟨clampsTo_satS shifted (if_pos dsp), clampsTo_satSU shifted (if_pos dsp), clampsTo_satS rounded (if_pos dsp),
      clampsTo_satSU rounded (if_pos dsp)⟩
  case mulsathhH =>
    exact fun _ _ _ _ _ => saturatesTo_of_ite (halfFraction_cases (r := 0) (by decide) (by rw [add_zero]; rfl)) rfl toInt_sext_ofInt (if_pos dsp)
  case mulsathhW => exact fun _ _ _ _ _ => saturatesTo_of_finishSat (satDoubleProduct_saturates _ _ _ _) (if_pos dsp)
  case mulsatrndhhH => exact fun _ _ _ _ _ => saturatesTo_of_ite (halfFraction_cases (by decide) rfl) rfl toInt_sext_ofInt (if_pos dsp)
  case mulsatrndwhW => exact fun _ _ _ _ => saturatesTo_of_ite (wordHalfFraction_cases (by decide) rfl) rfl toInt_ofInt_of_fits (if_pos dsp)
  case mulsatwhW =>
    exact fun _ _ _ _ => saturatesTo_of_ite (wordHalfFraction_cases (r := 0) (by decide) (by rw [add_zero]; rfl)) rfl toInt_ofInt_of_fits (if_pos dsp)

end Sys2Proof.Machine
end

section
/-! PROOFS. O26: the logic instructions bit by bit. Each ends with a word and flags read from it, so that the bits of the word say the flags too
(43_logic_bit.md R600 to R615). -/

namespace Sys2Proof.Machine

/-! ## Words by their bits -/

/-- Bit `k` of the word is `f k`. -/
def HasBits (v : Word) (f : Nat → Bool) : Prop := ∀ k, k < 32 → v.getLsbD k = f k

section
variable {v a b : Word} {f g : Nat → Bool}

theorem hasBits_getLsbD (v : Word) : HasBits v v.getLsbD := fun _ _ => rfl

namespace HasBits

theorem congr (h : HasBits v f) (same : ∀ k, k < 32 → f k = g k) : HasBits v g := fun k hk => (h k hk).trans (same k hk)

/-- N of the word. -/
theorem msb_iff (h : HasBits v f) : v.msb = true ↔ f 31 = true := by
  rw [BitVec.msb_eq_getLsbD_last, h 31 (by decide)]

/-- Z of the word. -/
theorem beq_zero_iff (h : HasBits v f) : (v == 0) = true ↔ ∀ k, k < 32 → f k = false := by
  rw [beq_iff_eq, BitVec.eq_of_getLsbD_eq_iff]
  refine forall₂_congr fun k hk => ?_
  rw [h k hk, BitVec.ofNat_eq_ofNat, BitVec.getLsbD_zero]

theorem and (ha : HasBits a f) (hb : HasBits b g) : HasBits (a &&& b) fun k => f k && g k := fun k hk => by
  rw [BitVec.getLsbD_and, ha k hk, hb k hk]

theorem or (ha : HasBits a f) (hb : HasBits b g) : HasBits (a ||| b) fun k => f k || g k := fun k hk => by
  rw [BitVec.getLsbD_or, ha k hk, hb k hk]

theorem xor (ha : HasBits a f) (hb : HasBits b g) : HasBits (a ^^^ b) fun k => Bool.xor (f k) (g k) := fun k hk => by
  rw [BitVec.getLsbD_xor, ha k hk, hb k hk]

theorem not (ha : HasBits a f) : HasBits (~~~a) fun k => !f k := fun k hk => by
  rw [BitVec.getLsbD_not, ha k hk, decide_eq_true hk, Bool.true_and]

theorem shiftLeft (ha : HasBits a f) (n : Nat) : HasBits (a <<< n) fun k => decide (n ≤ k) && f (k - n) := fun k hk => by
  simp only [BitVec.getLsbD_shiftLeft, hk, decide_true, Bool.true_and, ha (k - n) (by omega), ← decide_not, Nat.not_lt]

/-- A word is its two halfwords. -/
theorem append {hi lo : Half} (low : ∀ k, k < 16 → lo.getLsbD k = f k) (high : ∀ k, k < 16 → hi.getLsbD k = f (k + 16)) :
    HasBits (hi ++ lo) f := fun k hk => by
  rw [BitVec.getLsbD_append]
  split
  next h => exact low k h
  next h => rw [high _ (by omega), Nat.sub_add_cancel (by omega)]

end HasBits

theorem hasBits_ushiftRight (v : Word) (n : Nat) : HasBits (v >>> n) fun k => v.getLsbD (k + n) := fun k _ => by
  rw [BitVec.getLsbD_ushiftRight, Nat.add_comm]

end

theorem getLsbD_lo16 (v : Word) {k : Nat} (hk : k < 16) : (lo16 v).getLsbD k = v.getLsbD k := by
  simp [lo16, hk]

theorem getLsbD_hi16 (v : Word) {k : Nat} (hk : k < 16) : (hi16 v).getLsbD k = v.getLsbD (k + 16) := by
  simp [hi16, hk, Nat.add_comm]

section
variable {s : State} {i : Instr} {d : RegNo} {len v : Word} {f : Nat → Bool}

/-! ## The ways an instruction ends -/

theorem setsBits_of_finishReg {u : FlagUpdate} (bits : HasBits v f) (run : exec i s = s.finishReg len d v u)
    (hlen : s.pc + len = s.after i := by rfl) : SetsBits i s d f :=
  ⟨v, bits, _, run, writes_finishReg u hlen⟩

theorem setsZero_of_finishReg {z : Bool} (bits : HasBits v f) (zero : z = (v == 0)) (run : exec i s = s.finishReg len d v { z := some z })
    (hlen : s.pc + len = s.after i := by rfl) : SetsZero i s d f := by
  refine ⟨v, bits, _, run, writes_finishReg _ hlen, ?_⟩
  rw [State.setFlags_flagZ, zero]
  exact bits.beq_zero_iff

theorem setsLogic_of_logicInto (bits : HasBits v f) (run : exec i s = s.logicInto len d v) (hlen : s.pc + len = s.after i := by rfl) :
    SetsLogic i s d f := by
  refine ⟨v, bits, _, run, writes_finishReg _ hlen, ?_, ?_⟩
  · rw [State.setFlags_flagN]; exact bits.msb_iff
  · rw [State.setFlags_flagZ]; exact bits.beq_zero_iff

/-- A conditional form that writes a register and no flag where its condition holds. -/
theorem conditionally_setsBits {c : Cond} {u : FlagUpdate} (bits : HasBits v f)
    (run : exec i s = s.ifCond c (BitVec.ofNat 32 (instrLength i)) (s.finishReg (BitVec.ofNat 32 (instrLength i)) d v u)) :
    Conditionally (s.cond c) i s (SetsBits i s d f) :=
  conditionally_of_ifCond run (setsBits_of_finishReg bits)

end

/-! ## The instructions -/

/-- The three formats of an operation that works bit by bit (R600 (c)). -/
theorem logicForms_of_logicForm {s : State} {mk : LogicForm → Instr} {op : Word → Word → Word} {bitOp : Bool → Bool → Bool}
    (bitwise : ∀ {a b : Word} {f g : Nat → Bool}, HasBits a f → HasBits b g → HasBits (op a b) fun k => bitOp (f k) (g k))
    (run : ∀ form, exec (mk form) s = s.logicForm op form) (lenI : ∀ rd rs, s.pc + 2#32 = s.after (mk (.formI rd rs)) := by intros; rfl)
    (lenII : ∀ rd rx ry sa, s.pc + 4#32 = s.after (mk (.formII rd rx ry sa)) := by intros; rfl)
    (lenIII : ∀ rd rx ry sa, s.pc + 4#32 = s.after (mk (.formIII rd rx ry sa)) := by intros; rfl) : LogicForms s mk bitOp :=
  ⟨fun rd rs => setsLogic_of_logicInto (bitwise (hasBits_getLsbD _) (hasBits_getLsbD _)) (run _) (lenI rd rs),
    fun rd rx ry sa => setsLogic_of_logicInto (bitwise (hasBits_getLsbD _) ((hasBits_getLsbD _).shiftLeft _)) (run _) (lenII rd rx ry sa),
    fun rd rx ry sa => setsLogic_of_logicInto (bitwise (hasBits_getLsbD _) (hasBits_ushiftRight _ _)) (run _) (lenIII rd rx ry sa)⟩

/-- andh: the high halfword with the immediate; the low one is kept, or cleared with COH (R604). -/
theorem hasBits_andh (a : Word) (coh : BitVec 1) (imm : Half) : HasBits ((hi16 a &&& imm) ++ (if coh = 1#1 then 0#16 else lo16 a))
    fun k => if k < 16 then decide (coh = 0#1) && a.getLsbD k else a.getLsbD k && imm.getLsbD (k - 16) := by
  refine .append (fun k hk => ?_) fun k hk => ?_
  · obtain rfl | rfl := BitVec.eq_zero_or_eq_one coh <;> simp [if_pos hk, getLsbD_lo16 a hk]
  · simp [getLsbD_hi16 a hk]

/-- andl: the low halfword with the immediate; the high one is kept, or cleared with COH (R605). -/
theorem hasBits_andl (a : Word) (coh : BitVec 1) (imm : Half) : HasBits ((if coh = 1#1 then 0#16 else hi16 a) ++ (lo16 a &&& imm))
    fun k => if k < 16 then a.getLsbD k && imm.getLsbD k else decide (coh = 0#1) && a.getLsbD k := by
  refine .append (fun k hk => ?_) fun k hk => ?_
  · simp [if_pos hk, getLsbD_lo16 a hk]
  · obtain rfl | rfl := BitVec.eq_zero_or_eq_one coh <;> simp [getLsbD_hi16 a hk]

section
variable {op : Half → Half → Half} {bitOp : Bool → Bool → Bool}
  (bitwise : ∀ {a b : Half} {k : Nat}, (op a b).getLsbD k = bitOp (a.getLsbD k) (b.getLsbD k))
  (keeps : ∀ b, bitOp b false = b)
include bitwise keeps

/-- An operation with an immediate on the high halfword is one on the word, with zeros below the immediate (R609, R613). -/
theorem hasBits_high (a : Word) (imm : Half) :
    HasBits (op (hi16 a) imm ++ lo16 a) fun k => bitOp (a.getLsbD k) (decide (16 ≤ k) && imm.getLsbD (k - 16)) := by
  refine .append (fun k hk => ?_) fun k hk => ?_
  · simp [getLsbD_lo16 a hk, Nat.not_le.mpr hk, keeps]
  · simp [bitwise, getLsbD_hi16 a hk]

/-- On the low halfword, with zeros above the immediate (R610, R614). -/
theorem hasBits_low (a : Word) (imm : Half) :
    HasBits (hi16 a ++ op (lo16 a) imm) fun k => bitOp (a.getLsbD k) (imm.getLsbD k) := by
  refine .append (fun k hk => ?_) fun k hk => ?_
  · rw [bitwise, getLsbD_lo16 a hk]
  · simp [getLsbD_hi16 a hk, keeps]

end

theorem tst_gives (s : State) (rd rs : RegNo) : Gives (exec (.tst rd rs) s) fun t =>
    (t.flagN = true ↔ (s.getReg rd).getLsbD 31 = true ∧ (s.getReg rs).getLsbD 31 = true) ∧
    (t.flagZ = true ↔ ∀ k, k < 32 → ¬ ((s.getReg rd).getLsbD k = true ∧ (s.getReg rs).getLsbD k = true)) := by
  have bits := (hasBits_getLsbD (s.getReg rd)).and (hasBits_getLsbD (s.getReg rs))
  refine ⟨_, rfl, ?_, ?_⟩
  · rw [State.setFlags_flagN, ← Bool.and_eq_true]; exact bits.msb_iff
  · simp only [State.setFlags_flagZ, ← Bool.and_eq_true, Bool.not_eq_true]; exact bits.beq_zero_iff

/-- Settles O26: the bits of each result, with the flags of the way the instruction ends. -/
theorem logicBitwise : Obligations.LogicBitwise := by
  intro s
  refine ⟨logicForms_of_logicForm .and fun _ => rfl, logicForms_of_logicForm .xor fun _ => rfl, logicForms_of_logicForm .or fun _ => rfl,
    ?andCond, ?eorCond, ?orCond, ?andn, ?andh, ?andl, ?com, ?eorh, ?eorl, ?orh, ?orl, tst_gives s⟩
  case andCond => exact fun _ _ _ _ rev => conditionally_setsBits ((hasBits_getLsbD _).and (hasBits_getLsbD _)) (if_pos rev)
  case eorCond => exact fun _ _ _ _ rev => conditionally_setsBits ((hasBits_getLsbD _).xor (hasBits_getLsbD _)) (if_pos rev)
  case orCond => exact fun _ _ _ _ rev => conditionally_setsBits ((hasBits_getLsbD _).or (hasBits_getLsbD _)) (if_pos rev)
  case andn => exact fun _ _ => setsLogic_of_logicInto ((hasBits_getLsbD _).and (hasBits_getLsbD _).not) rfl
  case andh => exact fun _ coh imm => setsLogic_of_logicInto (hasBits_andh _ coh imm) rfl
  case andl => exact fun _ coh imm => setsLogic_of_logicInto (hasBits_andl _ coh imm) rfl
  case com => exact fun _ => setsZero_of_finishReg (hasBits_getLsbD _).not rfl rfl
  case eorh => exact fun _ imm => setsLogic_of_logicInto (hasBits_high BitVec.getLsbD_xor Bool.xor_false _ imm) rfl
  case eorl => exact fun _ imm => setsLogic_of_logicInto (hasBits_low BitVec.getLsbD_xor Bool.xor_false _ imm) rfl
  case orh => exact fun _ imm => setsLogic_of_logicInto (hasBits_high BitVec.getLsbD_or Bool.or_false _ imm) rfl
  case orl => exact fun _ imm => setsLogic_of_logicInto (hasBits_low BitVec.getLsbD_or Bool.or_false _ imm) rfl

end Sys2Proof.Machine
end

section
/-! PROOFS. O27: the bit field and single-bit instructions bit by bit, and the count of leading zeros (43_logic_bit.md R630 to R633, R635, R640 to
R642). -/

namespace Sys2Proof.Machine

/-! ## Fields -/

section
variable {s : State} {i : Instr} {d : RegNo} {len v : Word} {f : Nat → Bool}

theorem setsField_of_signFlags (bits : HasBits v f) (run : exec i s = s.finishReg len d v (signFlags v))
    (hlen : s.pc + len = s.after i := by rfl) : SetsField i s d f := by
  refine ⟨v, bits, _, run, writes_finishReg _ hlen, ?_, ?_, ?_⟩
  · rw [State.setFlags_flagN]; exact bits.msb_iff
  · rw [State.setFlags_flagZ]; exact bits.beq_zero_iff
  · rw [State.setFlags_flagC]; exact bits.msb_iff

theorem fieldOk_iff (bp wd : BitVec 5) : fieldOk bp wd = true ↔ 0 < wd.toNat ∧ bp.toNat + wd.toNat ≤ 32 := by
  rw [fieldOk, Bool.and_eq_true, bne_iff_ne, decide_eq_true_eq, ← BitVec.toNat_ne_iff_ne, Nat.pos_iff_ne_zero]
  rfl

/-- Where the field exists, its result is written with the flags of its sign. -/
theorem setsField_of_finishField {bp wd : BitVec 5} (field : fieldOk bp wd = true) (bits : HasBits v f)
    (run : exec i s = s.finishField d bp wd v) (hlen : s.pc + 4#32 = s.after i := by rfl) : SetsField i s d f :=
  setsField_of_signFlags bits (run.trans (if_pos field)) hlen

end

/-- The field from the bottom on, with zeros above it (R631). -/
theorem hasBits_extractField (v : Word) (bp wd : BitVec 5) :
    HasBits (extractField v bp wd) fun k => decide (k < wd.toNat) && v.getLsbD (bp.toNat + k) := fun k hk => by
  rw [extractField, BitVec.getLsbD_and, BitVec.getLsbD_ushiftRight, BitVec.getLsbD_ofNat, Nat.testBit_two_pow_sub_one, decide_eq_true hk,
    Bool.true_and, Bool.and_comm]

/-- A shift to the top and back repeats the highest bit that is left. -/
theorem hasBits_shiftLeft_sshiftRight (v : Word) {n : Nat} (hn : n < 32) :
    HasBits ((v <<< n).sshiftRight n) fun k => v.getLsbD (min k (31 - n)) := fun k hk => by
  rw [BitVec.getLsbD_sshiftRight, BitVec.msb_eq_getLsbD_last, BitVec.getLsbD_shiftLeft, BitVec.getLsbD_shiftLeft]
  by_cases inside : n + k < 32
  · simp [inside, hk, show min k (31 - n) = k by omega]
  · simp [inside, Nat.not_le.mpr hk, Nat.le_of_lt_succ hn, show min k (31 - n) = 31 - n by omega]

/-- The field with its sign above it (R630). -/
theorem hasBits_signedField {v : Word} {bp wd : BitVec 5} (pos : 0 < wd.toNat) :
    HasBits ((extractField v bp wd <<< (32 - wd.toNat)).sshiftRight (32 - wd.toNat)) fun k => v.getLsbD (bp.toNat + min k (wd.toNat - 1)) := by
  refine (hasBits_shiftLeft_sshiftRight _ (by omega)).congr fun k hk => ?_
  rw [show 31 - (32 - wd.toNat) = wd.toNat - 1 by omega, hasBits_extractField _ _ _ _ (by omega)]
  simp only [decide_eq_true (show min k (wd.toNat - 1) < wd.toNat by omega), Bool.true_and]

/-! ## Single bits -/

theorem hasBits_setBit (w : Word) (n : Nat) (b : Bool) : HasBits (setBit w n b) fun k => if k = n then b else w.getLsbD k :=
  fun _ hk => getLsbD_setBit hk

theorem hasBits_setBit_false (w : Word) (n : Nat) : HasBits (setBit w n false) fun k => decide (k ≠ n) && w.getLsbD k :=
  (hasBits_setBit w n false).congr fun k _ => by by_cases h : k = n <;> simp [h]

theorem hasBits_setBit_true (w : Word) (n : Nat) : HasBits (setBit w n true) fun k => decide (k = n) || w.getLsbD k :=
  (hasBits_setBit w n true).congr fun k _ => by by_cases h : k = n <;> simp [h]

/-- sbr clears Z: a word with a bit set is not zero (R642). -/
theorem setBit_true_beq_zero (w : Word) (bp : BitVec 5) : (setBit w bp.toNat true == 0) = false := by
  rw [← Bool.not_eq_true, (hasBits_setBit_true w bp.toNat).beq_zero_iff]
  intro zero
  simpa using zero bp.toNat bp.isLt

/-! ## Leading zeros -/

theorem leadingZeros_le (v : Word) (n : Nat) : leadingZeros v n ≤ n := by
  induction n with
  | zero => exact le_rfl
  | succ n ih => rw [leadingZeros]; split <;> omega

theorem getLsbD_leading (v : Word) {n k : Nat} (below : k < n) (leading : n - leadingZeros v n ≤ k) : v.getLsbD k = false := by
  induction n with
  | zero => exact absurd below k.not_lt_zero
  | succ n ih =>
    rw [leadingZeros] at leading
    split at leading
    next => omega
    next top =>
      obtain rfl | lower : k = n ∨ k < n := by omega
      · simpa using top
      · exact ih lower (by omega)

theorem getLsbD_after_leading (v : Word) {n : Nat} (h : leadingZeros v n < n) : v.getLsbD (n - 1 - leadingZeros v n) = true := by
  induction n with
  | zero => exact absurd h (Nat.not_lt_zero _)
  | succ n ih =>
    rw [leadingZeros] at h ⊢
    split at h
    next top => rw [if_pos top]; exact top
    next top =>
      rw [if_neg top, show n + 1 - 1 - (leadingZeros v n + 1) = n - 1 - leadingZeros v n by omega]
      exact ih (by omega)

theorem clz_gives (s : State) (rd rs : RegNo) : Gives (exec (.clz rd rs) s) fun t =>
    Writes (.clz rd rs) s t rd (BitVec.ofNat 32 (leadingZeros (s.getReg rs) 32)) ∧ (t.flagZ = true ↔ leadingZeros (s.getReg rs) 32 = 0) ∧
    (t.flagC = true ↔ leadingZeros (s.getReg rs) 32 = 32) := by
  refine ⟨_, rfl, writes_finishReg _ rfl, ?_, ?_⟩
  · rw [State.setFlags_flagZ]; exact beq_iff_eq
  · rw [State.setFlags_flagC]; exact beq_iff_eq

/-! ## The instructions -/

/-- C and Z both receive the bit (R633). -/
theorem bld_gives (s : State) (rd : RegNo) (bp : BitVec 5) : Gives (exec (.bld rd bp) s) fun t =>
    t.flagC = (s.getReg rd).getLsbD bp.toNat ∧ t.flagZ = (s.getReg rd).getLsbD bp.toNat :=
  ⟨_, rfl, State.setFlags_flagC _ _, State.setFlags_flagZ _ _⟩

/-- Settles O27: the bits of each field and of each word with one bit changed, and the position of the highest 1. -/
theorem fieldsAndBits : Obligations.FieldsAndBits := by
  intro s
  refine ⟨?fields, bld_gives s, ?bst, ?cbr, ?sbr, ?clz⟩
  case fields =>
    intro rd rs bp wd pos inside
    have field := (fieldOk_iff bp wd).mpr ⟨pos, inside⟩
    exact ⟨setsField_of_finishField field (hasBits_extractField _ bp wd) rfl, setsField_of_finishField field (hasBits_signedField pos) rfl,
      setsField_of_finishField field (fun _ hk => getLsbD_insertField hk) rfl⟩
  case bst => exact fun _ bp => setsBits_of_finishReg (hasBits_setBit _ bp.toNat s.flagC) rfl
  case cbr => exact fun _ bp => setsZero_of_finishReg (hasBits_setBit_false _ bp.toNat) rfl rfl
  case sbr => exact fun _ bp => setsZero_of_finishReg (hasBits_setBit_true _ bp.toNat) (setBit_true_beq_zero _ bp).symm rfl
  case clz =>
    exact fun rd rs => ⟨leadingZeros (s.getReg rs) 32, leadingZeros_le _ 32, fun _ => getLsbD_leading _, getLsbD_after_leading _,
      clz_gives s rd rs⟩

end Sys2Proof.Machine
end

section
/-! PROOFS. O28: brev, the swaps and the casts bit by bit (43_logic_bit.md R634, R636 to R639, R643 to R645). -/

namespace Sys2Proof.Machine

/-! ## Reorderings -/

theorem hasBits_reverse (v : Word) : HasBits v.reverse fun k => v.getLsbD (31 - k) := fun k hk => by
  rw [BitVec.getLsbD_reverse, BitVec.getMsbD_eq_getLsbD, decide_eq_true hk, Bool.true_and]

/-- The bytes in the opposite order (R643). -/
theorem hasBits_swapBytes (v : Word) : HasBits (swapBytes v) fun k => v.getLsbD (8 * (3 - k / 8) + k % 8) := fun k hk => by
  simp only [swapBytes, BitVec.getLsbD_append, BitVec.getLsbD_extractLsb']
  split_ifs
  all_goals
    rw [decide_eq_true (by omega), Bool.true_and]
    exact congrArg v.getLsbD (by omega)

theorem getLsbD_swapHalf (v : Half) {k : Nat} (hk : k < 16) : (swapHalf v).getLsbD k = v.getLsbD ((k + 8) % 16) := by
  rw [swapHalf, BitVec.getLsbD_append, BitVec.getLsbD_extractLsb', BitVec.getLsbD_extractLsb']
  split
  next low => rw [decide_eq_true low, Bool.true_and, show (k + 8) % 16 = 8 + k by omega]
  next high => rw [decide_eq_true (by omega), Bool.true_and, show (k + 8) % 16 = 0 + (k - 8) by omega]

/-- The bytes of each halfword swapped (R644). -/
theorem hasBits_swapBh (v : Word) :
    HasBits (swapHalf (hi16 v) ++ swapHalf (lo16 v)) fun k => v.getLsbD (16 * (k / 16) + (k % 16 + 8) % 16) := by
  refine .append (fun k hk => ?_) fun k hk => ?_
  · rw [getLsbD_swapHalf _ hk, getLsbD_lo16 _ (by omega), show 16 * (k / 16) + (k % 16 + 8) % 16 = (k + 8) % 16 by omega]
  · rw [getLsbD_swapHalf _ hk, getLsbD_hi16 _ (by omega),
      show 16 * ((k + 16) / 16) + ((k + 16) % 16 + 8) % 16 = (k + 8) % 16 + 16 by omega]

/-- The halfwords swapped (R645). -/
theorem hasBits_swapH (v : Word) : HasBits (lo16 v ++ hi16 v) fun k => v.getLsbD ((k + 16) % 32) := by
  refine .append (fun k hk => ?_) fun k hk => ?_
  · rw [getLsbD_hi16 _ hk, Nat.mod_eq_of_lt (by omega)]
  · rw [getLsbD_lo16 _ hk, show (k + 16 + 16) % 32 = k by omega]

/-! ## Casts -/

/-- The low `n + 1` bits with their sign above them (R636, R637). -/
theorem hasBits_sext_low (v : Word) (n : Nat) : HasBits (sext (v.extractLsb' 0 (n + 1))) fun k => v.getLsbD (min k n) :=
  fun k hk => by
  rw [sext, BitVec.getLsbD_signExtend, decide_eq_true hk, Bool.true_and, BitVec.msb_eq_getLsbD_last, BitVec.getLsbD_extractLsb',
    BitVec.getLsbD_extractLsb']
  split
  next low => simp [low, show min k n = k by omega]
  next high => simp [show min k n = n by omega]

/-- The low `n` bits with zeros above them (R638, R639). -/
theorem hasBits_zext_low (v : Word) (n : Nat) : HasBits (zext (v.extractLsb' 0 n)) fun k => decide (k < n) && v.getLsbD k := fun k hk => by
  rw [zext, BitVec.getLsbD_setWidth, BitVec.getLsbD_extractLsb', decide_eq_true hk, Bool.true_and, Nat.zero_add]

/-- Settles O28: the bits of each reordering and cast, with the flags of the way the instruction ends. -/
theorem reorderingsAndCasts : Obligations.ReorderingsAndCasts := fun s rd =>
  ⟨setsZero_of_finishReg (hasBits_reverse _) rfl rfl, setsBits_of_finishReg (hasBits_swapBytes _) rfl,
    setsBits_of_finishReg (hasBits_swapBh _) rfl, setsBits_of_finishReg (hasBits_swapH _) rfl,
    setsField_of_signFlags (hasBits_sext_low _ 7) rfl, setsField_of_signFlags (hasBits_sext_low _ 15) rfl,
    setsField_of_signFlags (hasBits_zext_low _ 8) rfl, setsField_of_signFlags (hasBits_zext_low _ 16) rfl⟩

end Sys2Proof.Machine
end

section
/-! PROOFS. O29: the shifts as products and quotients by powers of two, and the rotations of the 33 bits of C and a register, bit by bit
(44_shift.md R670 to R675). -/

namespace Sys2Proof.Machine

/-! ## Products and quotients -/

theorem toNat_shiftLeft_eq_mul (a : Word) (n : Nat) : (a <<< n).toNat = a.toNat * 2 ^ n % 2 ^ 32 := by
  rw [BitVec.toNat_shiftLeft, Nat.shiftLeft_eq]

theorem toNat_ushiftRight_eq_div (a : Word) (n : Nat) : (a >>> n).toNat = a.toNat / 2 ^ n := by
  rw [BitVec.toNat_ushiftRight, Nat.shiftRight_eq_div_pow]

/-! ## Rotations -/

theorem hasBits_carry (s : State) : HasBits s.carry fun k => decide (k = 0) && s.flagC := fun k _ => by
  rw [State.carry]
  cases s.flagC <;> simp [BitVec.getLsbD_one]

/-- rol: C enters at the bottom (R674). -/
theorem hasBits_rol (s : State) (a : Word) : HasBits (a <<< 1 ||| s.carry) fun k => if k = 0 then s.flagC else a.getLsbD (k - 1) := by
  refine (((hasBits_getLsbD a).shiftLeft 1).or (hasBits_carry s)).congr fun k _ => ?_
  by_cases bottom : k = 0
  · simp [bottom]
  · simp [bottom, Nat.one_le_iff_ne_zero]

/-- ror: C enters at the top (R675). -/
theorem hasBits_ror (s : State) (a : Word) :
    HasBits (a >>> 1 ||| s.carry <<< 31) fun k => if k = 31 then s.flagC else a.getLsbD (k + 1) := by
  refine ((hasBits_ushiftRight a 1).or ((hasBits_carry s).shiftLeft 31)).congr fun k hk => ?_
  by_cases top : k = 31
  · simp [top]
  · simp [top, show ¬ 31 ≤ k by omega]

section
variable {s : State} {i : Instr} {d : RegNo} {len v : Word}

/-! ## The ways an instruction ends -/

theorem gives_of_shiftFlags {n : Nat} {out : Bool} (run : exec i s = s.finishReg len d v (shiftFlags v n out))
    (hlen : s.pc + len = s.after i) : Gives (exec i s) fun t =>
      Writes i s t d v ∧ (t.flagN = true ↔ v.toInt < 0) ∧ (t.flagZ = true ↔ v = 0#32) ∧ (t.flagC = true ↔ n ≠ 0 ∧ out = true) := by
  refine ⟨_, run, writes_finishReg _ hlen, ?_, ?_, ?_⟩
  · rw [State.setFlags_flagN]; simp [shiftFlags, BitVec.msb_eq_toInt]
  · rw [State.setFlags_flagZ]; exact beq_iff_eq
  · rw [State.setFlags_flagC]; simp [shiftFlags]

/-- N and Z of the word, and C the bit that it has lost. -/
theorem rotates_of_finishReg {f : Nat → Bool} {out : Bool} (bits : HasBits v f)
    (run : exec i s = s.finishReg len d v { n := some v.msb, z := some (v == 0), c := some out }) (hlen : s.pc + len = s.after i) :
    SetsLogic i s d f ∧ Gives (exec i s) fun t => t.flagC = out := by
  refine ⟨⟨v, bits, _, run, writes_finishReg _ hlen, ?_, ?_⟩, _, run, State.setFlags_flagC _ _⟩
  · rw [State.setFlags_flagN]; exact bits.msb_iff
  · rw [State.setFlags_flagZ]; exact bits.beq_zero_iff

end

/-! ## The instructions -/

/-- The three formats of a shift; the first takes the low five bits of its register as the amount (R670 (a)). -/
theorem shiftForms_of_shiftForm {s : State} {mk : ShiftForm → Instr} {op : Word → Nat → Word} {f : Word → Nat → Word → Prop} {last : Nat → Nat}
    (result : ∀ a n, f a n (op a n)) (run : ∀ form, exec (mk form) s = s.shiftForm op (fun a n => a.getLsbD (last n)) form)
    (lenI : ∀ rd rx ry, s.pc + 4#32 = s.after (mk (.formI rd rx ry)) := by intros; rfl)
    (lenII : ∀ rd sa, s.pc + 2#32 = s.after (mk (.formII rd sa)) := by intros; rfl)
    (lenIII : ∀ rd rs sa, s.pc + 4#32 = s.after (mk (.formIII rd rs sa)) := by intros; rfl) : ShiftForms s mk f last := by
  refine ⟨fun rd rx ry => ?formI, fun rd sa => ?formII, fun rd rs sa => ?formIII⟩
  case formI =>
    have amount : ((s.getReg ry).setWidth 5).toNat = (s.getReg ry).toNat % 32 := BitVec.toNat_setWidth 5 _
    rw [← amount]
    exact ⟨_, result _ _, gives_of_shiftFlags (run _) (lenI rd rx ry)⟩
  case formII => exact ⟨_, result _ _, gives_of_shiftFlags (run _) (lenII rd sa)⟩
  case formIII => exact ⟨_, result _ _, gives_of_shiftFlags (run _) (lenIII rd rs sa)⟩

/-- Settles O29: each shift is its product or quotient, in one argument for the three formats; each rotation by its bits. -/
theorem shiftsExact : Obligations.ShiftsExact := by
  intro s
  refine ⟨?lsl, ?lsr, ?asr, ?rol, ?ror⟩
  case lsl => exact shiftForms_of_shiftForm toNat_shiftLeft_eq_mul fun _ => rfl
  case lsr => exact shiftForms_of_shiftForm toNat_ushiftRight_eq_div fun _ => rfl
  case asr => exact shiftForms_of_shiftForm toInt_sshiftRight_eq_div fun _ => rfl
  case rol =>
    intro rd
    rw [← BitVec.msb_eq_getLsbD_last]
    exact rotates_of_finishReg (hasBits_rol s _) rfl rfl
  case ror => exact fun rd => rotates_of_finishReg (hasBits_ror s _) rfl rfl

end Sys2Proof.Machine
end

section
/-! PROOFS. O33 and O34: where each branch, jump, call and return goes, and what it leaves (45_flow.md R700 to R705, R716). -/

namespace Sys2Proof.Machine

variable {s s1 t : State} {i : Instr} {len target after : Word} {ds : List RegNo} {bits : List Nat}

/-! ## Targets -/

/-- A displacement counts halfwords (R730 (b)). -/
theorem State.relative_eq {n : Nat} (s : State) (disp : BitVec n) : s.relative disp = s.pc + BitVec.ofInt 32 (2 * disp.toInt) := by
  have doubled : sext disp <<< 1 = 2#32 * sext disp := by rw [BitVec.shiftLeft_eq_mul_twoPow, BitVec.mul_comm]; rfl
  rw [State.relative, doubled, mul_sext]
  rfl

theorem and_clearBit0_of_even {a : Word} (even : a.getLsbD 0 = false) : a &&& 0xFFFFFFFE#32 = a := by
  refine BitVec.eq_of_getLsbD_eq fun k hk => ?_
  rw [BitVec.getLsbD_and, show 0xFFFFFFFE#32 = ~~~1#32 by rfl, BitVec.getLsbD_not, BitVec.getLsbD_one]
  by_cases bit0 : k = 0
  · rw [bit0, even, Bool.false_and]
  · simp [hk, bit0]

/-- From an even PC, an even advance is a jump: there is no bit 0 to discard (10_state.md R111, R112). -/
theorem State.advance_eq_jump (even : s.pc.getLsbD 0 = false) (hlen : len.getLsbD 0 = false := by decide) :
    s.advance len = s.jump (s.pc + len) := by
  have next : (s.pc + len).getLsbD 0 = false := by rw [BitVec.getLsbD_add (by decide), even, hlen, BitVec.carry_zero]; rfl
  rw [State.jump, and_clearBit0_of_even next, State.advance]

/-! ## Jumps -/

theorem WritesOnly.refl (s : State) (ds : List RegNo) : WritesOnly s s s.pc ds [] where
  phys _ := rfl
  regs _ _ _ _ := rfl
  sr _ _ _ := rfl
  mem _ := rfl
  system := by simp [SameSystem]
  pc _ := rfl

/-- A jump reaches the PC alone. -/
theorem WritesOnly.jump (h : WritesOnly s t after ds bits) (target : Word) :
    WritesOnly s (t.jump target) (target &&& 0xFFFFFFFE#32) ds bits where
  phys := h.phys
  regs p real notPc other := (t.readPhys_jump target p notPc).trans (h.regs p real notPc other)
  sr := h.sr
  mem := h.mem
  system := h.system
  pc _ := rfl

theorem State.getReg_jump (s : State) (target : Word) {d : RegNo} (h : d ≠ 15#4) : (s.jump target).getReg d = s.getReg d :=
  s.readPhys_jump target _ (State.phys_ne (j := 15#4) h)

theorem goesTo_jump (s : State) (target : Word) : GoesTo s (s.jump target) target :=
  have only := (WritesOnly.refl s []).jump target
  ⟨rfl, only.regs, only.sr, only.mem, only.system⟩

/-- A branch from an even PC is a jump, taken or not. -/
theorem goesTo_of_branch {taken : Bool} (even : s.pc.getLsbD 0 = false) (run : exec i s = s.branch taken len target)
    (hlen : len.getLsbD 0 = false := by decide) : Gives (exec i s) fun t => GoesTo s t (if taken then target else s.pc + len) := by
  refine ⟨_, run, ?_⟩
  split
  · exact goesTo_jump s target
  · rw [State.advance_eq_jump even hlen]
    exact goesTo_jump s _

/-- Settles O33: each branch and the jump by its target, the address after a branch being one too. -/
theorem branches : Obligations.Branches := by
  intro s even
  simp only [← State.relative_eq]
  exact ⟨fun _ _ => goesTo_of_branch even rfl, fun _ _ => goesTo_of_branch even rfl, fun _ => ⟨_, rfl, goesTo_jump s _⟩⟩

/-! ## Calls -/

/-- Behind a load that leaves `s1`, what is written is what the load changes. -/
theorem OnlyChecked.loadFrame (checked : OnlyChecked s s1) (only : WritesOnly s1 t after ds []) : LoadFrame s s1 t ds := by
  have h := checked.accessed
  refine ⟨checked, fun p real notPc other => ?_, fun n hn notIn => ?_, fun a => ?_, only.system⟩
  · exact (only.regs p real notPc fun d hd => h.phys d ▸ other d hd).trans (h.readPhys p)
  · exact (only.sr n hn notIn).trans (congrArg (·.getLsbD n) h.sr)
  · exact (only.mem a).trans (congrArg (Memory.read · a.toNat) checked.mem)

/-- LR and the PC are all that a call writes; R14 keeps the address after it (R113). -/
theorem called_callTo (checked : OnlyChecked s s1) (target : Word) (hlen : s.pc + len = s.after i) :
    Called i s s1 (s1.callTo len target) target := by
  refine ⟨rfl, ?_, checked.loadFrame (((WritesOnly.refl s1 [14#4]).setReg (List.mem_singleton_self _) _).jump target)⟩
  rw [State.callTo, State.getReg_jump _ _ (by decide), State.getReg_setReg_same _ _ (by decide), checked.accessed.pc, hlen]

theorem gives_called (run : exec i s = .next (s.callTo len target)) (hlen : s.pc + len = s.after i := by rfl) :
    Gives (exec i s) fun t => Called i s s t target :=
  ⟨_, run, called_callTo (.refl s) target hlen⟩

/-- A call to the word that its access reads (R731). -/
theorem gives_called_of_reads {kind : LsKind} {va : Word} {bs : List Byte} (reads : Reads s kind 4 va bs s1)
    (run : exec i s = ((loadWord kind va s).bind fun v u => .ok (u.callTo len v) u).finish) (hlen : s.pc + len = s.after i := by rfl) :
    Gives (exec i s) fun t => Called i s s1 t (wordOfBytes bs) := by
  rw [loadWord, load_reads id reads] at run
  exact ⟨_, run, called_callTo reads.checked _ hlen⟩

/-! ## Returns -/

theorem flags_of_testFlags {v sr : Word} (h : t.sr = applyFlags sr (testFlags v)) : Flags t False (v.toInt < 0) (v = 0#32) False := by
  obtain ⟨hv, hn, hz, hc⟩ := flags_applyFlags h
  rw [Flags, hv, hn, hz, hc]
  simp [testFlags, BitVec.msb_eq_toInt]

/-- A return: R12 and the flags are written, and then the PC, from the LR that the instruction found (R716). -/
theorem retCond_gives (c : Cond) (rs : RegNo) (s : State) :
    Conditionally (s.cond c) (.retCond c rs) s (Gives (exec (.retCond c rs) s) fun t =>
      t.pc = s.getReg 14#4 &&& 0xFFFFFFFE#32 ∧ t.getReg 12#4 = s.returnValue rs ∧
      Flags t False ((s.returnValue rs).toInt < 0) (s.returnValue rs = 0#32) False ∧
      SameRegs s t [12#4] ∧ SameSr s t [3, 2, 1, 0] ∧ SameMem s t ∧ SameSystem s t) := by
  refine conditionally_of_ifCond rfl fun run => ⟨_, run, rfl, ?value, flags_of_testFlags (sr := s.sr) ?flags, ?frame⟩
  case value => rw [State.getReg_jump _ _ (by decide), State.getReg_setFlags, State.getReg_setReg_same _ _ (by decide)]
  case flags => simp
  case frame =>
    have only := (((WritesOnly.refl s [12#4]).setReg (List.mem_singleton_self _) (s.returnValue rs)).setFlags
      (testFlags (s.returnValue rs))).jump (s.getReg 14#4)
    exact ⟨only.regs, only.sr, only.mem, only.system⟩

/-- Settles O34: each call by its target, read from memory or not, and the return. -/
theorem callsAndReturns : Obligations.CallsAndReturns := by
  intro s
  simp only [← State.relative_eq]
  exact ⟨fun _ => gives_called rfl, fun _ => gives_called rfl, fun _ => gives_called rfl, fun _ _ _ reads => gives_called_of_reads reads rfl,
    fun _ _ _ _ reads => gives_called_of_reads reads rfl, fun c rs => retCond_gives c rs s⟩

end Sys2Proof.Machine
end

section
/-! PROOFS. O31: mov, its conditional forms and movh (46_data_transfer.md R741 to R743). -/

namespace Sys2Proof.Machine

/-- An unsigned immediate in the high halfword (R743). -/
theorem toNat_zext_shiftLeft_16 (imm : BitVec 16) : (zext imm <<< 16).toNat = imm.toNat * 2 ^ 16 := by
  have fits := imm.isLt
  rw [toNat_shiftLeft_eq_mul, zext, BitVec.toNat_setWidth]
  omega

/-- Settles O31: each form by the register write that it ends with, and where it has a condition by that. -/
theorem moves : Obligations.Moves := by
  intro s
  refine ⟨?immediate8, ?immediate21, ?register, ?registerCond, ?immediateCond, ?high⟩
  case immediate8 => exact fun _ imm => setsTo_of_finishReg (toInt_sext (by decide) imm) rfl
  case immediate21 => exact fun _ imm => setsTo_of_finishReg (toInt_sext (by decide) imm) rfl
  case register => exact fun _ _ => ⟨_, rfl, writes_finishReg _ rfl⟩
  case registerCond => exact fun _ _ _ => conditionally_sets rfl
  case immediateCond => exact fun _ _ imm => conditionally_of_ifCond rfl (setsTo_of_finishReg (toInt_sext (by decide) imm))
  case high => exact fun _ imm rev => setsTo_of_finishReg (toNat_zext_shiftLeft_16 imm) (if_pos rev)

end Sys2Proof.Machine
end

section
/-! PROOFS. O35: the loads of a byte, a halfword or a word. Each ends with the write of what it makes of the word that its access reads; the number
of bytes read says why this is the value that its rule names (46_data_transfer.md R750 to R767). -/

namespace Sys2Proof.Machine

/-! ## How many bytes an access reads -/

theorem length_readBytes (m : List Host.Cell) (pa : Word) (n : Nat) : (readBytes m pa n).length = n := by
  induction n generalizing pa with
  | zero => rfl
  | succ n ih => rw [readBytes, List.length_cons, ih]

theorem length_readTransfers (m : List Host.Cell) (ps : List (Word × Nat)) : (readTransfers m ps).length = (ps.map Prod.snd).sum := by
  induction ps with
  | nil => rfl
  | cons p ps ih => rw [readTransfers, List.length_append, length_readBytes, ih, List.map_cons, List.sum_cons]

/-- An access is split into transfers of its size in all (20_memory.md R205, R208). -/
theorem sizes_transfers {cfg : Params} {kind : LsKind} {n : Nat} {va : Word} {ts : List (Word × Nat)} (h : transfers cfg kind n va = some ts) :
    (ts.map Prod.snd).sum = n := by
  unfold transfers at h
  split_ifs at h with _ double
  · cases h; exact double.symm
  · cases h; simp
  · cases h; simp [Function.comp_def]

theorem sizes_translateAll {k : Access} {priv : Bool} {ts ps : List (Word × Nat)} {s s1 : State} (h : translateAll k priv ts s = .ok ps s1) :
    ps.map Prod.snd = ts.map Prod.snd := by
  induction ts generalizing s ps with
  | nil => cases h; rfl
  | cons p ts ih =>
    rw [translateAll] at h
    cases first : translate k priv p.1 s with
    | raise e s2 => rw [first] at h; cases h
    | ok r s2 =>
      rw [first, Res.bind] at h
      cases others : translateAll k priv ts s2 with
      | raise e s3 => rw [others] at h; cases h
      | ok qs s3 => rw [others] at h; cases h; rw [List.map_cons, List.map_cons, ih others]

theorem sizes_checkAccess {k : Access} {priv : Bool} {kind : LsKind} {n : Nat} {va : Word} {s s1 : State} {ps : List (Word × Nat)}
    (h : checkAccess k priv kind n va s = .ok ps s1) : (ps.map Prod.snd).sum = n := by
  unfold checkAccess at h
  split at h
  next => cases h
  next ts split =>
    cases all : translateAll k priv ts s with
    | raise e s2 => rw [all] at h; cases h
    | ok qs s2 => rw [all] at h; cases h; rw [sizes_translateAll all, sizes_transfers split]

theorem Reads.length {s s1 : State} {kind : LsKind} {n : Nat} {va : Word} {bs : List Byte} (h : Reads s kind n va bs s1) : bs.length = n := by
  obtain ⟨ps, checks, -, rfl, -⟩ := h
  rw [length_readTransfers, sizes_checkAccess checks]

/-! ## What a load makes of its bytes -/

/-- The last byte is the lowest (20_memory.md R210). -/
theorem getLsbD_wordOfBytes (bs : List Byte) {k : Nat} (hk : k < 32) :
    (wordOfBytes bs).getLsbD k = (bs.reverse[k / 8]?.getD 0#8).getLsbD (k % 8) := by
  induction bs using List.reverseRecOn generalizing k with
  | nil => simp [wordOfBytes]
  | append_singleton bs b ih =>
    have last : wordOfBytes (bs ++ [b]) = (wordOfBytes bs <<< 8) ||| b.setWidth 32 := List.foldl_concat ..
    rw [last, List.reverse_concat, BitVec.getLsbD_or, BitVec.getLsbD_shiftLeft, BitVec.getLsbD_setWidth]
    by_cases low : k < 8
    · simp [low, hk, Nat.div_eq_of_lt low, Nat.mod_eq_of_lt low]
    · obtain ⟨j, rfl⟩ := Nat.exists_eq_add_of_le' (Nat.le_of_not_lt low)
      simp [hk, ih (show j < 32 by omega)]

/-- Zero extension changes nothing: there is nothing above the bytes read. -/
theorem zext_wordOfBytes {w : Nat} {bs : List Byte} (h : 8 * bs.length ≤ w) : zext ((wordOfBytes bs).setWidth w) = wordOfBytes bs := by
  refine BitVec.eq_of_getLsbD_eq fun k hk => ?_
  rw [zext, BitVec.getLsbD_setWidth, BitVec.getLsbD_setWidth, getLsbD_wordOfBytes bs hk]
  by_cases inside : k < w
  · simp [hk, inside]
  · rw [List.getElem?_eq_none (by rw [List.length_reverse]; omega)]
    simp

/-- Swapping the bytes of a word reads them in the opposite order (R765). -/
theorem swapBytes_wordOfBytes {bs : List Byte} (h : bs.length = 4) : swapBytes (wordOfBytes bs) = wordOfBytes bs.reverse := by
  refine BitVec.eq_of_getLsbD_eq fun k hk => ?_
  calc (swapBytes (wordOfBytes bs)).getLsbD k
    _ = (wordOfBytes bs).getLsbD (8 * (3 - k / 8) + k % 8) := hasBits_swapBytes _ k hk
    _ = (wordOfBytes bs.reverse).getLsbD k := by
      rw [getLsbD_wordOfBytes bs (by omega), getLsbD_wordOfBytes bs.reverse hk, List.reverse_reverse, List.getElem?_reverse (by omega), h,
        show 4 - 1 - (8 * (3 - k / 8) + k % 8) / 8 = k / 8 by omega, show (8 * (3 - k / 8) + k % 8) % 8 = k % 8 by omega]

/-- The same for a halfword (R763, R764). -/
theorem swapHalf_wordOfBytes {bs : List Byte} (h : bs.length = 2) :
    swapHalf ((wordOfBytes bs).setWidth 16) = (wordOfBytes bs.reverse).setWidth 16 := by
  refine BitVec.eq_of_getLsbD_eq fun k hk => ?_
  have low {j : Nat} (hj : j < 16) (v : Word) : (v.setWidth 16).getLsbD j = v.getLsbD j := by simp [hj]
  rw [getLsbD_swapHalf _ hk, low (by omega), low hk, getLsbD_wordOfBytes bs (by omega), getLsbD_wordOfBytes bs.reverse (by omega),
    List.reverse_reverse, List.getElem?_reverse (by omega), h, show 2 - 1 - (k + 8) % 16 / 8 = k / 8 by omega,
    show (k + 8) % 16 % 8 = k % 8 by omega]

theorem zextByte_wordOfBytes {bs : List Byte} (h : bs.length = 1) : zextByte (wordOfBytes bs) = wordOfBytes bs :=
  zext_wordOfBytes (by rw [h])

theorem zextHalf_wordOfBytes {bs : List Byte} (h : bs.length = 2) : zextHalf (wordOfBytes bs) = wordOfBytes bs :=
  zext_wordOfBytes (by rw [h])

/-! ## The ways a load ends -/

section
variable {s u : State} {i : Instr} {d : RegNo} {len va : Word} {kind : LsKind} {n : Nat} {conv : Word → Word} {value : List Byte → Word}

/-- Behind an access, the address after the instruction is the one that it began with. -/
theorem Accessed.pc_advance (h : Accessed s u) (hlen : s.pc + len = s.after i) : (u.advance len).pc = s.after i := by
  rw [State.advance_pc, h.pc, hlen]

theorem Accessed.advance (h : Accessed s u) (hlen : s.pc + len = s.after i) (ds : List RegNo) :
    WritesOnly u (u.advance len) (s.after i) ds [] :=
  h.pc_advance hlen ▸ WritesOnly.advance u len ds []

/-- A register written at the address after the instruction: R15 is a jump (10_state.md R111). -/
theorem writes_setReg (pc : u.pc = s.after i) (d : RegNo) (v : Word) : Writes i s (u.setReg d v) d v := by
  by_cases h15 : d = 15#4
  · subst h15; rw [Writes, if_pos rfl]; rfl
  · rw [Writes, if_neg h15, State.getReg_setReg_same _ _ h15, State.setReg_keeps_pc _ _ h15]
    exact ⟨rfl, pc⟩

/-- A load that ends with the write of its register. -/
theorem loads_of_finishLoad (run : exec i s = s.finishLoad len d (load kind n conv va s))
    (made : ∀ bs, bs.length = n → conv (wordOfBytes bs) = value bs := by intros; rfl) (hlen : s.pc + len = s.after i := by rfl) :
    Loads i s kind n va d value := by
  intro bs s1 reads
  rw [load_reads conv reads, made bs reads.length] at run
  have access := reads.checked.accessed
  exact ⟨_, run, writes_setReg (access.pc_advance hlen) d _,
    reads.checked.loadFrame ((access.advance hlen [d]).setReg (List.mem_singleton_self d) _)⟩

/-- A conditional load of revision 2. -/
theorem conditionally_loads {c : Cond} {rp : RegNo} {disp : BitVec 9} (k : Nat) (rev : hasRev s.cfg 2 = true)
    (run : exec i s = s.loadCond kind k conv c d rp disp) (made : ∀ bs, bs.length = 2 ^ k → conv (wordOfBytes bs) = value bs := by intros; rfl)
    (four : instrLength i = 4 := by rfl) : Conditionally (s.cond c) i s (Loads i s kind (2 ^ k) (s.dispZ rp disp k) d value) := by
  have len : 4#32 = BitVec.ofNat 32 (instrLength i) := by rw [four]
  exact conditionally_of_ifCond (len ▸ run.trans (if_pos rev)) fun holds => loads_of_finishLoad holds made

end

/-! ## The instructions -/

/-- Formats III, IV and V of ld.ub, ld.uh and ld.sh. -/
theorem loadForms_load {s : State} {mk : LoadForm → Instr} {kind : LsKind} {k : Nat} {conv : Word → Word} {value : List Byte → Word}
    (run : ∀ form, exec (mk form) s = s.loadForm kind k conv form) (made : ∀ bs, bs.length = 2 ^ k → conv (wordOfBytes bs) = value bs)
    (lenIII : ∀ rd rp disp, s.pc + 2#32 = s.after (mk (.formIII rd rp disp)) := by intros; rfl)
    (lenIV : ∀ rd rp disp, s.pc + 4#32 = s.after (mk (.formIV rd rp disp)) := by intros; rfl)
    (lenV : ∀ rd rb ri sa, s.pc + 4#32 = s.after (mk (.formV rd rb ri sa)) := by intros; rfl) :
    (∀ rd rp disp, Loads (mk (.formIII rd rp disp)) s kind (2 ^ k) (s.dispZ rp disp k) rd value) ∧
    (∀ rd rp disp, Loads (mk (.formIV rd rp disp)) s kind (2 ^ k) (s.dispS rp disp 0) rd value) ∧
    (∀ rd rb ri sa, Loads (mk (.formV rd rb ri sa)) s kind (2 ^ k) (s.indexed rb ri sa) rd value) :=
  ⟨fun _ _ _ => loads_of_finishLoad (run _) made (lenIII ..), fun _ _ _ => loads_of_finishLoad (run _) made (lenIV ..),
    fun _ _ _ _ => loads_of_finishLoad (run _) made (lenV ..)⟩

/-- Settles O35: each form ends with the write of the value that its rule makes of the bytes read. -/
theorem singleLoads : Obligations.SingleLoads := by
  intro s
  obtain ⟨ubIII, ubIV, ubV⟩ := loadForms_load (s := s) (mk := .ldUb) (fun _ => rfl) fun _ => zextByte_wordOfBytes
  obtain ⟨uhIII, uhIV, uhV⟩ := loadForms_load (s := s) (mk := .ldUh) (fun _ => rfl) fun _ => zextHalf_wordOfBytes
  obtain ⟨shIII, shIV, shV⟩ := loadForms_load (s := s) (mk := .ldSh) (fun _ => rfl) fun _ _ => rfl
  refine ⟨ubIII, ubIV, ubV, ?sbI, ?sbII, uhIII, uhIV, uhV, shIII, shIV, shV, ?wIII, ?wIV, ?wV, ?wVI, ?insB, ?insH, ?swpSh, ?swpUh, ?swpW, ?pc, ?sp,
    ?conditional⟩
  case sbI => exact fun _ _ _ => loads_of_finishLoad rfl
  case sbII => exact fun _ _ _ _ => loads_of_finishLoad rfl
  case wIII => exact fun _ _ _ => loads_of_finishLoad rfl
  case wIV => exact fun _ _ _ => loads_of_finishLoad rfl
  case wV => exact fun _ _ _ _ => loads_of_finishLoad rfl
  case wVI => exact fun _ _ _ _ _ => loads_of_finishLoad rfl
  case insB => exact fun _ _ _ _ => loads_of_finishLoad rfl
  case insH => exact fun _ _ _ _ => loads_of_finishLoad rfl
  case swpSh => exact fun _ _ _ => loads_of_finishLoad rfl fun _ two => congrArg sext (swapHalf_wordOfBytes two)
  case swpUh =>
    refine fun _ _ _ => loads_of_finishLoad rfl fun bs two => ?_
    rw [swapHalf_wordOfBytes two]
    exact zextHalf_wordOfBytes (bs.length_reverse.trans two)
  case swpW => exact fun _ _ _ => loads_of_finishLoad rfl fun _ => swapBytes_wordOfBytes
  case pc => exact fun _ _ => loads_of_finishLoad rfl
  case sp => exact fun _ _ => loads_of_finishLoad rfl
  case conditional =>
    exact fun _ _ _ _ rev => ⟨conditionally_loads 0 rev rfl fun _ => zextByte_wordOfBytes, conditionally_loads 0 rev rfl,
      conditionally_loads 1 rev rfl fun _ => zextHalf_wordOfBytes, conditionally_loads 1 rev rfl, conditionally_loads 2 rev rfl⟩

end Sys2Proof.Machine
end

section
/-! PROOFS. O36: the loads that move their pointer, and ld.d. Registers are written in an order in which none undoes another: the upper one of a
pair, the lower one, and the pointer last (46_data_transfer.md R745, R750, R754, R756, R758, R760). -/

namespace Sys2Proof.Machine

section
variable {s t u : State} {i : Instr} {d p : RegNo} {len va ptr after : Word} {kind : LsKind} {n : Nat} {conv : Word → Word}
  {value : List Byte → Word} {ds : List RegNo} {bits : List Nat}

/-! ## A moved pointer -/

/-- A pointer that is not the register loaded is written behind it, and R15 as pointer jumps last. -/
theorem Writes.movePtr {v : Word} (written : Writes i s u d v) (other : d ≠ p) (ptr : Word) :
    (d ≠ 15#4 → (u.setReg p ptr).getReg d = v) ∧ (p ≠ 15#4 → (u.setReg p ptr).getReg p = ptr) ∧
    (u.setReg p ptr).pc = if p = 15#4 then ptr &&& 0xFFFFFFFE#32 else if d = 15#4 then v &&& 0xFFFFFFFE#32 else s.after i := by
  refine ⟨fun notPc => ?_, State.getReg_setReg_same _ _, ?_⟩
  · rw [Writes, if_neg notPc] at written
    rw [State.getReg_setReg_other _ _ other, written.1]
  · by_cases hp : p = 15#4
    · rw [if_pos hp, hp]; rfl
    · rw [if_neg hp, State.setReg_keeps_pc _ _ hp]
      unfold Writes at written
      split at written
      next hd => rw [if_pos hd, written]
      next hd => rw [if_neg hd, written.2]

/-- A load that moves its pointer: the same register as pointer and destination receives a free value (R745). -/
theorem loadsMoving_of_finishLoadPtr (run : exec i s = s.finishLoadPtr len d p ptr (load kind n conv va s))
    (made : ∀ bs, bs.length = n → conv (wordOfBytes bs) = value bs := by intros; rfl) (hlen : s.pc + len = s.after i := by rfl) :
    LoadsMoving i s kind n va d p ptr value := by
  intro bs s1 reads
  rw [load_reads conv reads, made bs reads.length] at run
  have access := reads.checked.accessed
  have only := access.advance hlen [d, p]
  refine ⟨_, run, reads.checked.loadFrame (after := s.after i) ?_, fun other => ?_⟩
  · split
    · exact only.freeRegs (by simp)
    · exact (only.setReg (by simp) _).setReg (by simp) _
  · rw [if_neg other]
    exact (writes_setReg (access.pc_advance hlen) d _).movePtr other ptr

/-! ## Pairs -/

/-- Behind an access, the pair is written at the address after the instruction. -/
theorem Accessed.writesPair_setPair (h : Accessed s u) (even : evenNo d = true) (hi lo : Word) (hlen : s.pc + len = s.after i) :
    WritesPair i s ((u.advance len).setPair d hi lo) d (hi ++ lo) := by
  have after : u.after i = s.after i := by rw [State.after, h.pc, State.after]
  have written := Machine.writesPair_setPair (i := i) even (hi ++ lo) (by rw [h.pc, hlen, after])
  rw [BitVec.extractLsb'_append_eq_left, BitVec.extractLsb'_append_eq_right] at written
  rwa [WritesPair, Writes, after] at written

/-- Neither register of a pair is R15, but for R14 and R15 themselves. -/
theorem pc_notMem_pair (not14 : d ≠ 14#4) (not15 : d ≠ 15#4) : 15#4 ∉ [d, d + 1#4] := by
  revert d; decide

/-- A load that ends with the write of its pair. -/
theorem loadsPair_of_finishLoadPair (run : exec i s = s.finishLoadPair len d (loadDouble kind va s))
    (hlen : s.pc + len = s.after i := by rfl) : LoadsPair i s kind va d := by
  intro bs s1 reads
  rw [loadDouble_reads reads] at run
  have access := reads.checked.accessed
  have only := (access.advance hlen [d, d + 1#4]).setPair (d := d) (by simp) (by simp) (wordOfBytes (bs.take 4)) (wordOfBytes (bs.drop 4))
  exact ⟨_, run, reads.checked.loadFrame only, fun not14 not15 => only.pc (pc_notMem_pair not14 not15),
    fun even => access.writesPair_setPair even _ _ hlen⟩

/-- A load of a pair that moves its pointer: where the three registers overlap they receive free values (R745). -/
theorem loadsPairMoving_of_finishLoadPairPtr (run : exec i s = s.finishLoadPairPtr len d p ptr (loadDouble kind va s))
    (hlen : s.pc + len = s.after i := by rfl) : LoadsPairMoving i s kind va d p ptr := by
  intro bs s1 reads
  rw [loadDouble_reads reads] at run
  have access := reads.checked.accessed
  have start := access.advance hlen [d, d + 1#4, p]
  have only (overlap : Bool) : WritesOnly s1 (if overlap then (s1.advance len).freeRegs [d, d + 1#4, p]
      else ((s1.advance len).setPair d (wordOfBytes (bs.take 4)) (wordOfBytes (bs.drop 4))).setReg p ptr) (s.after i) [d, d + 1#4, p] [] := by
    split
    · exact start.freeRegs (List.Subset.refl _)
    · exact (start.setPair (by simp) (by simp) _ _).setReg (by simp) ptr
  refine ⟨_, run, reads.checked.loadFrame (only _), fun not14 not15 notPtr => ?_, fun even lower upper below => ?_⟩
  · exact (only _).pc (by simpa [notPtr.symm] using pc_notMem_pair not14 not15)
  · rw [if_neg (by simp [lower, upper, below])]
    obtain ⟨low, high⟩ := access.writesPair_setPair even (wordOfBytes (bs.take 4)) (wordOfBytes (bs.drop 4)) hlen
    obtain ⟨highKept, moved, -⟩ := high.movePtr upper ptr
    have next15 : ∀ d : RegNo, d ≠ 14#4 → d + 1#4 ≠ 15#4 := by decide
    exact ⟨(State.getReg_setReg_other _ _ lower).trans low, fun not14 => highKept (next15 d not14), moved⟩

/-! ## The words of a pair in turn -/

theorem Accessed.sameRegs (h : Accessed s u) (only : WritesOnly u t after ds bits) : SameRegs s t ds := fun p real notPc other =>
  (only.regs p real notPc fun d hd => h.phys d ▸ other d hd).trans (h.readPhys p)

theorem Accessed.sameSr (h : Accessed s u) (only : WritesOnly u t after ds bits) : SameSr s t bits := fun n hn notIn =>
  (only.sr n hn notIn).trans (congrArg (·.getLsbD n) h.sr)

theorem wordInTurn_zero (s : State) (va : Word) : s.wordInTurn va 0 = wordAt s va := by
  rw [State.wordInTurn, Nat.mul_zero, BitVec.add_zero]; rfl

theorem wordInTurn_one (s : State) (va : Word) : s.wordInTurn va 1 = wordAt s.busTurn (va + 4#32) := rfl

/-- Other agents act between the two words of ld.d, and only there (20_memory.md R208). -/
theorem ldD_inTurn {rd rp : RegNo} (even : evenNo rd = true) (direct : Direct s) (ha : (s.getReg rp).toNat % 4 = 0)
    (backed : Backed s (s.getReg rp) 8) : Gives (exec (.ldD (.formIII rd rp)) s) fun t =>
      WritesPair (.ldD (.formIII rd rp)) s t rd (wordAt s (s.getReg rp) ++ wordAt s.busTurn (s.getReg rp + 4#32)) ∧
      t.mem = s.busTurn.mem ∧ SameRegs s t [rd, rd + 1#4] ∧ SameSr s t [] ∧ SameSystem s.busTurn t := by
  have run : exec (.ldD (.formIII rd rp)) s = s.finishLoadPair 2#32 rd (loadDouble .ldD (s.getReg rp) s) := by rfl
  rw [loadDouble_direct direct .ldD ((aligned_word_iff (.inr rfl)).mpr ha) backed, wordInTurn_zero, wordInTurn_one] at run
  have access := Accessed.busTurn s
  have only := (access.advance (i := .ldD (.formIII rd rp)) rfl [rd, rd + 1#4]).setPair (d := rd) (by simp) (by simp)
    (wordAt s (s.getReg rp)) (wordAt s.busTurn (s.getReg rp + 4#32))
  exact ⟨_, run, access.writesPair_setPair even _ _ rfl, State.setPair_mem .., access.sameRegs only, access.sameSr only, only.system⟩

end

/-- Settles O36: each form by the order in which it writes its registers. -/
theorem pointerAndDoubleLoads : Obligations.PointerAndDoubleLoads := by
  intro s rd rp
  refine ⟨ldD_inTurn, ?ubI, ?ubII, ?uhI, ?uhII, ?shI, ?shII, ?wI, ?wII, ?dI, ?dII, ?dIII, ?dIV, ?dV⟩
  case ubI => exact loadsMoving_of_finishLoadPtr rfl fun _ => zextByte_wordOfBytes
  case ubII => exact loadsMoving_of_finishLoadPtr rfl fun _ => zextByte_wordOfBytes
  case uhI => exact loadsMoving_of_finishLoadPtr rfl fun _ => zextHalf_wordOfBytes
  case uhII => exact loadsMoving_of_finishLoadPtr rfl fun _ => zextHalf_wordOfBytes
  case shI => exact loadsMoving_of_finishLoadPtr rfl
  case shII => exact loadsMoving_of_finishLoadPtr rfl
  case wI => exact loadsMoving_of_finishLoadPtr rfl
  case wII => exact loadsMoving_of_finishLoadPtr rfl
  case dI => exact loadsPairMoving_of_finishLoadPairPtr rfl
  case dII => exact loadsPairMoving_of_finishLoadPairPtr rfl
  case dIII => exact loadsPair_of_finishLoadPair rfl
  case dIV => exact fun _ => loadsPair_of_finishLoadPair rfl
  case dV => exact fun _ _ => loadsPair_of_finishLoadPair rfl

end Sys2Proof.Machine
end

section
/-! PROOFS. O11 and O14: how each instruction ends. It leaves what an application may not change, or it has taken an event; it faults only where
events are entered through memory, in AVR32A; and it is refused only where incjosp traps to Java software. -/

set_option Elab.async false

namespace Sys2Proof.Machine

variable {free : Bool} {refusal : Refusal → Prop} {s t u : State}

/-! ## What an application may not change -/

/-- `t` is `s` in all that an application reaches only through an exception or a call (60_exceptions.md R1120, R1121). -/
structure SystemKept (s t : State) : Prop where
  cfg : t.cfg = s.cfg
  high : ∀ n, 16 ≤ n → n < 32 → t.srBit n = s.srBit n
  ctl : t.ctl = s.ctl
  ret : t.ret = s.ret
  timer : t.timer = s.timer
  perf : t.perf = s.perf
  mpu : t.mpu = s.mpu
  sec : t.sec = s.sec
  impl : t.impl = s.impl
  debug : t.debug = s.debug
  tlbehi : t.mmu.tlbehi = s.mmu.tlbehi
  tlbelo : t.mmu.tlbelo = s.mmu.tlbelo
  ptbr : t.mmu.ptbr = s.mmu.ptbr
  tlbear : t.mmu.tlbear = s.mmu.tlbear
  mmucr : t.mmu.mmucr = s.mmu.mmucr
  spSys : t.spSys = s.spSys
  spSec : s.srBit bitSS = false → t.spSec = s.spSec
  int0 : t.int0 = s.int0
  int1 : t.int1 = s.int1
  int2 : t.int2 = s.int2
  int3 : t.int3 = s.int3
  sleeping : t.sleeping = s.sleeping

theorem SystemKept.refl (s : State) : SystemKept s s := by constructor <;> intros <;> rfl

/-- The PC, flags, memory, the Java and coprocessor registers, the hazard window and the model's own fields are outside it. -/
theorem SystemKept.accessed (h : SystemKept s t) (access : Accessed t u) : SystemKept s u := by
  obtain ⟨⟨_, _, _, _, _, _, rfl⟩, -, -, -⟩ := access
  exact { h with }

theorem SystemKept.mode (h : SystemKept s t) : t.mode = s.mode :=
  State.mode_congr fun m hm => h.high m (by omega) (by omega)

theorem SystemKept.phys (h : SystemKept s t) (i : RegNo) : t.phys i = s.phys i :=
  State.phys_congr h.cfg (h.high bitSS (by decide) (by decide)) h.mode i

theorem SystemKept.of_sr (h : SystemKept s t) {v : Word} (high : ∀ n, 16 ≤ n → n < 32 → v.getLsbD n = t.srBit n) :
    SystemKept s { t with sr := v } :=
  { h with high := fun n low bound => (high n low bound).trans (h.high n low bound) }

theorem State.inApplication_iff : s.inApplication = true ↔ s.mode = 0#3 ∧ s.srBit bitD = false := by
  simp [State.inApplication]

/-- The registers of the application: its stack pointer, or that of the secure world, and the shared copy of every other (10_state.md R104). -/
theorem State.phys_application (app : s.inApplication = true) (i : RegNo) :
    s.phys i = .pc ∨ (s.phys i = .spSec ∧ s.srBit bitSS = true) ∨ s.phys i = .spApp ∨ s.phys i = .bank .shared i := by
  have mode := (State.inApplication_iff.mp app).1
  unfold State.phys
  split_ifs with pc sp secure
  · exact .inl rfl
  · exact .inr (.inl ⟨rfl, secure⟩)
  · exact .inr (.inr (.inl rfl))
  · refine .inr (.inr (.inr ?_))
    unfold contextOf
    rw [mode]
    split <;> rfl

theorem SystemKept.setReg (app : s.inApplication = true) (h : SystemKept s t) {i : RegNo} {v : Word} : SystemKept s (t.setReg i v) := by
  rw [State.setReg, h.phys i]
  obtain named | ⟨named, secure⟩ | named | named := s.phys_application app i <;> rw [named]
  · exact { h with }
  · exact { h with spSec := fun nonsecure => absurd (secure.symm.trans nonsecure) nofun }
  · exact { h with }
  · exact { h with }

/-! ## Steps of an instruction -/

/-- From Application mode, an instruction that does not leave it keeps what an application may not change. -/
def AppKeeps (free : Bool) (s t : State) : Prop := free = false → s.inApplication = true → SystemKept s t

theorem AppKeeps.refl (s : State) : AppKeeps free s s := fun _ _ => .refl s

theorem AppKeeps.of_privileged (h : s.privileged = true) : AppKeeps free s t := fun _ app =>
  absurd app (by simpa [State.privileged] using h)

theorem AppKeeps.of_mode (h : s.mode ≠ 0#3) : AppKeeps free s t := fun _ app => absurd (State.inApplication_iff.mp app).1 h

theorem AppKeeps.ite {p : Prop} [Decidable p] (ht : p → AppKeeps free s t) (hu : ¬p → AppKeeps free s u) : AppKeeps free s (if p then t else u) :=
  iteInduction (motive := AppKeeps free s) ht hu

theorem Accessed.appKeeps (h : Accessed s t) : AppKeeps free s t := fun _ _ => (SystemKept.refl s).accessed h

section
variable (h : AppKeeps free s t)
include h

/-- Fields change that no rule keeps from an application. Where the two states are given, their shape says so. -/
theorem AppKeeps.step (kept : SystemKept s t → SystemKept s u) : AppKeeps free s u := fun stays app => kept (h stays app)

theorem AppKeeps.advance {n : Word} : AppKeeps free s (t.advance n) := h.step fun g => { g with }

theorem AppKeeps.jump {a : Word} : AppKeeps free s (t.jump a) := h.step fun g => { g with }

theorem AppKeeps.drawFree {n : Nat} : AppKeeps free s (t.drawFree n) := h.step fun g => { g with }

theorem AppKeeps.setFlags {f : FlagUpdate} : AppKeeps free s (t.setFlags f) :=
  h.step fun g => g.of_sr fun _ low bound => applyFlags_above bound (by omega)

theorem AppKeeps.setReg {i : RegNo} {v : Word} : AppKeeps free s (t.setReg i v) := fun stays app => (h stays app).setReg app

theorem AppKeeps.callTo {len target : Word} : AppKeeps free s (t.callTo len target) := h.setReg.jump

theorem AppKeeps.freeRegs {is : List RegNo} : AppKeeps free s (t.freeRegs is) := by
  induction is generalizing t with
  | nil => exact h
  | cons i is ih => exact ih h.setReg.drawFree

theorem AppKeeps.setPair {d : RegNo} {hi lo : Word} : AppKeeps free s (t.setPair d hi lo) :=
  .ite (fun _ => h.setReg.setReg) fun _ => h.freeRegs

theorem AppKeeps.setRegs {l : List (RegNo × Word)} : AppKeeps free s (t.setRegs l) := by
  induction l generalizing t with
  | nil => exact h
  | cons p l ih => exact ih h.setReg

theorem AppKeeps.writeApp {i : RegNo} {v : Word} : AppKeeps free s (t.writeApp i v) :=
  .ite (fun _ => h.step fun g => { g with }) fun _ => h.step fun g => { g with }

theorem AppKeeps.writeApps {l : List (RegNo × Word)} : AppKeeps free s (t.writeApps l) := by
  induction l generalizing t with
  | nil => exact h
  | cons p l ih => exact ih h.writeApp

theorem AppKeeps.freeApps {is : List RegNo} : AppKeeps free s (t.freeApps is) := by
  induction is generalizing t with
  | nil => exact h
  | cons i is ih => exact ih h.writeApp.drawFree

theorem AppKeeps.of_cop {cop : Vector (Vector Word 16) 8} {n : Nat} : AppKeeps free s { t with cop := cop, freeIdx := n } :=
  h.step fun g => { g with }

theorem AppKeeps.setCopReg {cp : BitVec 3} {i : RegNo} {v : Word} : AppKeeps free s (t.setCopReg cp i v) := h.of_cop

theorem AppKeeps.setCopRegs {cp : BitVec 3} {l : List (RegNo × Word)} : AppKeeps free s (t.setCopRegs cp l) := by
  obtain ⟨_, written⟩ := t.setCopRegs_eq cp l
  exact written ▸ h.of_cop

theorem AppKeeps.freeCopRegs {cp : BitVec 3} {is : List RegNo} : AppKeeps free s (t.freeCopRegs cp is) := by
  obtain ⟨_, _, written⟩ := t.freeCopRegs_eq cp is
  exact written ▸ h.of_cop

theorem AppKeeps.setCopPair {cp : BitVec 3} {d : RegNo} {hi lo : Word} : AppKeeps free s (t.setCopPair cp d hi lo) :=
  .ite (fun _ => h.setCopReg.setCopReg) fun _ => h.freeCopRegs

theorem AppKeeps.of_java {java : JavaRegs} : AppKeeps free s { t with java := java } := h.step fun g => { g with }

/-- The end of popm and ldm, in its order: the registers, R12 by the option, the pointer, and the test and the jump where PC is in the list. -/
theorem AppKeeps.finishPop {len : Word} {regs : List (RegNo × Word)} {ptr : Option (RegNo × Word)} {r12 : Option Word} :
    AppKeeps free s (t.finishPop len regs ptr r12) := by
  have popped := (h.advance (n := len)).setRegs (l := regs.filter fun p => p.1 != 15#4)
  have option : AppKeeps free s (match r12 with
      | some v => ((t.advance len).setRegs (regs.filter fun p => p.1 != 15#4)).setReg 12#4 v
      | none => (t.advance len).setRegs (regs.filter fun p => p.1 != 15#4)) := by
    cases r12 with
    | none => exact popped
    | some v => exact popped.setReg
  unfold State.finishPop
  cases ptr with
  | none => dsimp only; split; exacts [option.setFlags.jump, option]
  | some p => dsimp only; split; exacts [option.setReg.setFlags.jump, option.setReg]

end

/-- The lower half of SR belongs to the application (10_state.md R116). -/
theorem AppKeeps.writeSrBit (h : AppKeeps free s t) {n : BitVec 5} {b : Bool} (may : s.maySrBit n = true) :
    AppKeeps free s (t.writeSrBit n b) := by
  rcases Bool.or_eq_true_iff.mp may with low | privileged
  · refine .ite (fun _ => h.step fun g => g.of_sr fun m high bound => ?_) fun _ => h
    rw [getLsbD_setBit bound, if_neg (by have := of_decide_eq_true low; omega)]
    rfl
  · exact .of_privileged privileged

/-- JECR and JOSP are the system registers that the application writes (48_system_coprocessor_java.md R914). -/
theorem AppKeeps.writeSysReg (h : AppKeeps free s t) {n : BitVec 8} {v : Word} (may : s.maySysReg n = true) :
    AppKeeps free s (t.writeSysReg n v) := by
  obtain (rfl | rfl) | privileged : (n = 21#8 ∨ n = 22#8) ∨ s.privileged = true := by simpa [State.maySysReg] using may
  · exact .ite (fun _ => h.of_java) fun _ => h
  · exact .ite (fun _ => h.step fun g => { g with }) fun _ => h
  · exact .of_privileged privileged

/-! ## How an instruction ends -/

/-- The instruction completes and keeps what an application may not change, or it takes an event; a fault is one of AVR32A; and it is refused
only for the reasons of `refusal`. -/
def Ends (free : Bool) (refusal : Refusal → Prop) (s : State) (o : Out) : Prop :=
  match o with
  | .next t => AppKeeps free s t ∨ t.taken ≠ none
  | .fault _ => s.cfg.archB = false
  | .refused r => refusal r

theorem Ends.next (h : AppKeeps free s t) : Ends free refusal s (.next t) := .inl h

/-- In AVR32B an entry writes registers alone (60_exceptions.md R1053). -/
theorem enterEvent_archB (archB : s.cfg.archB = true) (e : Event) (ra : Word) :
    enterEvent e ra s = .ok () ({ s with ret := s.ret.save e.mode s.sr ra }.enterHandler e) := if_pos archB

theorem takeEvent_archB (archB : s.cfg.archB = true) (e : Event) (ra : Word) :
    takeEvent e ra s = .next ({ s with ret := s.ret.save (s.unmasked e).mode s.sr ra }.enterHandler (s.unmasked e)) := by
  rw [takeEvent, enterEvent_archB archB]

theorem takeEvent_ends (cfg : t.cfg = s.cfg) (e : Event) (ra : Word) : Ends free refusal s (takeEvent e ra t) := by
  cases taken : takeEvent e ra t with
  | next u =>
    obtain ⟨e', v, -, rfl⟩ := takeEvent_next taken
    exact .inr (by rw [State.enterHandler_taken]; nofun)
  | fault r =>
    cases archB : s.cfg.archB with
    | false => exact archB
    | true => rw [takeEvent_archB (cfg ▸ archB)] at taken; cases taken
  | refused r => exact absurd taken (takeEvent_not_refused e ra t r)

theorem raiseEvent_ends (e : Event) : Ends free refusal s (raiseEvent e s) := takeEvent_ends rfl e s.pc

theorem Ends.ite {p : Prop} [Decidable p] {o o' : Out} (ht : p → Ends free refusal s o) (hf : ¬p → Ends free refusal s o') :
    Ends free refusal s (if p then o else o') :=
  iteInduction (motive := Ends free refusal s) ht hf

section
variable {ok : Bool} {k : Out}

theorem Ends.requireUnit (h : ok = true → Ends free refusal s k) : Ends free refusal s (requireUnit ok s k) :=
  .ite h fun _ => raiseEvent_ends _

theorem Ends.requireRight (h : ok = true → Ends free refusal s k) : Ends free refusal s (requireRight ok s k) :=
  .ite h fun _ => raiseEvent_ends _

theorem Ends.requireCop {n : BitVec 3} (h : Ends free refusal s k) : Ends free refusal s (requireCop n s k) :=
  .ite (fun _ => raiseEvent_ends _) fun _ => .ite (fun _ => h) fun _ => raiseEvent_ends _

theorem Ends.requireTlb (h : s.privileged = true → Ends free refusal s k) : Ends free refusal s (requireTlb s k) :=
  .requireUnit fun _ => .requireRight h

end

section
variable {len : Word}

theorem State.finishReg_ends {d : RegNo} {v : Word} {f : FlagUpdate} : Ends free refusal s (s.finishReg len d v f) :=
  .next (AppKeeps.refl s).advance.setReg.setFlags

theorem State.finishFlags_ends {f : FlagUpdate} : Ends free refusal s (s.finishFlags len f) := .next (AppKeeps.refl s).advance.setFlags

theorem State.finishPair_ends {d : RegNo} {v : BitVec 64} : Ends free refusal s (s.finishPair len d v) := .next (AppKeeps.refl s).advance.setPair

theorem State.finishNop_ends : Ends free refusal s (s.finishNop len) := .next (AppKeeps.refl s).advance

theorem State.finishEmptyList_ends {is : List RegNo} : Ends free refusal s (s.finishEmptyList len is) :=
  .next (AppKeeps.refl s).advance.freeRegs

theorem Ends.ifCond {c : Cond} {k : Out} (h : Ends free refusal s k) : Ends free refusal s (s.ifCond c len k) :=
  .ite (fun _ => h) fun _ => State.finishNop_ends

/-- An instruction that makes accesses and goes on with their result, or raises their event. -/
theorem Res.bind_ends {α : Type} {r : Res α} {f : α → State → Res State} (h : r.Leaves (Accessed s))
    (g : ∀ a t, Accessed s t → Ends free refusal s (f a t).finish) : Ends free refusal s (r.bind f).finish := by
  cases r with
  | ok a t => exact g a t h
  | raise e t => exact takeEvent_ends (Accessed.cfg h) e t.pc

theorem Res.finish_ends {α : Type} {r : Res α} {f : α → State → State} {w : α → State → State} (h : r.Leaves (Accessed s))
    (g : ∀ a t, AppKeeps free s t → AppKeeps free s (f a t)) : Ends free refusal s (r.bind fun a t => .ok (f a t) (w a t)).finish :=
  Res.bind_ends h fun a t access => .next (g a t access.appKeeps)

theorem State.finishLoad_ends {d : RegNo} {r : Res Word} (h : r.Leaves (Accessed s)) : Ends free refusal s (s.finishLoad len d r) :=
  Res.finish_ends h fun _ _ g => g.advance.setReg

theorem State.finishLoadPtr_ends {d p : RegNo} {ptr : Word} {r : Res Word} (h : r.Leaves (Accessed s)) :
    Ends free refusal s (s.finishLoadPtr len d p ptr r) :=
  Res.finish_ends h fun _ _ g => .ite (fun _ => g.advance.freeRegs) fun _ => g.advance.setReg.setReg

theorem State.finishLoadPair_ends {d : RegNo} {r : Res (Word × Word)} (h : r.Leaves (Accessed s)) :
    Ends free refusal s (s.finishLoadPair len d r) :=
  Res.finish_ends h fun _ _ g => g.advance.setPair

theorem State.finishLoadPairPtr_ends {d p : RegNo} {ptr : Word} {r : Res (Word × Word)} (h : r.Leaves (Accessed s)) :
    Ends free refusal s (s.finishLoadPairPtr len d p ptr r) :=
  Res.finish_ends h fun _ _ g => .ite (fun _ => g.advance.freeRegs) fun _ => g.advance.setPair.setReg

theorem State.finishStore_ends {r : Res Unit} (h : r.Leaves (Accessed s)) : Ends free refusal s (s.finishStore len r) :=
  Res.finish_ends h fun _ _ g => g.advance

theorem State.finishStorePtr_ends {p : RegNo} {ptr : Word} {r : Res Unit} (h : r.Leaves (Accessed s)) :
    Ends free refusal s (s.finishStorePtr len p ptr r) :=
  Res.finish_ends h fun _ _ g => g.advance.setReg

/-- A store of words that a form reads, or of free values that it draws first. -/
theorem storeWords_drawn (kind : LsKind) (ws : List (Word × Word)) (n : Nat) : (storeWords kind ws (s.drawFree n)).Leaves (Accessed s) :=
  (storeWords_accessed ..).mono fun _ => (Accessed.drawFree s n).trans

end

/-! ## The shared forms -/

theorem State.finishField_ends {d : RegNo} {bp wd : BitVec 5} {r : Word} : Ends free refusal s (s.finishField d bp wd r) :=
  .ite (fun _ => State.finishReg_ends) fun _ => .next (AppKeeps.refl s).advance.setReg.setFlags.drawFree

theorem State.branch_ends {taken : Bool} {len target : Word} : Ends free refusal s (s.branch taken len target) :=
  .next (.ite (fun _ => (AppKeeps.refl s).jump) fun _ => (AppKeeps.refl s).advance)

theorem State.storePtr_ends {len : Word} {kind : LsKind} {n : Nat} {rp rs : RegNo} {va ptr : Word} :
    Ends free refusal s (s.storePtr len kind n rp rs va ptr) :=
  .ite (fun _ => State.finishStorePtr_ends ((store_accessed ..).mono fun _ => (Accessed.drawFree s 2).trans))
    fun _ => State.finishStorePtr_ends (store_accessed ..)

theorem State.storePairPtr_ends {rp rs : RegNo} {va ptr : Word} : Ends free refusal s (s.storePairPtr rp rs va ptr) :=
  .ite (fun _ => State.finishStorePtr_ends ((storeDouble_accessed ..).mono fun _ => (Accessed.drawFree s 3).trans))
    fun _ => State.finishStorePtr_ends (storePair_accessed va rs s)

theorem State.loadForm_ends {kind : LsKind} {k : Nat} {conv : Word → Word} (f : LoadForm) : Ends free refusal s (s.loadForm kind k conv f) := by
  cases f with
  | formI | formII => exact State.finishLoadPtr_ends (load_accessed ..)
  | formIII | formIV | formV => exact State.finishLoad_ends (load_accessed ..)

theorem State.loadCond_ends {kind : LsKind} {k : Nat} {conv : Word → Word} {c : Cond} {rd rp : RegNo} {disp : BitVec 9} :
    Ends free refusal s (s.loadCond kind k conv c rd rp disp) :=
  .requireUnit fun _ => .ifCond (State.finishLoad_ends (load_accessed ..))

theorem State.storeForm_ends {kind : LsKind} {k : Nat} (f : StoreForm) : Ends free refusal s (s.storeForm kind k f) := by
  cases f with
  | formI | formII => exact State.storePtr_ends
  | formIII | formIV | formV => exact State.finishStore_ends (store_accessed ..)

theorem State.storeCond_ends {kind : LsKind} {k : Nat} {c : Cond} {rp rs : RegNo} {disp : BitVec 9} :
    Ends free refusal s (s.storeCond kind k c rp rs disp) :=
  .requireUnit fun _ => .ifCond (State.finishStore_ends (store_accessed ..))

theorem State.modifyWord_ends {kind : LsKind} {imm : BitVec 15} {f : Word → Word} : Ends free refusal s (s.modifyWord kind imm f) :=
  .requireUnit fun _ => Res.finish_ends (swapWord_accessed ..) fun _ _ g => g.advance

theorem State.copLoadMany_ends {kind : LsKind} {cp : BitVec 3} {rp : RegNo} {wb : BitVec 1} {list all : BitVec 16} :
    Ends free refusal s (s.copLoadMany kind cp rp wb list all) :=
  .ite (fun _ => .next (AppKeeps.refl s).advance.freeCopRegs.freeRegs) fun _ => Res.finish_ends (loadWords_accessed ..) fun _ _ g =>
    .ite (fun _ => g.advance.setCopRegs.setReg) fun _ => g.advance.setCopRegs

theorem State.copStoreMany_ends {kind : LsKind} {cp : BitVec 3} {rp : RegNo} {wb : BitVec 1} {list : BitVec 16} :
    Ends free refusal s (s.copStoreMany kind cp rp wb list) :=
  .ite (fun _ => State.finishEmptyList_ends) fun _ => .ite (fun _ => State.finishStorePtr_ends (storeWords_accessed ..))
    fun _ => State.finishStore_ends (storeWords_accessed ..)

theorem execStm_ends {rp : RegNo} {wb : BitVec 1} {list : BitVec 16} : Ends free refusal s (execStm rp wb list s) :=
  .ite (fun _ => State.finishEmptyList_ends) fun _ =>
    .ite (fun _ => State.finishStorePtr_ends (storeWords_drawn ..)) fun _ => State.finishStore_ends (storeWords_drawn ..)

theorem execStmts_ends {rp : RegNo} {wb : BitVec 1} {list : BitVec 16} : Ends free refusal s (execStmts rp wb list s) :=
  .ite (fun _ => State.finishEmptyList_ends) fun _ =>
    .ite (fun _ => State.finishStorePtr_ends (storeWords_drawn ..)) fun _ => State.finishStore_ends (storeWords_drawn ..)

theorem execLdmts_ends {rp : RegNo} {wb : BitVec 1} {list : BitVec 16} : Ends free refusal s (execLdmts rp wb list s) :=
  .ite (fun _ => .next (AppKeeps.refl s).advance.freeApps.freeRegs) fun _ => Res.finish_ends (loadWords_accessed ..) fun _ _ g =>
    .ite (fun _ => g.advance.freeApps.freeRegs) fun _ => .ite (fun _ => g.advance.writeApps.setReg) fun _ => g.advance.writeApps

theorem execXchg_ends {rd rx ry : RegNo} : Ends free refusal s (execXchg rd rx ry s) :=
  .ite (fun _ => Res.finish_ends ((swapWord_accessed ..).mono fun _ => (Accessed.drawFree s 2).trans) fun _ _ g => g.advance.setReg)
    fun _ => Res.finish_ends (swapWord_accessed ..) fun _ _ g => g.advance.setReg

/-! ## The system instructions -/

theorem execMfsr_ends {rd : RegNo} {n : BitVec 8} : Ends free refusal s (execMfsr rd n s) := by
  refine .requireRight fun _ => ?_
  cases s.readSysReg n with
  | some v => exact State.finishReg_ends
  | none => exact .next (AppKeeps.refl s).drawFree.advance.setReg.setFlags

/-- Outside Application mode nothing is asked of rete and rets, and in it they raise an event (R922, R923). -/
theorem execRete_ends : Ends free refusal s (execRete s) := by
  refine .ite (fun _ => raiseEvent_ends _) fun system => ?_
  have notApp : s.mode ≠ 0#3 := fun app => system (.inl app)
  exact .ite (fun _ => .next (.of_mode notApp)) fun _ => Res.finish_ends (popWords_accessed ..) fun _ _ _ => .of_mode notApp

theorem execRets_ends : Ends free refusal s (execRets s) :=
  .ite (fun _ => raiseEvent_ends _) fun notApp => .ite (fun _ => .ite (fun _ => .next (.of_mode notApp)) fun _ =>
    Res.finish_ends (popWords_accessed ..) fun _ _ _ => .of_mode notApp) fun _ => .next (.of_mode notApp)

theorem execScall_ends : Ends true refusal s (execScall s) :=
  .ite (fun _ => .ite (fun _ => .next nofun) fun _ =>
    Res.bind_ends (pushSystem_accessed ..) fun _ u pushed =>
      Res.bind_ends ((pushSystem_accessed ..).mono fun _ => (pushed.trans (.busTurn u)).trans) fun _ _ _ => .next nofun)
    fun _ => .next nofun

/-- The reasons for which an instruction is refused: incjosp asks for a trap into Java software (48_system_coprocessor_java.md R990). -/
def JospTraps (i : Instr) (s : State) (r : Refusal) : Prop :=
  ∃ imm, i = .incjosp imm ∧ s.cfg.hasJava = true ∧
    ((((s.java.josp.extractLsb' 0 4).toNat : Int) + jospStep imm < 0 ∧ r = .javaTrap 4) ∨
     (8 < ((s.java.josp.extractLsb' 0 4).toNat : Int) + jospStep imm ∧ r = .javaTrap 3))

theorem execIncjosp_ends (imm : BitVec 3) : Ends free (JospTraps (.incjosp imm) s) s (execIncjosp imm s) :=
  .requireUnit fun java => .ite (fun below => ⟨imm, rfl, java, .inl ⟨below, rfl⟩⟩) fun _ =>
    .ite (fun above => ⟨imm, rfl, java, .inr ⟨above, rfl⟩⟩) fun _ => .next (AppKeeps.refl s).advance.of_java

/-! ## All of them -/

theorem exec_ends (i : Instr) (s : State) : Ends (leavesApplication i) (JospTraps i s) s (exec i s) := by
  cases i with
  | abs | acr | adc | addabs | max | min | neg | sbc | scr | mac | andn | andh | andl | com | eorh | eorl | orh | orl | brev | bst | castsB
  | castsH | castuB | castuH | cbr | clz | sbr | swapB | swapBh | swapH | rol | ror | mustr | srCond =>
    exact State.finishReg_ends
  | add f | rsub f | sub f | mul f | and f | eor f | or f | asr f | lsl f | lsr f | mov f => cases f <;> exact State.finishReg_ends
  | cpB | cpH | tnbz | tst | bld | musfr => exact State.finishFlags_ends
  | cpW f | cpc f => cases f <;> exact State.finishFlags_ends
  | addCond | rsubCond | andCond | eorCond | orCond => exact .requireUnit fun _ => .ifCond State.finishReg_ends
  | subCond f =>
    cases f with
    | formI => exact .ifCond State.finishReg_ends
    | formII => exact .requireUnit fun _ => .ifCond State.finishReg_ends
  | movCond f => cases f <;> exact .ifCond State.finishReg_ends
  | movh => exact .requireUnit fun _ => State.finishReg_ends
  | divs | divu => exact .ite (fun _ => .next (AppKeeps.refl s).advance.freeRegs) fun _ => State.finishPair_ends
  | macsD | macuD | mulsD | muluD => exact State.finishPair_ends
  | addhhW | machhW | mulhhW | mulnhhW | sataddH | sataddW | satsubH | satrnds | satrndu | sats | satu | subhhW | mulsathhW | macsathhW =>
    exact .requireUnit fun _ => State.finishReg_ends
  | satsubW f => cases f <;> exact .requireUnit fun _ => State.finishReg_ends
  | machhD | macwhD | mulwhD | mulnwhD => exact .requireUnit fun _ => State.finishPair_ends
  | mulsathhH | mulsatrndhhH | mulsatrndwhW | mulsatwhW =>
    exact .requireUnit fun _ => .ite (fun _ => State.finishReg_ends) fun _ => State.finishReg_ends
  | bfexts | bfextu | bfins => exact State.finishField_ends
  | pabsSb | pabsSh | packshUb | packshSb | packwSh | paddB | paddH | paddhUb | paddhSh | paddsUb | paddsSb | paddsUh | paddsSh | paddsubH
  | paddsubhSh | paddsubsUh | paddsubsSh | paddxH | paddxhSh | paddxsUh | paddxsSh | pasrB | pasrH | pavgUb | pavgSh | plslB | plslH | plsrB
  | plsrH | pmaxUb | pmaxSh | pminUb | pminSh | psad | psubB | psubH | psubaddH | psubaddhSh | psubaddsUh | psubaddsSh | psubhUb | psubhSh
  | psubsUb | psubsSb | psubsUh | psubsSh | psubxH | psubxhSh | psubxsUh | psubxsSh | punpckubH | punpcksbH =>
    exact .requireUnit fun _ => State.finishReg_ends
  | brCond3 | brCond4 => exact State.branch_ends
  | acall | mcall => exact Res.finish_ends (loadWord_accessed ..) fun _ _ g => g.callTo
  | icall => exact .next (AppKeeps.refl s).callTo
  | rcall f => cases f <;> exact .next (AppKeeps.refl s).callTo
  | rjmp => exact .next (AppKeeps.refl s).jump
  | retCond => exact .ifCond (.next (AppKeeps.refl s).setReg.setFlags.jump)
  | ldUb f | ldUh f | ldSh f => exact State.loadForm_ends f
  | ldUbCond | ldSbCond | ldUhCond | ldShCond | ldWCond => exact State.loadCond_ends
  | ldSb f => cases f <;> exact State.finishLoad_ends (load_accessed ..)
  | ldW f =>
    cases f with
    | formI | formII => exact State.finishLoadPtr_ends (loadWord_accessed ..)
    | formIII | formIV | formV | formVI => exact State.finishLoad_ends (loadWord_accessed ..)
  | ldD f =>
    cases f with
    | formI | formII => exact State.finishLoadPairPtr_ends (loadDouble_accessed ..)
    | formIII | formIV | formV => exact State.finishLoadPair_ends (loadDouble_accessed ..)
  | ldinsB | ldinsH | ldswpSh | ldswpUh | ldswpW => exact State.finishLoad_ends (load_accessed ..)
  | lddpc | lddsp => exact State.finishLoad_ends (loadWord_accessed ..)
  | stB f | stH f => exact State.storeForm_ends f
  | stBCond | stHCond | stWCond => exact State.storeCond_ends
  | stW f =>
    cases f with
    | formI | formII => exact State.storePtr_ends
    | formIII | formIV | formV => exact State.finishStore_ends (store_accessed ..)
  | stD f =>
    cases f with
    | formI | formII => exact State.storePairPtr_ends
    | formIII | formIV | formV => exact State.finishStore_ends (storePair_accessed ..)
  | stcond =>
    exact .ite (fun _ => Res.finish_ends (store_accessed ..) fun _ _ g => g.advance.setFlags) fun _ => State.finishFlags_ends
  | sthhW f => cases f <;> exact State.finishStore_ends (store_accessed ..)
  | stdsp | stswpH | stswpW => exact State.finishStore_ends (store_accessed ..)
  | pushm => exact .ite (fun _ => State.finishEmptyList_ends) fun _ => State.finishStorePtr_ends (storeWords_accessed ..)
  | popm => exact .ite (fun _ => State.finishEmptyList_ends) fun _ => Res.finish_ends (loadWords_accessed ..) fun _ _ g => g.finishPop
  | ldm =>
    exact .ite (fun _ => State.finishEmptyList_ends) fun _ => Res.finish_ends (loadWords_accessed ..) fun _ _ g => g.drawFree.finishPop
  | stm => exact execStm_ends
  | ldmts => exact execLdmts_ends
  | stmts => exact execStmts_ends
  | csrf | ssrf => exact .requireRight fun may => .next ((AppKeeps.refl s).advance.writeSrBit may)
  | csrfcz => exact .requireRight fun _ => State.finishFlags_ends
  | breakpoint => exact .ite (fun _ => .next nofun) fun _ => State.finishNop_ends
  | frs | pref | nop => exact State.finishNop_ends
  | cache => exact .requireRight fun _ => State.finishNop_ends
  | mfsr => exact execMfsr_ends
  | mtsr => exact .requireRight fun may => .next ((AppKeeps.refl s).advance.writeSysReg may)
  | mfdr =>
    exact .requireRight fun privileged => .ite (fun _ => State.finishReg_ends) fun _ => .next (.of_privileged privileged)
  | mtdr | retd | sleep => exact .requireRight fun privileged => .next (.of_privileged privileged)
  | scall => exact execScall_ends
  | sscall => exact .requireUnit fun _ => .next nofun
  | rete => exact execRete_ends
  | rets => exact execRets_ends
  | retss => exact .requireUnit fun _ => .requireRight fun _ => .next nofun
  | sync => exact .next ((AppKeeps.refl s).step fun g => { g with })
  | tlbr => exact .requireTlb fun privileged => .ite (fun _ => .next (.of_privileged privileged)) fun _ => .next (.of_privileged privileged)
  | tlbs | tlbw => exact .requireTlb fun privileged => .next (.of_privileged privileged)
  | cop => exact .requireCop (.next (AppKeeps.refl s).advance.setCopReg.setFlags)
  | ldcD f =>
    cases f with
    | formI | formIII => exact .requireCop (Res.finish_ends (loadDouble_accessed ..) fun _ _ g => g.advance.setCopPair)
    | formII => exact .requireCop (Res.finish_ends (loadDouble_accessed ..) fun _ _ g => g.advance.setCopPair.setReg)
  | ldcW f =>
    cases f with
    | formI | formIII => exact .requireCop (Res.finish_ends (loadWord_accessed ..) fun _ _ g => g.advance.setCopReg)
    | formII => exact .requireCop (Res.finish_ends (loadWord_accessed ..) fun _ _ g => g.advance.setCopReg.setReg)
  | ldc0D => exact .requireCop (Res.finish_ends (loadDouble_accessed ..) fun _ _ g => g.advance.setCopPair)
  | ldc0W => exact .requireCop (Res.finish_ends (loadWord_accessed ..) fun _ _ g => g.advance.setCopReg)
  | ldcmD => exact .requireCop State.copLoadMany_ends
  | ldcmW f => cases f <;> exact .requireCop State.copLoadMany_ends
  | mvcrD => exact .requireCop (.ite (fun _ => .next (AppKeeps.refl s).advance.setPair) fun _ => .next (AppKeeps.refl s).advance.freeRegs)
  | mvcrW => exact .requireCop State.finishReg_ends
  | mvrcD =>
    exact .requireCop (.ite (fun _ => .next (AppKeeps.refl s).advance.setCopPair) fun _ => .next (AppKeeps.refl s).advance.freeCopRegs)
  | mvrcW => exact .requireCop (.next (AppKeeps.refl s).advance.setCopReg)
  | stcD f =>
    cases f with
    | formI | formIII => exact .requireCop (State.finishStore_ends (storeCopPair_accessed ..))
    | formII => exact .requireCop (State.finishStorePtr_ends (storeCopPair_accessed ..))
  | stcW f =>
    cases f with
    | formI | formIII => exact .requireCop (State.finishStore_ends (store_accessed ..))
    | formII => exact .requireCop (State.finishStorePtr_ends (store_accessed ..))
  | stc0D => exact .requireCop (State.finishStore_ends (storeCopPair_accessed ..))
  | stc0W => exact .requireCop (State.finishStore_ends (store_accessed ..))
  | stcmD => exact .requireCop State.copStoreMany_ends
  | stcmW f => cases f <;> exact .requireCop State.copStoreMany_ends
  | incjosp imm => exact execIncjosp_ends imm
  | popjc => exact .requireUnit fun _ => Res.finish_ends (loadEach_accessed ..) fun _ _ g => (g.advance (n := 2#32)).of_java
  | pushjc => exact .requireUnit fun _ => State.finishStore_ends (storeWords_accessed ..)
  | retj => exact .requireUnit fun _ => .next nofun
  | memc | mems | memt => exact State.modifyWord_ends
  | xchg => exact execXchg_ends

/-- Settles O11: an instruction that takes no event keeps the rest, whichever way it ends. -/
theorem applicationKeepsSystemState : Obligations.ApplicationKeepsSystemState := by
  intro i s t app _ stays run untaken
  have ends := exec_ends i s
  rw [run] at ends
  have kept := ends.resolve_right (absurd untaken) stays app
  exact ⟨kept.high, kept.ctl, kept.ret, kept.timer, kept.perf, kept.mpu, kept.sec, kept.impl, kept.debug, kept.tlbehi, kept.tlbelo, kept.ptbr,
    kept.tlbear, kept.mmucr, kept.spSys, kept.spSec, kept.int0, kept.int1, kept.int2, kept.int3, kept.sleeping⟩

/-! ## AVR32B -/

section
variable (archB : s.cfg.archB = true)
include archB

/-- Where entries write registers alone, what ends never faults. -/
theorem Ends.safe {o : Out} (h : Ends free refusal s o) : Safe o := by
  rintro f rfl
  exact absurd (archB.symm.trans h) nofun

theorem takeEvent_safe (e : Event) (ra : Word) : Safe (takeEvent e ra s) := by
  rw [takeEvent_archB archB]
  nofun

theorem perform_safe (i : Instr) : Safe (perform i s) :=
  iteInduction (motive := Safe) (fun _ => (exec_ends i s).safe archB) fun _ => takeEvent_safe archB _ _

end

theorem Safe.onNext {o : Out} (h : Safe o) (f : State → State) : Safe (onNext f o) := by
  cases o with
  | next t => nofun
  | fault r => exact absurd rfl (h r)
  | refused r => nofun

theorem runAtPc_safe (archB : s.cfg.archB = true) : Safe (runAtPc s) := by
  have fetched := fetchCode_accessed s
  unfold runAtPc
  cases code : fetchCode s with
  | raise e s1 =>
    rw [code] at fetched
    exact (takeEvent_safe (fetched.cfg ▸ archB) _ _).onNext _
  | ok c s1 =>
    rw [code] at fetched
    have archB1 : s1.cfg.archB = true := fetched.cfg ▸ archB
    dsimp only
    cases decodeCode c with
    | none => exact (takeEvent_safe archB1 _ _).onNext _
    | some i => exact iteInduction (motive := Safe) (fun _ => nofun) fun _ => (perform_safe archB1 i).onNext _

theorem State.clearPending_cfg (s : State) (e : Event) : (s.clearPending e).cfg = s.cfg := by
  cases e <;> rfl

/-- The boundary refuses, waits, takes an event, or runs what is fetched. -/
theorem stepSampled_safe (archB : s.cfg.archB = true) : Safe (stepSampled s) := by
  unfold stepSampled
  refine iteInduction (motive := Safe) (fun _ => nofun) fun _ => iteInduction (motive := Safe) (fun _ => nofun) fun _ =>
    iteInduction (motive := Safe) (fun _ => nofun) fun _ => ?_
  cases s.pendingEvent with
  | some e => exact (takeEvent_safe ((s.clearPending_cfg e).symm ▸ archB) _ _).onNext _
  | none =>
    exact iteInduction (motive := Safe) (fun _ => nofun) fun _ => iteInduction (motive := Safe) (fun _ => nofun) fun _ =>
      iteInduction (motive := Safe) (fun _ => nofun) fun _ => runAtPc_safe archB

/-- Settles O14: of the ways an instruction ends, AVR32B has no fault and incjosp the only refusal. -/
theorem stopsAreRare : Obligations.StopsAreRare := by
  refine ⟨fun s archB => stepSampled_safe (s.sample_cfg ▸ archB), fun i s r refused => ?_⟩
  have ends := exec_ends i s
  rwa [refused] at ends

end Sys2Proof.Machine
end

section
/-! PROOFS. O16: what the logic, bit and shift instructions leave. Each ends with the write of a register and of flags, or of flags alone; a field
that does not exist leaves any value in the same ones (43_logic_bit.md, 44_shift.md). -/

namespace Sys2Proof.Machine

/-- The undefined value of a field past the word goes where its value would (93_implementation_defined.md U43). -/
theorem CompletesWriting.finishField {i : Instr} {s : State} {d : RegNo} {bp wd : BitVec 5} {r : Word} (hlen : s.pc + 4#32 = s.after i := by rfl) :
    CompletesWriting i s (s.finishField d bp wd r) [d] nzc :=
  .ite (.finishReg (hlen := hlen))
    ⟨_, rfl, hlen ▸ (((WritesOnly.advance s 4#32 [d] []).setReg (List.mem_singleton_self d) s.free).setFlags _).drawFree 2⟩

theorem logic_completes (i : Instr) (ds : List RegNo) (bits : List Nat) (named : logicFrame i = some (ds, bits)) (s : State)
    (present : unitPresent i s.cfg = true) : CompletesWriting i s (exec i s) ds bits := by
  cases i with
  | and f | eor f | or f | asr f | lsl f | lsr f => cases f <;> cases named <;> exact .finishReg
  | andCond | eorCond | orCond => cases named; exact .requireUnit present (.ifCond .finishReg)
  | andn | andh | andl | com | eorh | eorl | orh | orl | brev | bst | castsB | castsH | castuB | castuH | cbr | clz | sbr | swapB | swapBh
  | swapH | rol | ror => cases named; exact .finishReg
  | tst | bld => cases named; exact .finishFlags
  | bfexts | bfextu | bfins => cases named; exact .finishField
  | _ => cases named

/-- Settles O16: each instruction of the list by the way it ends. -/
theorem logicBitShiftFrame : Obligations.LogicBitShiftFrame := keepsRest_of logic_completes

end Sys2Proof.Machine
end

section
/-! PROOFS. O1, O2 and O6: the step at a boundary that nothing interrupts runs what the bytes at the PC encode, and under the reset line it leaves
the state of reset. -/

namespace Sys2Proof.Machine

variable {s s1 : State}

/-! ## The decoded instruction -/

theorem runAtPc_decoded {code : Code} {i : Instr} (hf : fetchCode s = .ok code s1) (hd : decodeCode code = some i)
    (remap : s1.srBit bitR = true → ignoresRemap i = true) :
    runAtPc s = onNext (fun t => (t.hazard i s1).clock s1 (completes i s1)) (perform i s1) := by
  have runs : ¬ (s1.srBit bitR && !ignoresRemap i) = true := by
    cases mapped : s1.srBit bitR with
    | false => nofun
    | true => rw [remap mapped]; nofun
  simp only [runAtPc, hf, hd, runInstr, if_neg runs]

/-- Settles O1: the fetch keeps the configuration, so that the revision is that of `s`. -/
theorem stepRunsDecodedInstruction : Obligations.StepRunsDecodedInstruction := by
  intro s s1 code i reset stopped ocd pending breakpoint awake java hf hd remap
  have access := fetchCode_accessed s.sample
  rw [hf] at access
  have cfg : s1.cfg = s.cfg := access.cfg
  rw [step_uninterrupted ⟨reset, stopped, ocd, pending, breakpoint, awake, java⟩, runAtPc_decoded hf hd remap, perform, cfg]
  rfl

/-! ## The bytes at the PC -/

/-- A halfword on a machine of physical addresses (20_memory.md R206, R211). -/
theorem fetchHalf_direct (direct : Direct s) {va : Word} (even : va.getLsbD 0 = false) (backed : Backed s va 2) :
    fetchHalf va s = .ok (cat 16 (s.byteAt va) (s.byteAt (va + 1#32))) s := by
  obtain ⟨mmut, secure⟩ := direct
  have answers {pa : Word} (hb : backedAt s.cfg pa = true) : s.busAnswers .fetch pa = true := by simp [State.busAnswers, hb, secure]
  have first := backed 0 (by decide)
  rw [BitVec.add_zero] at first
  rw [fetchHalf, if_neg (by rw [even]; nofun), translate, mmut]
  simp only [Res.bind, answers first, answers (backed 1 (by decide)), Bool.and_self, if_true]

theorem Backed.mono {va : Word} {n m : Nat} (h : Backed s va n) (le : m ≤ n) : Backed s va m := fun k hk => h k (hk.trans_le le)

/-- The bytes behind the first `k`. -/
theorem Backed.drop {va : Word} {n m k : Nat} (h : Backed s va n) (le : k + m ≤ n) : Backed s (va + BitVec.ofNat 32 k) m := fun j hj => by
  rw [BitVec.add_assoc, ← BitVec.ofNat_add]
  exact h (k + j) (by omega)

/-- The bytes of a code that decodes are fetched as that code, whatever lies behind them (30_encoding.md R351, R352). -/
theorem fetchCode_direct (direct : Direct s) (even : s.pc.getLsbD 0 = false) {code : Code} {i : Instr} (decodes : decodeCode code = some i)
    (backed : Backed s s.pc code.bytes.length) (bytes : readBytes s.mem s.pc code.bytes.length = code.bytes) : fetchCode s = .ok code s := by
  cases code with
  | half c =>
    simp only [decodeCode, Option.ite_none_left_eq_some] at decodes
    simp only [Code.bytes, List.length_cons, List.length_nil, readBytes, List.cons.injEq, and_true] at bytes
    obtain ⟨high, low⟩ := bytes
    have code : cat 16 (s.byteAt s.pc) (s.byteAt (s.pc + 1#32)) = c := (cat_eq_iff rfl).mpr ⟨high, low⟩
    rw [fetchCode, fetchHalf_direct direct even backed, code]
    exact if_neg decodes.1
  | word w =>
    simp only [Code.bytes, List.length_cons, List.length_nil, readBytes, List.cons.injEq, and_true, BitVec.add_assoc, BitVec.reduceAdd] at bytes
    obtain ⟨b3, b2, b1, b0⟩ := bytes
    have first : cat 16 (s.byteAt s.pc) (s.byteAt (s.pc + 1#32)) = w.extractLsb' 16 16 :=
      (congrArg₂ (cat 16) b3 b2).trans (cat_extract w rfl rfl)
    have second : cat 16 (s.byteAt (s.pc + 2#32)) (s.byteAt (s.pc + 2#32 + 1#32)) = w.extractLsb' 0 16 := by
      rw [BitVec.add_assoc]
      exact (congrArg₂ (cat 16) b1 b0).trans (cat_extract w rfl rfl)
    have even2 : (s.pc + 2#32).getLsbD 0 = false := by rw [BitVec.getLsbD_add (by decide), even, BitVec.carry_zero]; rfl
    have whole : cat 32 (w.extractLsb' 16 16) (w.extractLsb' 0 16) = w := (cat_eq_iff rfl).mpr ⟨rfl, rfl⟩
    rw [fetchCode, fetchHalf_direct direct even (Backed.mono (n := 4) backed (by decide)), first, Res.bind, if_pos (isExtended_of_decodeWord decodes),
      fetchHalf_direct direct even2 (Backed.drop (n := 4) (k := 2) backed (by decide)), second, Res.bind, whole]

/-- Where no input is asserted and no bus error waits, nothing interrupts a core that runs. -/
theorem uninterrupted_quiet (quiet : s.env.headD Sample.quiet = Sample.quiet) (noErr : s.busErr = []) (awake : s.sleeping = none)
    (stopped : s.ocdStopped = false) (java : s.srBit bitJ = false) : Uninterrupted s := by
  have inputs : s.inputs = Sample.quiet := quiet
  refine ⟨by rw [inputs]; rfl, stopped, by rw [inputs]; exact Bool.and_false _, ?_, ?_, awake, java⟩
  · simp [State.pendingEvent, State.reportedBusError, State.nmiAccepted, State.intAccepted, inputs, noErr, Sample.quiet]
  · simp [State.breakAccepted, inputs, Sample.quiet]

/-- Settles O2: the bytes at the PC are the code of the instruction, which decodes to it. -/
theorem stepRunsBytesAtPc : Obligations.StepRunsBytesAtPc := by
  intro s i wf direct even backed bytes quiet noErr awake stopped java remap
  have inputs : s.inputs = Sample.quiet := quiet
  have mem : s.sample.mem = s.mem := State.sample_mem_quiet (by rw [inputs]; rfl)
  have decodes := Laws.DecodeEncode.decodeCode_encodeCode i wf
  have fetched : fetchCode s.sample = .ok (encodeCode i) s.sample := fetchCode_direct (s := s.sample) direct even decodes backed (by rw [mem]; exact bytes)
  rw [step_uninterrupted (uninterrupted_quiet quiet noErr awake stopped java),
    runAtPc_decoded fetched decodes fun mapped => absurd (remap.symm.trans mapped) nofun]
  rfl

/-! ## Reset -/

theorem State.resetOf_atReset (cfg : Params) : AtReset (State.resetOf cfg) := by
  have sr : (State.resetOf cfg).sr = if cfg.resetSS then 0x80610000#32 else 0x00610000#32 := rfl
  refine ⟨rfl, ?mode, ?em, ?gm, ?ss, ?clear, rfl, rfl, rfl, rfl, rfl, rfl, rfl, rfl, ?segmentation, ?paging, BitVec.getLsbD_zero, ?tlbs, rfl, ?regions, rfl, rfl, rfl, rfl, rfl, rfl⟩
  case mode => rw [State.mode, sr]; cases cfg.resetSS <;> rfl
  case em => rw [State.srBit, sr]; cases cfg.resetSS <;> rfl
  case gm => rw [State.srBit, sr]; cases cfg.resetSS <;> rfl
  case ss => rw [State.srBit, sr]; show _ = cfg.resetSS; cases cfg.resetSS <;> rfl
  case clear => simp only [State.srBit, sr]; cases cfg.resetSS <;> decide
  case segmentation => exact (by decide : (0x00000010#32 : Word).getLsbD 4 = true)
  case paging => exact (by decide : (0x00000010#32 : Word).getLsbD 0 = false)
  case tlbs => intro n h; simp [State.resetOf, TlbEntry.invalid]
  case regions => intro n h; simp [State.resetOf]

/-- The line is looked at before anything that could mask it (60_exceptions.md R1061). -/
theorem step_reset (line : s.inputs.reset = true) : step s = .next s.sample.resetEvent := by
  rw [step, stepSampled, State.sample_now, if_pos line]

/-- Settles O6: what a reset during a run keeps is outside the state of reset. -/
theorem resetLeavesResetState : Obligations.ResetLeavesResetState :=
  ⟨State.resetOf_atReset, fun s line => ⟨_, step_reset line, State.resetOf_atReset s.cfg, rfl, rfl⟩⟩

end Sys2Proof.Machine
end

section
/-! PROOFS. O45, O46 : the entry of an event, its SR, its handler and where it saves. -/

namespace Sys2Proof.Machine

/-! ## SR after an entry -/

/-- `setMode` writes bits 22 to 24 and no other. -/
theorem getLsbD_setMode_eq {w : Word} {m : BitVec 3} {n : Nat} (hn : n < 32) :
    (setMode w m).getLsbD n = if 22 ≤ n ∧ n ≤ 24 then m.getLsbD (n - 22) else w.getLsbD n := by
  have mask : (0xFE3FFFFF#32 : Word).getLsbD n = !decide (22 ≤ n ∧ n ≤ 24) := by revert n; decide
  have field : (m.setWidth 32 <<< 22 : Word).getLsbD n = (decide (22 ≤ n ∧ n ≤ 24) && m.getLsbD (n - 22)) := by
    revert n m; decide
  rw [setMode, BitVec.getLsbD_or, BitVec.getLsbD_and, mask, field]
  by_cases h : 22 ≤ n ∧ n ≤ 24 <;> simp [h]

/-- The mode reads back. -/
theorem extractLsb'_setMode (w : Word) (m : BitVec 3) : (setMode w m).extractLsb' 22 3 = m := by
  ext n hn
  rw [BitVec.getElem_extractLsb', getLsbD_setMode_eq (by omega), if_pos (by omega), Nat.add_sub_cancel_left, BitVec.getLsbD_eq_getElem hn]

/-- R and J cleared and the mode made `m`, before the masks are set. -/
theorem getLsbD_entryMode {sr : Word} {m : BitVec 3} {n : Nat} (hn : n < 32) :
    (setMode (setBit (setBit sr bitR false) bitJ false) m).getLsbD n =
      if n = bitR ∨ n = bitJ then false else if 22 ≤ n ∧ n ≤ 24 then m.getLsbD (n - 22) else sr.getLsbD n := by
  rw [getLsbD_setMode_eq hn, getLsbD_setBit hn, getLsbD_setBit hn]
  simp only [bitR, bitJ]
  grind

/-- An exception or NMI sets EM and GM. -/
theorem getLsbD_exceptionMasks {w : Word} {n : Nat} (hn : n < 32) :
    (setBit (setBit w bitEM true) bitGM true).getLsbD n = if decide (n = bitEM ∨ n = bitGM) = true then true else w.getLsbD n := by
  rw [getLsbD_setBit hn, getLsbD_setBit hn]
  grind

/-- An interrupt of level `l` masks the levels up to its own. -/
theorem getLsbD_interruptMasks {w v : Word} {l : BitVec 2} {n : Nat} (hn : n < 32) :
    ((Event.interrupt l v).setMasks w).getLsbD n =
      if decide (bitI0M ≤ n ∧ n ≤ bitI0M + l.toNat) = true then true else w.getLsbD n := by
  have set (p : Prop) [Decidable p] (w : Word) (k : Nat) :
      (if p then setBit w k true else w).getLsbD n = if p ∧ n = k then true else w.getLsbD n := by
    by_cases hp : p <;> simp [hp, getLsbD_setBit hn]
  have := l.isLt
  simp only [Event.setMasks, set, getLsbD_setBit hn, bitI0M, bitI1M, bitI2M, bitI3M]
  grind

theorem entrySr_of_masks {sr w : Word} {m : BitVec 3} {masks : Nat → Bool}
    (set : ∀ n, n < 32 → w.getLsbD n =
      if masks n = true then true else (setMode (setBit (setBit sr bitR false) bitJ false) m).getLsbD n)
    (apart : ∀ n, masks n = true → n ≠ bitR ∧ n ≠ bitJ ∧ ¬ (22 ≤ n ∧ n ≤ 24)) {n : Nat} (hn : n < 32) :
    w.getLsbD n = if n = bitR ∨ n = bitJ then false else if 22 ≤ n ∧ n ≤ 24 then m.getLsbD (n - 22)
      else if masks n = true then true else sr.getLsbD n := by
  rw [set n hn, getLsbD_entryMode hn]
  by_cases h : masks n = true
  · obtain ⟨notR, notJ, notMode⟩ := apart n h
    simp [h, notR, notJ, notMode]
  · simp [h]

/-- SR after the entry of an event, bit by bit. -/
theorem Event.entrySr_entry (e : Event) (sr : Word) : EntrySr e sr (e.entrySr sr) := by
  have exception (m : BitVec 3) {n : Nat} (hn : n < 32) :=
    entrySr_of_masks (sr := sr) (m := m) (masks := fun n => decide (n = bitEM ∨ n = bitGM)) (fun _ h => getLsbD_exceptionMasks h)
      (fun n h => by have := of_decide_eq_true h; simp only [bitEM, bitGM, bitR, bitJ] at this ⊢; omega) hn
  intro n hn
  cases e with
  | interrupt l v =>
    have level : l.setWidth 3 + 2#3 = BitVec.ofNat 3 (l.toNat + 2) := by decide +revert
    have := l.isLt
    exact (entrySr_of_masks (masks := fun n => decide (bitI0M ≤ n ∧ n ≤ bitI0M + l.toNat)) (fun _ h => getLsbD_interruptMasks h)
      (fun n h => by have := of_decide_eq_true h; simp only [bitI0M, bitR, bitJ] at this ⊢; omega) hn).trans (by rw [Event.mode, level])
  | nmi => exact exception 7#3 hn
  | _ => exact exception 6#3 hn

/-! ## The handler and the registers of an entry -/

theorem State.handler_at (s : State) (e : Event) : HandlerAt e s (s.handler e &&& 0xFFFFFFFE#32) := by
  unfold HandlerAt State.handler resetAddress
  cases e <;> rfl

theorem ecr_offset (w : Word) : (w.setWidth 9 >>> 2).setWidth 32 = BitVec.ofNat 32 (w.toNat % 512 / 4) := by
  apply BitVec.eq_of_toNat_eq
  simp only [BitVec.toNat_setWidth, BitVec.toNat_ushiftRight, BitVec.toNat_ofNat, Nat.shiftRight_eq_div_pow]

theorem State.enterHandler_ctl (s : State) (e : Event) : ∃ bear, (s.enterHandler e).ctl =
    { s.ctl with bear := bear, ecr := if hasEcr s.cfg then BitVec.ofNat 32 (e.offset.toNat % 512 / 4) else s.ctl.ecr } := by
  obtain ⟨_, _, _, bear, _, h⟩ := s.record_frame e
  exact ⟨bear, by rw [State.enterHandler, h, ecr_offset]⟩

/-- An event enters no mode below 2. -/
theorem Event.mode_ge (e : Event) : 2 ≤ e.mode.toNat := by
  cases e with
  | interrupt l v => exact (by decide : ∀ l : BitVec 2, 2 ≤ (l.setWidth 3 + 2#3).toNat) l
  | nmi => exact (by decide : 2 ≤ (7#3).toNat)
  | _ => exact (by decide : 2 ≤ (6#3).toNat)

theorem ReturnRegs.saved_save_same (r : ReturnRegs) {m : BitVec 3} (h : 2 ≤ m.toNat) (sr ra : Word) :
    (r.save m sr ra).saved m = (sr, ra) := by
  obtain ⟨k, hk⟩ := m
  have : ∀ k, k < 8 → 2 ≤ k → k = 2 ∨ k = 3 ∨ k = 4 ∨ k = 5 ∨ k = 6 ∨ k = 7 := by omega
  obtain rfl | rfl | rfl | rfl | rfl | rfl := this k hk h <;> rfl

/-- The pairs of the other contexts keep their values; modes 0 and 1 name the one of `scall`. -/
theorem ReturnRegs.saved_save_other (r : ReturnRegs) {m m' : BitVec 3} (h : 2 ≤ m.toNat) (hne : m' ≠ m) (sr ra : Word) :
    (r.save m sr ra).saved m' = r.saved m' := by
  have numbers (m : BitVec 3) : m = 0#3 ∨ m = 1#3 ∨ m = 2#3 ∨ m = 3#3 ∨ m = 4#3 ∨ m = 5#3 ∨ m = 6#3 ∨ m = 7#3 := by
    decide +revert
  obtain rfl | rfl | rfl | rfl | rfl | rfl | rfl | rfl := numbers m
  all_goals first
    | exact absurd h (by decide)
    | obtain rfl | rfl | rfl | rfl | rfl | rfl | rfl | rfl := numbers m' <;> first | rfl | exact absurd rfl hne

/-- No entry touches the debug pair. -/
theorem ReturnRegs.save_debug (r : ReturnRegs) (m : BitVec 3) (sr ra : Word) :
    (r.save m sr ra).rsrDbg = r.rsrDbg ∧ (r.save m sr ra).rarDbg = r.rarDbg := by
  unfold ReturnRegs.save
  split <;> exact ⟨rfl, rfl⟩

theorem State.readPhys_ret (s : State) (r : ReturnRegs) (p : PhysReg) : ({ s with ret := r } : State).readPhys p = s.readPhys p := by
  cases p with
  | bank c i => cases c <;> rfl
  | _ => rfl

/-- Settles O45: an entry into AVR32B is the saving of SR and the address in the return registers of its context, then the handler. -/
theorem eventEntrySavesInRegisters : Obligations.EventEntrySavesInRegisters := by
  unfold Obligations.EventEntrySavesInRegisters
  intro e ra s hb
  obtain ⟨rsrDbg, rarDbg⟩ := s.ret.save_debug e.mode s.sr ra
  refine ⟨({ s with ret := s.ret.save e.mode s.sr ra } : State).enterHandler e, by rw [enterEvent, if_pos hb], ?_⟩
  obtain ⟨bear, ctl⟩ := State.enterHandler_ctl { s with ret := s.ret.save e.mode s.sr ra } e
  rw [State.enterHandler_ret, ctl]
  exact ⟨s.ret.saved_save_same e.mode_ge _ _, fun m hm => s.ret.saved_save_other e.mode_ge hm _ _, rsrDbg, rarDbg,
    e.entrySr_entry s.sr, s.handler_at e, rfl, rfl, rfl,
    fun p _ hp _ => (State.enterHandler_readPhys _ e p hp).trans (s.readPhys_ret _ p), State.enterHandler_mem _ e, rfl⟩

/-! ## Words pushed on the system stack -/

/-- Memory after the words have been pushed downwards from `sp`. -/
def pushed (m : List Host.Cell) (sp : Word) : List Word → List Host.Cell
  | [] => m
  | v :: vs => pushed (writeBytes m (sp - 4#32) (bytesOfWord v 4)) (sp - 4#32) vs

theorem sub_four_sub (sp : Word) (n : Nat) : sp - 4#32 - BitVec.ofNat 32 (4 * n) = sp - BitVec.ofNat 32 (4 * (n + 1)) := by
  rw [Nat.mul_succ, Nat.add_comm, BitVec.ofNat_add, BitVec.sub_sub]

/-- The pushes of an entry are writes of `pushed`, where the stack is aligned and backed. -/
theorem pushWords_direct {s : State} (direct : Direct s) {sp : Word} {ws : List Word} (ha : sp.toNat % 4 = 0)
    (hb : ∀ k, k < ws.length → Backed s (sp - BitVec.ofNat 32 (4 * (k + 1))) 4) :
    pushWords sp ws s = .ok () { s with mem := pushed s.mem sp ws } := by
  induction ws generalizing s sp with
  | nil => rfl
  | cons v vs ih =>
    have ha' : (sp - 4#32).toNat % 4 = 0 := by rw [BitVec.toNat_sub]; simp; omega
    have hc := checkAccess_direct direct.1 .write true .eventEntry ((aligned_word_iff (.inl rfl)).mpr ha')
    have bus := direct.busErrorIn (k := .write) nofun (hb 0 (by simp))
    have first : bytesOfWord v 4 = (bytesOfWord v 4).take 4 := rfl
    have rest := ih (s := { s with mem := writeBytes s.mem (sp - 4#32) (bytesOfWord v 4) }) direct ha' fun k hk => by
      rw [sub_four_sub]; exact hb (k + 1) (by simpa using hk)
    simp only [pushWords, hc, Res.bind, pushed]
    rw [show (if (4 : Nat) = 8 then [(sp - 4#32, 4), (sp - 4#32 + 4#32, 4)] else [(sp - 4#32, 4)]) = [(sp - 4#32, 4)] from rfl]
    simp only [Nat.zero_add, Nat.mul_one] at bus
    rw [bus]
    exact rest

theorem pushed_wf {m : List Host.Cell} {sp : Word} {ws : List Word} (h : Memory.wf m = true) : Memory.wf (pushed m sp ws) = true := by
  induction ws generalizing m sp with
  | nil => exact h
  | cons v vs ih => exact ih (writeBytes_wf h)

/-- A byte of none of the words pushed keeps its value. -/
theorem read_pushed_outside {m : List Host.Cell} {sp a : Word} {ws : List Word} (h : Memory.wf m = true)
    (ha : ∀ k, k < ws.length → ¬ inRange (sp - BitVec.ofNat 32 (4 * (k + 1))) 4 a) :
    Memory.read (pushed m sp ws) a.toNat = Memory.read m a.toNat := by
  induction ws generalizing m sp with
  | nil => rfl
  | cons v vs ih =>
    rw [pushed, ih (writeBytes_wf h), read_writeBytes_outside h]
    · exact ha 0 (by simp)
    · intro k hk
      rw [sub_four_sub]
      exact ha (k + 1) (by simpa using hk)

/-- Each word pushed lies at its place below `sp`. -/
theorem wordOfBytes_pushed {m : List Host.Cell} {sp : Word} {ws : List Word} (h : Memory.wf m = true) (ha : sp.toNat % 4 = 0)
    (hn : 4 * ws.length ≤ 2 ^ 32) {k : Nat} {v : Word} (hk : ws[k]? = some v) :
    wordOfBytes (readBytes (pushed m sp ws) (sp - BitVec.ofNat 32 (4 * (k + 1))) 4) = v := by
  induction ws generalizing m sp k with
  | nil => simp at hk
  | cons w ws ih =>
    have ha' : (sp - 4#32).toNat % 4 = 0 := by rw [BitVec.toNat_sub]; simp; omega
    rw [List.length_cons] at hn
    cases k with
    | zero =>
      obtain rfl : w = v := by simpa using hk
      have later : readBytes (pushed (writeBytes m (sp - 4#32) (bytesOfWord w 4)) (sp - 4#32) ws) (sp - 4#32) 4 =
          readBytes (writeBytes m (sp - 4#32) (bytesOfWord w 4)) (sp - 4#32) 4 := by
        refine readBytes_congr fun i hi => read_pushed_outside (writeBytes_wf h) fun k hk => ?_
        have below : (sp - 4#32 - BitVec.ofNat 32 (4 * (k + 1))).toNat % 4 = 0 := by
          rw [BitVec.toNat_sub]; simp only [BitVec.toNat_ofNat]; omega
        refine not_inRange_of_aligned below ha' (fun e => ?_) hi
        have e := congrArg BitVec.toNat e
        have := (sp - 4#32).isLt
        rw [BitVec.toNat_sub (sp - 4#32)] at e
        simp only [BitVec.toNat_ofNat] at e
        omega
      rw [pushed, Nat.zero_add, Nat.mul_one, later]
      exact (congrArg wordOfBytes (readBytes_writeBytes (bs := bytesOfWord w 4) h (by simp [bytesOfWord]))).trans (wordOfBytes_bytesOfWord w)
    | succ k =>
      rw [← sub_four_sub, pushed]
      exact ih (writeBytes_wf h) ha' (by omega) (by simpa using hk)

/-- The words pushed lie in the block below `sp`. -/
theorem inRange_pushed {sp a : Word} {n k : Nat} (hk : k < n) (h : inRange (sp - BitVec.ofNat 32 (4 * (k + 1))) 4 a) :
    inRange (sp - BitVec.ofNat 32 (4 * n)) (4 * n) a := by
  obtain ⟨i, hi, rfl⟩ := h
  refine ⟨4 * (n - 1 - k) + i, by omega, ?_⟩
  have split : 4 * n = 4 * (k + 1) + 4 * (n - 1 - k) := by omega
  rw [split, BitVec.ofNat_add, BitVec.ofNat_add, ← BitVec.sub_sub]
  ring

/-! ## The entry of AVR32A -/

theorem State.setSystemSp_handler (s : State) (v : Word) (e : Event) : (s.setSystemSp v).handler e = s.handler e := by
  unfold State.setSystemSp
  split <;> rfl

theorem State.systemSp_setSystemSp (s : State) (v : Word) : (s.setSystemSp v).systemSp = v := by
  cases h : s.srBit bitSS <;> simp_all [State.setSystemSp, State.systemSp, State.srBit]

/-- An entry keeps SS and the stack pointers. -/
theorem State.enterHandler_systemSp (s : State) (e : Event) : (s.enterHandler e).systemSp = s.systemSp := by
  have hs : (s.enterHandler e).srBit bitSS = s.srBit bitSS := (e.entrySr_kept s.sr).secure
  have sec : (s.enterHandler e).spSec = s.spSec := s.enterHandler_readPhys e .spSec nofun
  have sys : (s.enterHandler e).spSys = s.spSys := s.enterHandler_readPhys e .spSys nofun
  rw [State.systemSp, State.systemSp, hs, sec, sys]

theorem State.readPhys_setSystemSp (s : State) (v : Word) {p : PhysReg} (h : p ≠ if s.srBit bitSS then .spSec else .spSys) :
    (s.setSystemSp v).readPhys p = s.readPhys p := by
  unfold State.setSystemSp
  split at h
  all_goals
    rename_i hs
    simp only [hs]
    cases p with
    | bank c i => cases c <;> rfl
    | _ => first | rfl | exact absurd rfl h

theorem State.readPhys_mem (s : State) (m : List Host.Cell) (p : PhysReg) : ({ s with mem := m } : State).readPhys p = s.readPhys p := by
  cases p with
  | bank c i => cases c <;> rfl
  | _ => rfl

/-- What an entry pushes is backed word by word where the block below the pointer is. -/
theorem Backed.pushedWord {s : State} {sp : Word} {n k : Nat} (h : Backed s (sp - BitVec.ofNat 32 (4 * n)) (4 * n)) (hk : k < n) :
    Backed s (sp - BitVec.ofNat 32 (4 * (k + 1))) 4 := by
  intro i hi
  obtain ⟨j, hj, e⟩ := inRange_pushed hk ⟨i, hi, rfl⟩
  rw [e]
  exact h j hj

/-- The state an entry of AVR32A leaves, with the `ws` pushed. -/
def State.enteredPushing (s : State) (e : Event) (ws : List Word) : State :=
  (({ s with mem := pushed s.mem s.systemSp ws } : State).setSystemSp (s.systemSp - BitVec.ofNat 32 (4 * ws.length))).enterHandler e

theorem State.enteredPushing_mem (s : State) (e : Event) (ws : List Word) : (s.enteredPushing e ws).mem = pushed s.mem s.systemSp ws := by
  rw [State.enteredPushing, State.enterHandler_mem, State.setSystemSp]
  split <;> rfl

theorem wordAt_enteredPushing {s : State} {e : Event} {ws : List Word} (wf : Memory.wf s.mem = true) (ha : s.systemSp.toNat % 4 = 0)
    (hn : 4 * ws.length ≤ 2 ^ 32) {k : Nat} {v a : Word} (hk : ws[k]? = some v) (at_ : a = s.systemSp - BitVec.ofNat 32 (4 * (k + 1))) :
    wordAt (s.enteredPushing e ws) a = v := by
  rw [wordAt, s.enteredPushing_mem, at_]
  exact wordOfBytes_pushed wf ha hn hk

theorem sameMemBut_enteredPushing {s : State} {e : Event} {ws : List Word} (wf : Memory.wf s.mem = true) :
    SameMemBut s (s.enteredPushing e ws) [(s.systemSp - BitVec.ofNat 32 (4 * ws.length), 4 * ws.length)] := by
  intro a ha
  rw [State.byteAt, s.enteredPushing_mem]
  exact read_pushed_outside wf fun k hk h => ha (touches_of_inRange (List.mem_singleton.mpr rfl) (inRange_pushed hk h))

theorem enterEvent_pushing {e : Event} {ra : Word} {s : State} (pushes : s.cfg.archB = false) (direct : Direct s)
    (ha : s.systemSp.toNat % 4 = 0)
    (hb : Backed s (s.systemSp - BitVec.ofNat 32 (4 * (s.frame e ra).length)) (4 * (s.frame e ra).length)) :
    enterEvent e ra s = .ok () (s.enteredPushing e (s.frame e ra)) := by
  rw [enterEvent, pushes, if_neg (by decide)]
  simp only
  rw [pushWords_direct direct ha fun k hk => hb.pushedWord hk]
  rfl

/-- What every entry of AVR32A leaves but the words it pushes. -/
theorem enteredPushing_frame (s : State) (e : Event) (ws : List Word) :
    (s.enteredPushing e ws).systemSp = s.systemSp - BitVec.ofNat 32 (4 * ws.length) ∧
    (∀ p : PhysReg, p.Real → p ≠ .pc → p ≠ (if s.srBit bitSS then .spSec else .spSys) →
      (s.enteredPushing e ws).readPhys p = s.readPhys p) ∧
    EntrySr e s.sr (s.enteredPushing e ws).sr ∧ HandlerAt e s (s.enteredPushing e ws).pc ∧ (s.enteredPushing e ws).ret = s.ret ∧
    (s.enteredPushing e ws).ctl.ecr = (if hasEcr s.cfg then BitVec.ofNat 32 (e.offset.toNat % 512 / 4) else s.ctl.ecr) ∧
    (s.enteredPushing e ws).taken = some e := by
  obtain ⟨u, hu⟩ : ∃ u, u = ({ s with mem := pushed s.mem s.systemSp ws } : State).setSystemSp
      (s.systemSp - BitVec.ofNat 32 (4 * ws.length)) := ⟨_, rfl⟩
  have kept : u.sr = s.sr ∧ u.ret = s.ret ∧ u.cfg = s.cfg ∧ u.ctl = s.ctl := by
    rw [hu, State.setSystemSp]; split <;> exact ⟨rfl, rfl, rfl, rfl⟩
  obtain ⟨sr, ret, cfg, ctl⟩ := kept
  obtain ⟨bear, record⟩ := u.enterHandler_ctl e
  have handler : u.handler e = s.handler e := by rw [hu, State.setSystemSp_handler]; rfl
  have entered : s.enteredPushing e ws = u.enterHandler e := by rw [State.enteredPushing, hu]
  rw [entered]
  refine ⟨?_, fun p _ hp hsp => ?_, ?_, ?_, ?_, ?_, rfl⟩
  · rw [State.enterHandler_systemSp, hu, State.systemSp_setSystemSp]
  · rw [State.enterHandler_readPhys _ e p hp, hu]
    exact (({ s with mem := pushed s.mem s.systemSp ws } : State).readPhys_setSystemSp _ hsp).trans (s.readPhys_mem _ p)
  · rw [State.enterHandler_sr, sr]; exact e.entrySr_entry s.sr
  · rw [State.enterHandler_pc, handler]; exact s.handler_at e
  · rw [State.enterHandler_ret, ret]
  · rw [record, cfg, ctl]

/-- Settles O46: on a machine of physical addresses the pushes of an entry succeed one by one, and each word lies where it was pushed. -/
theorem eventEntryPushesFrame : Obligations.EventEntryPushesFrame := by
  unfold Obligations.EventEntryPushesFrame
  intro e ra s pushes direct wf ha
  have address (a b : Nat) (hab : a ≤ b) (w : Word) : w - BitVec.ofNat 32 b + BitVec.ofNat 32 a = w - BitVec.ofNat 32 (b - a) := by
    obtain ⟨c, rfl⟩ := Nat.exists_eq_add_of_le hab
    rw [Nat.add_sub_cancel_left, BitVec.ofNat_add]; ring
  have exception (hf : s.frame e ra = [ra, s.sr]) (hb : Backed s (s.systemSp - 8#32) 8) :
      ∃ t, enterEvent e ra s = .ok () t ∧ t.systemSp = s.systemSp - 8#32 ∧ wordAt t (s.systemSp - 8#32) = s.sr ∧
        wordAt t (s.systemSp - 8#32 + 4#32) = ra ∧ SameMemBut s t [(s.systemSp - 8#32, 8)] ∧
        (∀ p : PhysReg, p.Real → p ≠ .pc → p ≠ (if s.srBit bitSS then .spSec else .spSys) → t.readPhys p = s.readPhys p) ∧
        EntrySr e s.sr t.sr ∧ HandlerAt e s t.pc ∧ t.ret = s.ret ∧
        t.ctl.ecr = (if hasEcr s.cfg then BitVec.ofNat 32 (e.offset.toNat % 512 / 4) else s.ctl.ecr) ∧ t.taken = some e := by
    obtain ⟨sp, rest⟩ := enteredPushing_frame s e [ra, s.sr]
    have bound : 4 * [ra, s.sr].length ≤ 2 ^ 32 := by simp
    refine ⟨_, hf ▸ enterEvent_pushing pushes direct ha (by rw [hf]; exact hb), sp, ?_, ?_, sameMemBut_enteredPushing wf, rest⟩
    · exact wordAt_enteredPushing wf ha bound (k := 1) rfl rfl
    · exact wordAt_enteredPushing wf ha bound (k := 0) rfl (address 4 8 (by decide) _)
  cases e with
  | interrupt l v =>
    intro interrupt size sp hb
    have bound : 4 * (s.frame (.interrupt l v) ra).length ≤ 2 ^ 32 := by simp [State.frame]
    obtain ⟨ptr, rest⟩ := enteredPushing_frame s (.interrupt l v) (s.frame (.interrupt l v) ra)
    refine ⟨_, enterEvent_pushing pushes direct ha hb, ptr, ?_, ?_, fun _ => ⟨?_, ?_, ?_, ?_, ?_, ?_⟩,
      sameMemBut_enteredPushing wf, rest⟩
    · exact wordAt_enteredPushing wf ha bound (k := 7) rfl rfl
    · exact wordAt_enteredPushing wf ha bound (k := 6) rfl (address 4 32 (by decide) _)
    · exact wordAt_enteredPushing wf ha bound (k := 5) rfl (address 8 32 (by decide) _)
    · exact wordAt_enteredPushing wf ha bound (k := 4) rfl (address 12 32 (by decide) _)
    · exact wordAt_enteredPushing wf ha bound (k := 3) rfl (address 16 32 (by decide) _)
    · exact wordAt_enteredPushing wf ha bound (k := 2) rfl (address 20 32 (by decide) _)
    · exact wordAt_enteredPushing wf ha bound (k := 1) rfl (address 24 32 (by decide) _)
    · exact wordAt_enteredPushing wf ha bound (k := 0) rfl (address 28 32 (by decide) _)
  | _ =>
    intro interrupt size sp hb
    obtain ⟨t, entered, ptr, sr, address, mem, rest⟩ := exception rfl hb
    exact ⟨t, entered, ptr, sr, address, nofun, mem, rest⟩

end Sys2Proof.Machine
end

section
/-! PROOFS. O47 : the offsets of the events, the mask EM, and what an entry records. -/

namespace Sys2Proof.Machine

/-! ## The event that is taken -/

theorem takeEvent_of_entry {e : Event} {ra : Word} {s t : State} (h : enterEvent (s.unmasked e) ra s = .ok () t) :
    takeEvent e ra s = .next t := by
  rw [takeEvent, h]

theorem State.unmasked_clear {s : State} (h : s.srBit bitEM = false) (e : Event) : s.unmasked e = e := by
  simp [State.unmasked, h]

theorem State.unmasked_unmaskable (s : State) {e : Event} (h : e.maskable = false) : s.unmasked e = e := by
  simp [State.unmasked, h]

theorem State.unmasked_masked {s : State} {e : Event} (he : e.maskable = true) (h : s.srBit bitEM = true) :
    s.unmasked e = .unrecoverable := by
  simp [State.unmasked, he, h]

theorem takeEvent_masked {e : Event} {s : State} (he : e.maskable = true) (h : s.srBit bitEM = true) (ra : Word) :
    takeEvent e ra s = takeEvent .unrecoverable ra s := by
  rw [takeEvent, takeEvent, State.unmasked_masked he h, s.unmasked_unmaskable rfl]

/-! ## What is recorded -/

/-- What `record` reads is the same in `u`, where the entry runs its handler, as in `s`. -/
structure RecordsFrom (s u : State) : Prop where
  cfg : u.cfg = s.cfg
  ctl : u.ctl = s.ctl
  mmu : ∃ itlb dtlb, u.mmu = { s.mmu with itlb := itlb, dtlb := dtlb }

/-- Saving the state, in registers or on the stack, touches nothing of it. -/
theorem enterEvent_records {e : Event} {ra : Word} {s t : State} (h : enterEvent e ra s = .ok () t) :
    ∃ u, RecordsFrom s u ∧ t = u.enterHandler e := by
  unfold enterEvent at h
  split at h
  · cases h
    exact ⟨{ s with ret := s.ret.save e.mode s.sr ra }, ⟨rfl, rfl, s.mmu.itlb, s.mmu.dtlb, rfl⟩, rfl⟩
  · simp only at h
    have accessed := pushWords_accessed s.systemSp (s.frame e ra) s
    cases hp : pushWords s.systemSp (s.frame e ra) s with
    | raise e' s1 => rw [hp] at h; cases h
    | ok a s1 =>
      rw [hp] at h accessed
      cases h
      obtain ⟨⟨_, _, itlb, dtlb, _, _, rfl⟩, _⟩ := accessed
      refine ⟨_, ⟨?_, ?_, itlb, dtlb, ?_⟩, rfl⟩ <;> unfold State.setSystemSp <;> split <;> rfl

theorem State.recordAddress_none {e : Event} (h : e.failingAddress = none) (s : State) : s.recordAddress e = s := by
  simp [State.recordAddress, h]

theorem State.recordAddress_noMmu {s : State} (h : hasMmu s.cfg = false) (e : Event) : s.recordAddress e = s := by
  unfold State.recordAddress
  split
  · rfl
  · rw [h]; rfl

theorem State.recordAddress_mmu {s : State} {e : Event} {va : Word} (h : e.failingAddress = some va) (hm : hasMmu s.cfg = true) :
    (s.recordAddress e).mmu =
      { s.mmu with
        tlbear := va,
        tlbehi := setBitIf (setBit ((s.mmu.tlbehi &&& 0x000003FF#32) ||| (va &&& 0xFFFFFC00#32)) 9 true) 8 e.tlbSide } := by
  simp [State.recordAddress, h, hm]

/-- TLBEAR and TLBEHI are all that the address moves. -/
theorem State.recordAddress_frame (s : State) (e : Event) : ∃ hi ear,
    s.recordAddress e = { s with mmu := { s.mmu with tlbehi := hi, tlbear := ear } } := by
  unfold State.recordAddress
  split
  · exact ⟨_, _, rfl⟩
  · simp only; split <;> exact ⟨_, _, rfl⟩

theorem State.recordReplacement_mmu (s : State) (e : Event) :
    (s.recordReplacement e).mmu = { s.mmu with mmucr := (s.recordReplacement e).mmu.mmucr } ∧ (s.recordReplacement e).ctl = s.ctl ∧
      (s.recordReplacement e).cfg = s.cfg := by
  unfold State.recordReplacement
  split
  · exact ⟨rfl, rfl, rfl⟩
  · simp only; split <;> exact ⟨rfl, rfl, rfl⟩

theorem State.recordBus_mmu (s : State) (e : Event) : (s.recordBus e).mmu = s.mmu := by
  unfold State.recordBus
  split
  · split <;> rfl
  · rfl

/-- The failure registers after an entry, as `recordAddress` leaves them. -/
theorem State.enterHandler_address (s : State) (e : Event) :
    (s.enterHandler e).mmu.tlbear = (s.recordAddress e).mmu.tlbear ∧ (s.enterHandler e).mmu.tlbehi = (s.recordAddress e).mmu.tlbehi := by
  have mmu : (s.enterHandler e).mmu = ((s.recordAddress e).recordReplacement e).mmu := State.recordBus_mmu _ e
  rw [mmu, (State.recordReplacement_mmu _ e).1]
  exact ⟨rfl, rfl⟩

/-- BEAR after an entry. -/
theorem State.enterHandler_bear (s : State) (e : Event) :
    (∀ pa, e = .busErrorData pa → (s.enterHandler e).ctl.bear = if hasBear s.cfg then pa else s.ctl.bear) ∧
    ((∀ pa, e ≠ .busErrorData pa) → (s.enterHandler e).ctl.bear = s.ctl.bear) := by
  obtain ⟨hi, ear, address⟩ := s.recordAddress_frame e
  obtain ⟨_, ctl, cfg⟩ := (s.recordAddress e).recordReplacement_mmu e
  rw [address] at ctl cfg
  have bear : (s.enterHandler e).ctl.bear = ((({ s with mmu := { s.mmu with tlbehi := hi, tlbear := ear } } : State).recordReplacement e).recordBus
      e).ctl.bear := by rw [← address]; rfl
  rw [bear]
  constructor
  · rintro pa rfl
    simp only [State.recordBus, cfg]
    split
    · rfl
    · rw [ctl]
  · intro other
    unfold State.recordBus
    split
    · exact absurd rfl (other _)
    · rw [ctl]

theorem recordsNoAddress_of {e : Event} {ra : Word} {s t : State} (entered : enterEvent e ra s = .ok () t)
    (h : e.failingAddress = none ∨ hasMmu s.cfg = false) : RecordsNoAddress s t := by
  obtain ⟨u, ⟨cfg, _, itlb, dtlb, mmu⟩, rfl⟩ := enterEvent_records entered
  have same : u.recordAddress e = u := by
    obtain none | noMmu := h
    · exact State.recordAddress_none none u
    · exact State.recordAddress_noMmu (cfg ▸ noMmu) e
  obtain ⟨ear, hi⟩ := u.enterHandler_address e
  rw [RecordsNoAddress, ear, hi, same, mmu]
  exact ⟨rfl, rfl⟩

/-- TLBEHI after an entry that records `va`, bit by bit. -/
theorem getLsbD_recordedVpn {hi va : Word} {side : Option Bool} {k : Nat} (hk : k < 32) :
    (setBitIf (setBit ((hi &&& 0x000003FF#32) ||| (va &&& 0xFFFFFC00#32)) 9 true) 8 side).getLsbD k =
      if 10 ≤ k then va.getLsbD k else if k = 9 then true else if k = 8 then side.getD (hi.getLsbD 8) else hi.getLsbD k := by
  have low : (0x000003FF#32 : Word).getLsbD k = decide (k < 10) := by revert k; decide
  have high : (0xFFFFFC00#32 : Word).getLsbD k = decide (10 ≤ k) := by revert k; decide
  rw [getLsbD_setBitIf hk, getLsbD_setBit hk, BitVec.getLsbD_or, BitVec.getLsbD_and, BitVec.getLsbD_and, low, high]
  grind

theorem recordsAddress_of {e : Event} {ra va : Word} {s t : State} (entered : enterEvent e ra s = .ok () t)
    (failing : e.failingAddress = some va) (hm : hasMmu s.cfg = true) :
    t.mmu.tlbear = va ∧ ∀ k, k < 32 → t.mmu.tlbehi.getLsbD k =
      if 10 ≤ k then va.getLsbD k else if k = 9 then true else if k = 8 then e.tlbSide.getD (s.mmu.tlbehi.getLsbD 8)
      else s.mmu.tlbehi.getLsbD k := by
  obtain ⟨u, ⟨cfg, _, itlb, dtlb, mmu⟩, rfl⟩ := enterEvent_records entered
  obtain ⟨ear, hi⟩ := u.enterHandler_address e
  rw [ear, hi, State.recordAddress_mmu failing (cfg ▸ hm), mmu]
  exact ⟨rfl, fun k hk => getLsbD_recordedVpn hk⟩

theorem bear_of_entry {e : Event} {ra : Word} {s t : State} (entered : enterEvent e ra s = .ok () t) :
    (∀ pa, e = .busErrorData pa → t.ctl.bear = if hasBear s.cfg then pa else s.ctl.bear) ∧
    ((∀ pa, e ≠ .busErrorData pa) → t.ctl.bear = s.ctl.bear) := by
  obtain ⟨u, ⟨cfg, ctl, _⟩, rfl⟩ := enterEvent_records entered
  rw [← cfg, ← ctl]
  exact u.enterHandler_bear e

/-- The address events carry their address and their side, can be told from a bus error, and are those that EM masks but for one. -/
theorem addressEvents_facts {va : Word} {b : Bool} {p : Event × Option Bool} (h : p ∈ addressEvents va b) :
    p.1.failingAddress = some va ∧ p.1.tlbSide = p.2 ∧ ∀ pa, p.1 ≠ .busErrorData pa := by
  have all : ∀ p ∈ addressEvents va b, p.1.failingAddress = some va ∧ p.1.tlbSide = p.2 ∧ ∀ pa, p.1 ≠ .busErrorData pa := by
    simp [addressEvents, Event.failingAddress, Event.tlbSide]
  exact all p h

/-! ## The replacement pointer -/

/-- A pointer of six bits that `recordReplacement` stores at `n`, in the places that its mask leaves free. -/
theorem pointer_at_irp {cr : Word} {p : BitVec 6} :
    (∀ k, k < 26 → ((cr &&& 0x03FFFFFF#32) ||| (p.setWidth 32 <<< 26)).getLsbD k = cr.getLsbD k) ∧
    ((cr &&& 0x03FFFFFF#32) ||| (p.setWidth 32 <<< 26)).extractLsb' 26 6 = p := by
  have mask (k : Nat) (hk : k < 32) : (0x03FFFFFF#32 : Word).getLsbD k = decide (k < 26) := by revert k; decide
  refine ⟨fun k hk => ?_, ?_⟩
  · simp [mask k (by omega), hk]
  · ext k hk
    simp only [BitVec.getElem_extractLsb', BitVec.getLsbD_or, BitVec.getLsbD_and, mask (26 + k) (by omega), BitVec.getLsbD_shiftLeft,
      BitVec.getLsbD_setWidth, Nat.add_sub_cancel_left, BitVec.getLsbD_eq_getElem hk]
    have : k < 32 := by omega
    simp [this, show 26 + k < 32 by omega]

theorem pointer_at_drp {cr : Word} {p : BitVec 6} :
    (∀ k, k < 32 → k < 14 ∨ 20 ≤ k → ((cr &&& 0xFFF03FFF#32) ||| (p.setWidth 32 <<< 14)).getLsbD k = cr.getLsbD k) ∧
    ((cr &&& 0xFFF03FFF#32) ||| (p.setWidth 32 <<< 14)).extractLsb' 14 6 = p := by
  have mask (k : Nat) (hk : k < 32) : (0xFFF03FFF#32 : Word).getLsbD k = (decide (k < 14) || decide (20 ≤ k)) := by revert k; decide
  refine ⟨fun k hk other => ?_, ?_⟩
  · have field : ((p.setWidth 32 : Word) <<< 14).getLsbD k = false := by
      rw [BitVec.getLsbD_shiftLeft, BitVec.getLsbD_setWidth]
      obtain low | high := other
      · simp [low]
      · rw [BitVec.getLsbD_of_ge p (k - 14) (by omega)]; simp
    rw [BitVec.getLsbD_or, BitVec.getLsbD_and, mask k hk, field]
    obtain low | high := other <;> simp [*]
  · ext k hk
    simp only [BitVec.getElem_extractLsb', BitVec.getLsbD_or, BitVec.getLsbD_and, mask (14 + k) (by omega), BitVec.getLsbD_shiftLeft,
      BitVec.getLsbD_setWidth, Nat.add_sub_cancel_left, BitVec.getLsbD_eq_getElem hk]
    have : k < 32 := by omega
    simp [this, show 14 + k < 32 by omega, show ¬ 20 ≤ 14 + k by omega]

/-- Where the implementation moves the pointer, a miss leaves one that names no locked entry. -/
theorem State.recordReplacement_missed {s : State} {e : Event} {instr : Bool} (h : e.missedTlb = some instr)
    (moves : (hasMmu s.cfg && s.cfg.tlbReplace) = true) : ∃ p : BitVec 6, (s.tlbLocked instr).toNat ≤ p.toNat ∧
      (s.recordReplacement e).mmu.mmucr =
        if usesItlb s.cfg instr then (s.mmu.mmucr &&& 0x03FFFFFF#32) ||| (p.setWidth 32 <<< 26)
        else (s.mmu.mmucr &&& 0xFFF03FFF#32) ||| (p.setWidth 32 <<< 14) := by
  refine ⟨_, unlocked_pointer (s.free.setWidth 6) (s.tlbLocked instr), ?_⟩
  simp [State.recordReplacement, h, moves]

theorem State.recordReplacement_kept {s : State} {e : Event} (h : e.missedTlb = none ∨ (hasMmu s.cfg && s.cfg.tlbReplace) = false) :
    s.recordReplacement e = s := by
  unfold State.recordReplacement
  split
  · rfl
  · rename_i missed
    obtain none | fixed := h
    · rw [none] at missed; cases missed
    · rw [fixed]; rfl

/-- MMUCR after an entry is what `recordReplacement` makes of it. -/
theorem mmucr_of_entry {e : Event} {ra : Word} {s t : State} (entered : enterEvent e ra s = .ok () t) :
    ∃ v : State, v.cfg = s.cfg ∧ v.mmu.mmucr = s.mmu.mmucr ∧ t.mmu.mmucr = (v.recordReplacement e).mmu.mmucr ∧
      t.mmu.tlbelo = s.mmu.tlbelo ∧ t.mmu.ptbr = s.mmu.ptbr := by
  obtain ⟨u, ⟨cfg, _, itlb, dtlb, mmu⟩, rfl⟩ := enterEvent_records entered
  obtain ⟨hi, ear, address⟩ := u.recordAddress_frame e
  have recorded : (u.enterHandler e).mmu = ((u.recordAddress e).recordReplacement e).mmu := State.recordBus_mmu _ e
  refine ⟨u.recordAddress e, ?_, ?_, ?_, ?_⟩
  · rw [address]; exact cfg
  · rw [address, mmu]
  · rw [recorded]
  · rw [recorded, (State.recordReplacement_mmu _ e).1, address, mmu]
    exact ⟨rfl, rfl⟩

theorem Event.missedTlb_true {e : Event} : e.missedTlb = some true ↔ ∃ va, e = .itlbMiss va := by
  cases e <;> simp [Event.missedTlb]

theorem Event.missedTlb_false {e : Event} : e.missedTlb = some false ↔ ∃ va, e = .dtlbMissRead va ∨ e = .dtlbMissWrite va := by
  cases e <;> simp [Event.missedTlb]

theorem Event.missedTlb_some {e : Event} :
    (∃ instr, e.missedTlb = some instr) ↔ ∃ va, e = .itlbMiss va ∨ e = .dtlbMissRead va ∨ e = .dtlbMissWrite va := by
  cases e <;> simp [Event.missedTlb]

/-- The registers of the TLB that an entry does not write, and the replacement pointer. -/
theorem replacement_of_entry {e : Event} {ra : Word} {s t : State} (entered : enterEvent e ra s = .ok () t) :
    let itlb := s.cfg.mmut = .split ∧ ∃ va, e = .itlbMiss va
    let missed := hasMmu s.cfg = true ∧ s.cfg.tlbReplace = true ∧ ∃ va, e = .itlbMiss va ∨ e = .dtlbMissRead va ∨ e = .dtlbMissWrite va
    t.mmu.tlbelo = s.mmu.tlbelo ∧ t.mmu.ptbr = s.mmu.ptbr ∧ (¬ missed → t.mmu.mmucr = s.mmu.mmucr) ∧
    (missed → itlb → (∀ k, k < 26 → t.mmu.mmucr.getLsbD k = s.mmu.mmucr.getLsbD k) ∧
      (s.mmu.mmucr.extractLsb' 20 6).toNat ≤ (t.mmu.mmucr.extractLsb' 26 6).toNat) ∧
    (missed → ¬ itlb → (∀ k, k < 32 → k < 14 ∨ 20 ≤ k → t.mmu.mmucr.getLsbD k = s.mmu.mmucr.getLsbD k) ∧
      (s.mmu.mmucr.extractLsb' 8 6).toNat ≤ (t.mmu.mmucr.extractLsb' 14 6).toNat) := by
  intro itlb missed
  obtain ⟨v, cfg, cr, moved, elo, ptbr⟩ := mmucr_of_entry entered
  refine ⟨elo, ptbr, fun h => ?_, fun h i => ?_, fun h i => ?_⟩
  · rw [moved, State.recordReplacement_kept, cr]
    rw [cfg]
    by_contra stays
    rw [not_or, Bool.not_eq_false, Bool.and_eq_true, ← ne_eq, Option.ne_none_iff_exists'] at stays
    obtain ⟨miss, mmu, replace⟩ := stays
    exact h ⟨mmu, replace, Event.missedTlb_some.mp miss⟩
  all_goals
    obtain ⟨mmu, replace, miss⟩ := h
    have moves : (hasMmu v.cfg && v.cfg.tlbReplace) = true := by rw [cfg, mmu, replace]; rfl
  · obtain ⟨split, miss⟩ := i
    obtain ⟨p, unlocked, pointer⟩ := State.recordReplacement_missed (Event.missedTlb_true.mpr miss) moves
    have uses : usesItlb v.cfg true = true := by rw [cfg, usesItlb, split]; rfl
    rw [State.tlbLocked, if_pos uses, cr] at unlocked
    rw [if_pos uses, cr] at pointer
    rw [moved, pointer]
    obtain ⟨rest, field⟩ := pointer_at_irp (cr := s.mmu.mmucr) (p := p)
    exact ⟨rest, by rw [field]; exact unlocked⟩
  · obtain ⟨instr, side⟩ := Event.missedTlb_some.mpr miss
    obtain ⟨p, unlocked, pointer⟩ := State.recordReplacement_missed side moves
    have uses : ¬ usesItlb v.cfg instr = true := by
      rw [cfg, usesItlb, Bool.and_eq_true, beq_iff_eq]
      rintro ⟨rfl, split⟩
      exact i ⟨split, Event.missedTlb_true.mp side⟩
    rw [State.tlbLocked, if_neg uses, cr] at unlocked
    rw [if_neg uses, cr] at pointer
    rw [moved, pointer]
    obtain ⟨rest, field⟩ := pointer_at_drp (cr := s.mmu.mmucr) (p := p)
    exact ⟨rest, by rw [field]; exact unlocked⟩

theorem maskableEvents {va : Word} {e : Event} (h : e ∈ [Event.instructionAddress va, .itlbMiss va, .itlbProtection va, .illegalOpcode,
    .unimplemented, .privilegeViolation, .floatingPoint, .coprocessorAbsent, .dataAddressRead va, .dataAddressWrite va, .dtlbMissRead va,
    .dtlbMissWrite va, .dtlbProtectionRead va, .dtlbProtectionWrite va, .dtlbModified va]) : e.maskable = true := by
  simp only [List.mem_cons, List.not_mem_nil, or_false] at h
  rcases h with rfl | rfl | rfl | rfl | rfl | rfl | rfl | rfl | rfl | rfl | rfl | rfl | rfl | rfl | rfl <;> rfl

theorem unmaskableEvents {va v : Word} {b : Bool} {l : BitVec 2} {e : Event} (h : e ∈ [Event.unrecoverable, .tlbMultipleHit va b,
    .busErrorData va, .busErrorFetch, .nmi, .interrupt l v]) : e.maskable = false := by
  simp only [List.mem_cons, List.not_mem_nil, or_false] at h
  rcases h with rfl | rfl | rfl | rfl | rfl | rfl <;> rfl

/-- Settles O47: the offsets and EM by the table of the events, and each register an entry records by the part of `record` that writes it. -/
theorem eventTableAndMask : Obligations.EventTableAndMask := by
  unfold Obligations.EventTableAndMask
  refine ⟨fun k priv kind n va s s1 e h => checkAccess_raises h, ?_, ?_, ?_, ?_, ?_, ?_, fun e s t ra h => replacement_of_entry h⟩
  · intro va e he s ra em
    exact takeEvent_masked (maskableEvents he) em ra
  · intro va v b l e he s t ra entered
    exact takeEvent_of_entry (by rw [s.unmasked_unmaskable (unmaskableEvents he)]; exact entered)
  · intro e s t ra clear entered
    exact takeEvent_of_entry (by rw [State.unmasked_clear clear]; exact entered)
  · intro va v b l
    simp [Event.offset]
  · intro va b p hp s t ra entered
    obtain ⟨failing, side, noBus⟩ := addressEvents_facts hp
    refine ⟨fun mmu => side ▸ recordsAddress_of entered failing mmu, fun noMmu => recordsNoAddress_of entered (.inr noMmu),
      (bear_of_entry entered).2 noBus, fun maskable em u unrecoverable => ⟨?_, recordsNoAddress_of unrecoverable (.inl rfl)⟩⟩
    exact takeEvent_of_entry (by rw [State.unmasked_masked maskable em]; exact unrecoverable)
  · intro va v l e he s t ra entered
    have facts : ∀ e ∈ [Event.unrecoverable, .busErrorData va, .busErrorFetch, .nmi, .interrupt l v, .illegalOpcode, .unimplemented,
        .privilegeViolation, .floatingPoint, .coprocessorAbsent],
        e.failingAddress = none ∧ (e = .busErrorData va ∨ ∀ pa, e ≠ .busErrorData pa) := by simp [Event.failingAddress]
    obtain ⟨none, bus | noBus⟩ := facts e he
    · refine ⟨recordsNoAddress_of entered (.inl none), ?_⟩
      rw [(bear_of_entry entered).1 va bus]
      simp [bus]
    · refine ⟨recordsNoAddress_of entered (.inl none), ?_⟩
      rw [(bear_of_entry entered).2 noBus, if_neg fun h => noBus va h.1]

end Sys2Proof.Machine
end

section
/-! PROOFS. O12, O32, O52, O54, O51 : privilege, the flag moves, the bits of SR, the debug registers, and the calls of the secure and debug
states. -/

namespace Sys2Proof.Machine

variable {s t : State}

/-! ## What an instruction leaves that writes no register -/

/-- No bank and no stack pointer has been written. -/
theorem sameRegs_of {ds : List RegNo} (shared : t.shared = s.shared := by rfl) (int0 : t.int0 = s.int0 := by rfl)
    (int1 : t.int1 = s.int1 := by rfl) (int2 : t.int2 = s.int2 := by rfl) (int3 : t.int3 = s.int3 := by rfl)
    (app : t.spApp = s.spApp := by rfl) (sys : t.spSys = s.spSys := by rfl) (sec : t.spSec = s.spSec := by rfl) : SameRegs s t ds := by
  intro p _ notPc _
  cases p with
  | pc => exact absurd rfl notPc
  | spApp => exact app
  | spSys => exact sys
  | spSec => exact sec
  | bank c i => cases c <;> simp only [State.readPhys, State.bank, *]

theorem sameMem_of (mem : t.mem = s.mem := by rfl) : SameMem s t := fun a => congrArg (Memory.read · a.toNat) mem

/-- A word of SR and a place of the PC: all that the instructions of SR and the returns write. -/
theorem sr_pc_frame (s : State) (sr pc : Word) {ds : List RegNo} :
    SameRegs s { s with sr := sr, pc := pc } ds ∧ SameMem s { s with sr := sr, pc := pc } ∧ SameSystem s { s with sr := sr, pc := pc } :=
  ⟨sameRegs_of, sameMem_of, by simp [SameSystem]⟩

/-! ## Privilege -/

theorem requireRight_missing {ok : Bool} (h : ok = false) (s : State) (k : Out) :
    requireRight ok s k = raiseEvent .privilegeViolation s := by
  rw [requireRight, h]; rfl

theorem requireRight_granted {ok : Bool} (h : ok = true) (s : State) (k : Out) : requireRight ok s k = k := if_pos h

theorem requireTlb_trap (s : State) (k : Out) (mmu : hasMmu s.cfg = true) (user : s.privileged = false) :
    requireTlb s k = raiseEvent .privilegeViolation s :=
  (if_pos mmu).trans (requireRight_missing user s k)

theorem State.maySrBit_upper {bp : BitVec 5} (user : s.privileged = false) (upper : 15 < bp.toNat) : s.maySrBit bp = false := by
  simp [State.maySrBit, user, upper]

theorem State.maySysReg_user {n : BitVec 8} (user : s.privileged = false) (h : (n != 21#8 && n != 22#8) = true) :
    s.maySysReg n = false := by
  simpa [State.maySysReg, user] using h

/-- Each privileged instruction meets its check with the privilege missing. -/
theorem needsPrivilege_traps {i : Instr} (app : s.inApplication = true) (needs : needsPrivilege i = true)
    (present : unitPresent i s.cfg = true) : exec i s = raiseEvent .privilegeViolation s := by
  have user : s.privileged = false := by rw [State.privileged, app]; rfl
  cases i with
  | csrf bp | ssrf bp | csrfcz bp => exact requireRight_missing (State.maySrBit_upper user (of_decide_eq_true needs)) s _
  | mfsr rd n | mtsr rs n => exact requireRight_missing (State.maySysReg_user user needs) s _
  | mfdr | mtdr | cache | retd | sleep => exact requireRight_missing user s _
  | tlbr | tlbs | tlbw => exact requireTlb_trap s _ present user
  | _ => cases needs

/-- Settles O12: the privileged instructions by their check, and the three returns by theirs. -/
theorem privilegedInstructionsTrap : Obligations.PrivilegedInstructionsTrap :=
  ⟨fun _ _ app needs present => needsPrivilege_traps app needs present, fun _ mode => if_pos mode, fun _ mode => if_pos mode,
    fun s present outside => (if_pos present).trans (requireRight_missing outside s _)⟩

/-! ## The moves of the flags -/

theorem musfr_gives (s : State) (rs : RegNo) : Gives (exec (.musfr rs) s) fun t =>
    t.flagV = (s.getReg rs).getLsbD 3 ∧ t.flagN = (s.getReg rs).getLsbD 2 ∧ t.flagZ = (s.getReg rs).getLsbD 1 ∧
    t.flagC = (s.getReg rs).getLsbD 0 ∧ t.pc = s.pc + 2#32 ∧
    SameRegs s t [] ∧ SameSr s t [3, 2, 1, 0] ∧ SameMem s t ∧ SameSystem s t := by
  obtain ⟨t, run, only⟩ := move_completes (.musfr rs) [] vnzc rfl s rfl
  obtain rfl := Host.Outcome.next.inj run
  obtain ⟨v, n, z, c⟩ := flags_applyFlags ((s.advance 2#32).setFlags_sr _)
  exact ⟨_, run, v, n, z, c, only.pc (by simp), only.regs, only.sr, only.mem, only.system⟩

theorem mustr_gives (s : State) (rd : RegNo) : ∃ v : Word, (∀ k, k < 32 → v.getLsbD k = (decide (k < 4) && s.srBit k)) ∧
    Gives (exec (.mustr rd) s) fun t =>
      Writes (.mustr rd) s t rd v ∧ SameRegs s t [rd] ∧ SameSr s t [] ∧ SameMem s t ∧ SameSystem s t := by
  refine ⟨s.sr &&& 0x0000000F#32, fun k hk => ?_, s.finishReg_noFlags (.mustr rd) rd _ (len := 2#32) rfl⟩
  have low : (0x0000000F#32 : Word).getLsbD k = decide (k < 4) := by revert k; decide
  rw [BitVec.getLsbD_and, low, Bool.and_comm]
  rfl

/-- Settles O32: the words are the codes of the instructions, and each ends as the moves do. -/
theorem flagMovesAndNop : Obligations.FlagMovesAndNop := by
  refine ⟨fun rs => ?_, fun rd => ?_, fun c rd => ?_, Laws.DecodeEncode.nop rfl, fun s => ⟨musfr_gives s, mustr_gives s, fun c rd => ?_, rfl⟩⟩
  · have code : 0b010111010011#12 ++ rs = cat 16 0b010111010011#12 rs := (BitVec.setWidth_eq _).symm
    rw [code]; exact Laws.DecodeEncode.musfr rs rfl
  · have code : 0b010111010010#12 ++ rd = cat 16 0b010111010010#12 rd := (BitVec.setWidth_eq _).symm
    rw [code]; exact Laws.DecodeEncode.mustr rd rfl
  · have code : 0b01011111#8 ++ c ++ rd = cat 16 (0b01011111#8 ++ c) rd := (BitVec.setWidth_eq _).symm
    rw [code, cat_append _ _ _ (m := 8) rfl rfl]; exact Laws.DecodeEncode.srCond c rd rfl
  · exact s.finishReg_noFlags (.srCond c rd) rd _ (len := 2#32) rfl

/-! ## The bits of SR -/

theorem State.maySrBit_of {bp : BitVec 5} (h : bp.toNat ≤ 15 ∨ s.privileged = true) : s.maySrBit bp = true := by
  simpa [State.maySrBit] using h

/-- csrf and ssrf leave `b` in a bit that exists and is not SS, and no other change. -/
theorem srBitWritten (s : State) (bp : BitVec 5) (b : Bool) :
    let fixed := srImplemented.getLsbD bp.toNat = false ∨ bp = 31#5
    let t := (s.advance 2#32).writeSrBit bp b
    (¬ fixed → t.srBit bp.toNat = b) ∧ SameSr s t (if fixed then [] else [bp.toNat]) ∧
      t.pc = s.pc + 2#32 ∧ SameRegs s t [] ∧ SameMem s t ∧ SameSystem s t := by
  intro fixed t
  by_cases h : fixed
  · have same : t = s.advance 2#32 := if_neg (by obtain h | h := h <;> simp [h])
    obtain ⟨regs, mem, system⟩ := sr_pc_frame s s.sr (s.pc + 2#32) (ds := [])
    rw [same]
    exact ⟨fun notFixed => absurd h notFixed, fun _ _ _ => rfl, rfl, regs, mem, system⟩
  · have written : t = (s.advance 2#32).setSrBit bp.toNat b := if_pos (by simpa [fixed] using h)
    obtain ⟨regs, mem, system⟩ := sr_pc_frame s (setBit s.sr bp.toNat b) (s.pc + 2#32) (ds := [])
    rw [written, if_neg h]
    refine ⟨fun _ => ?_, fun n hn other => ?_, rfl, regs, mem, system⟩
    · exact (getLsbD_setBit bp.isLt).trans (if_pos rfl)
    · exact (getLsbD_setBit hn).trans (if_neg (by simpa using other))

theorem csrfcz_gives (s : State) {bp : BitVec 5} (may : s.maySrBit bp = true) : Gives (exec (.csrfcz bp) s) fun t =>
    t.flagC = (srImplemented.getLsbD bp.toNat && s.srBit bp.toNat) ∧ t.flagZ = t.flagC ∧
    SameSr s t [1, 0] ∧ t.pc = s.pc + 2#32 ∧ SameRegs s t [] ∧ SameMem s t ∧ SameSystem s t := by
  have run : exec (.csrfcz bp) s = s.finishFlags 2#32 { z := some (s.readSrBit bp), c := some (s.readSrBit bp) } := if_pos may
  obtain ⟨t, ends, only⟩ := CompletesWriting.finishFlags (i := .csrfcz bp) (s := s) (len := 2#32)
    (u := { z := some (s.readSrBit bp), c := some (s.readSrBit bp) })
  obtain rfl := Host.Outcome.next.inj ends
  obtain ⟨-, -, z, c⟩ := flags_applyFlags ((s.advance 2#32).setFlags_sr { z := some (s.readSrBit bp), c := some (s.readSrBit bp) })
  refine ⟨_, run, c.trans ?_, z.trans c.symm, only.sr, only.pc (by simp), only.regs, only.mem, only.system⟩
  rw [Option.getD_some, State.readSrBit, BitVec.getLsbD_and, Bool.and_comm]
  rfl

/-- The words of csrf, ssrf and csrfcz have their bit number in the middle. -/
theorem cat_bitNumber (c : BitVec 7) (bp : BitVec 5) (low : BitVec 4) : cat 16 (c ++ bp) low = cat 16 c (cat 9 bp low) :=
  cat_append c bp low rfl rfl

/-- Settles O52: the words are the codes of the instructions, each meets its check, and what it writes is one bit or two flags. -/
theorem statusBits : Obligations.StatusBits := by
  refine ⟨fun bp => ?_, fun s bp => ⟨fun upper app => ?_, fun right => ?_⟩⟩
  · simp only [cat_bitNumber]
    exact ⟨Laws.DecodeEncode.csrf bp rfl, Laws.DecodeEncode.ssrf bp rfl, Laws.DecodeEncode.csrfcz bp rfl⟩
  · have needs : decide (15 < bp.toNat) = true := decide_eq_true upper
    exact ⟨needsPrivilege_traps app needs rfl, needsPrivilege_traps app needs rfl, needsPrivilege_traps app needs rfl⟩
  · have may := State.maySrBit_of right
    exact ⟨⟨_, if_pos may, srBitWritten s bp false⟩, ⟨_, if_pos may, srBitWritten s bp true⟩, csrfcz_gives s may⟩

/-! ## Debug registers, cache and sleep -/

theorem hasDebugReg_iff {cfg : Params} {n : BitVec 8} : hasDebugReg cfg n = true ↔ n ∈ cfg.debugRegs := by
  simp [hasDebugReg]

theorem mfdr_gives (privileged : s.privileged = true) (rd : RegNo) (n : BitVec 8) : Gives (exec (.mfdr rd n) s) fun t =>
    (n ∈ s.cfg.debugRegs → Writes (.mfdr rd n) s t rd (s.debug[n.toNat]'n.isLt)) ∧ SameRegs s t [rd] ∧ SameSr s t [] ∧ SameMem s t ∧
    SameSystem s t := by
  have run : exec (.mfdr rd n) s = if hasDebugReg s.cfg n then s.finishReg 4#32 rd (s.debug[n.toNat]'n.isLt) noFlags
      else (s.drawFree 1).finishReg 4#32 rd s.free noFlags := if_pos privileged
  rw [run]
  split
  next exists_ =>
    obtain ⟨t, ends, writes, rest⟩ := s.finishReg_noFlags (.mfdr rd n) rd (s.debug[n.toNat]'n.isLt) (len := 4#32) rfl
    exact ⟨t, ends, fun _ => writes, rest⟩
  next missing =>
    obtain ⟨t, ends, -, rest⟩ := (s.drawFree 1).finishReg_noFlags (.mfdr rd n) rd s.free (len := 4#32) rfl
    exact ⟨t, ends, fun listed => absurd (hasDebugReg_iff.mpr listed) missing, rest⟩

theorem mtdr_gives (privileged : s.privileged = true) (rs : RegNo) (n : BitVec 8) : Gives (exec (.mtdr rs n) s) fun t =>
    (∀ m : BitVec 8, t.debug[m.toNat]'m.isLt = if m = n ∧ n ∈ s.cfg.debugRegs then s.getReg rs else s.debug[m.toNat]'m.isLt) ∧
    t.pc = s.pc + 4#32 ∧ SameRegs s t [] ∧ SameSr s t [] ∧ SameMem s t ∧ SameSystem { s with debug := t.debug } t := by
  refine ⟨_, if_pos privileged, ?_⟩
  split
  next exists_ =>
    refine ⟨fun m => ?_, rfl, sameRegs_of, fun _ _ _ => rfl, sameMem_of, by simp [SameSystem]⟩
    rw [Vector.getElem_set]
    simp only [hasDebugReg_iff.mp exists_, and_true, BitVec.toNat_inj, eq_comm (a := n)]
  next missing =>
    exact ⟨fun m => (if_neg fun h => missing (hasDebugReg_iff.mpr h.2)).symm, rfl, sameRegs_of, fun _ _ _ => rfl, sameMem_of, by
      simp [SameSystem]⟩

/-- Sleep ends behind a change of SR, whether its mode is to wait or not. -/
theorem sleep_gives (privileged : s.privileged = true) (op : BitVec 8) : Gives (exec (.sleep op) s) fun t =>
    t.sleeping = (if op ∈ s.cfg.sleepNop then s.sleeping else some op) ∧ (op.getLsbD 7 = true → t.srBit bitGM = false) ∧
    SameSr s t (if op.getLsbD 7 then [bitGM] else []) ∧ t.pc = s.pc + 4#32 ∧ SameRegs s t [] ∧ SameMem s t ∧
    SameSystem { s with sleeping := t.sleeping } t := by
  have sr : ∃ sr, (if op.getLsbD 7 then (s.advance 4#32).setSrBit bitGM false else s.advance 4#32) = { s with sr := sr, pc := s.pc + 4#32 } ∧
      (op.getLsbD 7 = true → sr.getLsbD bitGM = false) ∧
      ∀ n, n < 32 → n ∉ (if op.getLsbD 7 then [bitGM] else []) → sr.getLsbD n = s.sr.getLsbD n := by
    split
    · exact ⟨setBit s.sr bitGM false, rfl, fun _ => (getLsbD_setBit (by decide)).trans (if_pos rfl), fun n hn other =>
        (getLsbD_setBit hn).trans (if_neg (by simpa using other))⟩
    · exact ⟨s.sr, rfl, fun h => absurd h ‹_›, fun _ _ _ => rfl⟩
  obtain ⟨sr, awake, cleared, kept⟩ := sr
  have run : exec (.sleep op) s = .next (if s.cfg.sleepNop.contains op then { s with sr := sr, pc := s.pc + 4#32 }
      else { s with sr := sr, pc := s.pc + 4#32, sleeping := some op }) := by
    refine (if_pos privileged).trans ?_
    simp only [awake]
  refine ⟨_, run, ?_⟩
  split
  next nop =>
    exact ⟨by rw [if_pos (List.contains_iff_mem.mp nop)], cleared, kept, rfl, sameRegs_of, sameMem_of, by simp [SameSystem]⟩
  next waits =>
    exact ⟨by rw [if_neg fun h => waits (List.contains_iff_mem.mpr h)], cleared, kept, rfl, sameRegs_of, sameMem_of, by simp [SameSystem]⟩

/-- Settles O54: each instruction behind its check for the privilege. -/
theorem debugRegistersCacheAndSleep : Obligations.DebugRegistersCacheAndSleep := fun _ privileged =>
  ⟨mfdr_gives privileged, mtdr_gives privileged, fun _ _ _ => if_pos privileged, sleep_gives privileged⟩

/-! ## The secure state and the debug state -/

theorem State.mode_setMode (h : t.sr = setMode w m) : t.mode = m := by
  rw [State.mode, h, extractLsb'_setMode]

/-- A whole word written to SR loses its reserved bits and leaves SS. -/
theorem getLsbD_writtenSr {v : Word} {b : Bool} {n : Nat} (hn : n < 31) :
    (setBit (v &&& srImplemented) bitSS b).getLsbD n = (srImplemented.getLsbD n && v.getLsbD n) := by
  rw [getLsbD_setBit (by omega), if_neg (by simp only [bitSS]; omega), BitVec.getLsbD_and, Bool.and_comm]

theorem getLsbD_writtenSr_secure {v : Word} {b : Bool} : (setBit (v &&& srImplemented) bitSS b).getLsbD bitSS = b :=
  (getLsbD_setBit (by decide)).trans (if_pos rfl)

/-- SR after sscall: SS and GM set, and Supervisor mode where it was Application mode. -/
def sscallSr (s : State) : Word :=
  if s.mode = 0#3 then setMode (setBit (setBit s.sr bitSS true) bitGM true) 1#3 else setBit (setBit s.sr bitSS true) bitGM true

theorem getLsbD_sscallSr (s : State) {n : Nat} (hn : n < 32) :
    (sscallSr s).getLsbD n = if n = bitSS ∨ n = bitGM then true else if s.mode = 0#3 ∧ 22 ≤ n ∧ n ≤ 24 then (1#3).getLsbD (n - 22)
      else s.sr.getLsbD n := by
  unfold sscallSr
  simp only [bitSS, bitGM]
  split
  · rw [getLsbD_setMode_eq hn, getLsbD_setBit hn, getLsbD_setBit hn]
    grind
  · rw [getLsbD_setBit hn, getLsbD_setBit hn]
    grind

theorem sscall_gives (s : State) (present : unitPresent .sscall s.cfg = true) : Gives (exec .sscall s) fun t =>
    t.sec.rar = s.pc ∧ t.sec.rsr = s.sr ∧ t.pc = (if s.cfg.archB then 0xA0000004#32 else 0x80000004#32) ∧ t.srBit bitSS = true ∧
    t.srBit bitGM = true ∧ t.mode = (if s.mode = 0#3 then 1#3 else s.mode) ∧ SameSr s t [bitSS, bitGM, 22, 23, 24] ∧ SameRegs s t [] ∧
    SameMem s t ∧ t.ret = s.ret ∧ t.ctl = s.ctl := by
  have run : exec .sscall s = .next (({ s with sec := { s.sec with rar := s.pc, rsr := s.sr }, sr := sscallSr s } : State).jump
      (resetAddress s.cfg + 4#32)) := if_pos present
  refine ⟨_, run, rfl, rfl, ?_, ?_, ?_, ?_, fun n hn other => ?_, sameRegs_of, sameMem_of, rfl, rfl⟩
  · rw [State.jump_pc, resetAddress]
    split <;> rfl
  · exact (getLsbD_sscallSr s (by decide)).trans (if_pos (.inl rfl))
  · exact (getLsbD_sscallSr s (by decide)).trans (if_pos (.inr rfl))
  · split
    next app => exact State.mode_setMode (if_pos app)
    next other =>
      refine State.mode_congr fun n hn => (getLsbD_sscallSr s (by omega)).trans ?_
      rw [if_neg (by simp only [bitSS, bitGM]; omega), if_neg fun h => other h.1]
  · simp only [List.mem_cons, List.not_mem_nil, or_false, not_or] at other
    refine (getLsbD_sscallSr s hn).trans ?_
    rw [if_neg (by tauto), if_neg (by omega)]
    rfl

theorem retss_gives (s : State) (present : unitPresent .retss s.cfg = true) (secure : s.srBit bitSS = true) :
    Gives (exec .retss s) fun t =>
      (∀ n, n < 32 → t.srBit n = (srImplemented.getLsbD n && s.sec.rsr.getLsbD n)) ∧ t.pc = s.sec.rar &&& 0xFFFFFFFE#32 ∧
      SameRegs s t [] ∧ SameMem s t ∧ SameSystem s t := by
  have run : exec .retss s = .next (({ s with sr := s.sec.rsr &&& srImplemented } : State).jump s.sec.rar) :=
    (if_pos present).trans (if_pos secure)
  obtain ⟨regs, mem, system⟩ := sr_pc_frame s (s.sec.rsr &&& srImplemented) (s.sec.rar &&& 0xFFFFFFFE#32) (ds := [])
  refine ⟨_, run, fun n hn => ?_, rfl, regs, mem, system⟩
  rw [Bool.and_comm, ← BitVec.getLsbD_and]
  rfl

theorem retd_gives (s : State) (privileged : s.privileged = true) : Gives (exec .retd s) fun t =>
    (hasRsrDbg s.cfg = true → ∀ n, n < 31 → t.srBit n = (srImplemented.getLsbD n && s.ret.rsrDbg.getLsbD n)) ∧
    (hasRarDbg s.cfg = true → t.pc = s.ret.rarDbg &&& 0xFFFFFFFE#32) ∧
    t.srBit bitSS = s.srBit bitSS ∧ SameRegs s t [] ∧ SameMem s t ∧ SameSystem s t := by
  refine ⟨_, if_pos privileged, fun rsr n hn => ?_, fun rar => ?_, getLsbD_writtenSr_secure, sameRegs_of, sameMem_of, by
    simp [SameSystem, State.returnTo, State.writeSr]⟩
  · rw [if_pos rsr]; exact getLsbD_writtenSr hn
  · rw [if_pos rar]; rfl

theorem getLsbD_debugEntrySr {sr : Word} {n : Nat} (hn : n < 32) : (debugEntrySr sr).getLsbD n =
    if n = bitR ∨ n = bitJ then false else if n = 22 then false
    else if n ∈ [23, 24, bitD, bitDM, bitEM, bitGM] then true else sr.getLsbD n := by
  simp only [debugEntrySr, getLsbD_setBit hn, getLsbD_setMode_eq hn, bitR, bitJ, bitD, bitDM, bitEM, bitGM, List.mem_cons, List.not_mem_nil,
    or_false]
  by_cases mode : 22 ≤ n ∧ n ≤ 24
  · obtain ⟨low, high⟩ := mode
    interval_cases n <;> rfl
  · grind

theorem breakpoint_gives (s : State) (traps : s.breakpointTraps = true) : Gives (exec .breakpoint s) fun t =>
    t.ret = { s.ret with rsrDbg := if hasRsrDbg s.cfg then s.sr else s.ret.rsrDbg
                         rarDbg := if hasRarDbg s.cfg then s.pc else s.ret.rarDbg } ∧
    (∀ n, n < 32 → t.srBit n = if n = bitR ∨ n = bitJ then false else if n = 22 then false
      else if n ∈ [23, 24, bitD, bitDM, bitEM, bitGM] then true else s.srBit n) ∧
    t.pc = (if s.srBit bitSS then (if s.cfg.archB then 0xA0000010#32 else 0x80000010#32) else s.ctl.evba + 0x1C#32) &&& 0xFFFFFFFE#32 ∧
    SameRegs s t [] ∧ SameMem s t ∧ t.ctl = s.ctl := by
  refine ⟨_, if_pos traps, rfl, fun n hn => getLsbD_debugEntrySr hn, ?_, sameRegs_of, sameMem_of, rfl⟩
  rw [State.enterBreakpoint, State.jump_pc, resetAddress]
  cases s.cfg.archB <;> rfl

/-- The test of `breakpoint` is the conjunction that R902 names. -/
theorem State.breakpointTraps_iff :
    s.breakpointTraps = true ↔ s.cfg.hasOcd = true ∧ s.cfg.ocdEnabled = true ∧ s.srBit bitDM = false := by
  simp [State.breakpointTraps, and_assoc]

/-- Settles O51: each transfer by the words of SR and the PC that it leaves. -/
theorem secureAndDebugTransfers : Obligations.SecureAndDebugTransfers := fun s =>
  ⟨sscall_gives s, retss_gives s, retd_gives s, fun ocd enabled mask => breakpoint_gives s (State.breakpointTraps_iff.mpr ⟨ocd, enabled, mask⟩),
    fun untaken => if_neg fun traps => untaken (State.breakpointTraps_iff.mp traps)⟩

end Sys2Proof.Machine
end

section
/-! PROOFS. O49, O50 : the supervisor call, and the returns from the supervisor and the event contexts. -/

namespace Sys2Proof.Machine

variable {s t : State}

/-! ## Registers written in a row -/

theorem State.readPhys_setRegs_other (s : State) {l : List (RegNo × Word)} {p : PhysReg} (real : p.Real) (other : ∀ q ∈ l, p ≠ s.phys q.1) :
    (s.setRegs l).readPhys p = s.readPhys p := by
  induction l generalizing s with
  | nil => rfl
  | cons q l ih =>
    rw [State.setRegs, ih _ fun q' hq => by rw [State.phys_setReg]; exact other q' (List.mem_cons_of_mem _ hq)]
    exact s.readPhys_writePhys_other q.2 (s.phys_real q.1) real (other q List.mem_cons_self)

theorem State.phys_setRegs (s : State) (l : List (RegNo × Word)) (i : RegNo) : (s.setRegs l).phys i = s.phys i :=
  State.phys_congr (by simp) (by simp [State.srBit]) (by simp [State.mode]) i

theorem State.getReg_setRegs_other (s : State) {l : List (RegNo × Word)} {i : RegNo} (other : i ∉ l.map Prod.fst) :
    (s.setRegs l).getReg i = s.getReg i := by
  rw [State.getReg, State.phys_setRegs]
  exact s.readPhys_setRegs_other (s.phys_real i) fun q hq => State.phys_ne fun e => other (e ▸ List.mem_map_of_mem hq)

/-- Each register of the row holds its own value. -/
theorem State.getReg_setRegs (s : State) {l : List (RegNo × Word)} (nodup : (l.map Prod.fst).Nodup) {q : RegNo × Word} (hq : q ∈ l)
    (notPc : q.1 ≠ 15#4) : (s.setRegs l).getReg q.1 = q.2 := by
  induction l generalizing s with
  | nil => cases hq
  | cons p l ih =>
    obtain ⟨first, rest⟩ := List.nodup_cons.mp nodup
    obtain rfl | hq := List.mem_cons.mp hq
    · rw [State.setRegs, State.getReg_setRegs_other _ first, State.getReg_setReg_same _ _ notPc]
    · exact ih _ rest hq

/-! ## The turns of the other agents -/

theorem State.turns_frame (s : State) (k : Nat) : ∃ mem now, s.turns k = { s with mem := mem, now := now } := by
  induction k with
  | zero => exact ⟨_, _, rfl⟩
  | succ k ih =>
    obtain ⟨mem, now, h⟩ := ih
    exact ⟨_, _, by rw [State.turns, h]; rfl⟩

theorem State.turns_accessed (s : State) (k : Nat) : Accessed s (s.turns k) := by
  induction k with
  | zero => exact .refl s
  | succ k ih => exact ih.trans (.busTurn _)

theorem aligned_next {va : Word} (ha : va.toNat % 4 = 0) : (va + 4#32).toNat % 4 = 0 := by
  rw [BitVec.toNat_add]; simp only [BitVec.toNat_ofNat]; omega

/-- The words of a block are its first one and those of the block behind it, a turn later. -/
theorem wordsInTurn_cons (s : State) (va : Word) (n : Nat) :
    s.wordInTurn va 0 :: (List.range n).map (s.busTurn.wordInTurn (va + 4#32)) = (List.range (n + 1)).map (s.wordInTurn va) := by
  rw [List.range_succ_eq_map, List.map_cons, List.map_map]
  congr 1
  refine List.map_congr_left fun k _ => ?_
  rw [Function.comp, State.wordInTurn, State.wordInTurn, State.turns_busTurn, Nat.succ_eq_add_one, Nat.mul_succ, Nat.add_comm (4 * k),
    BitVec.ofNat_add, BitVec.add_assoc]

/-- The words that a return pops, with the other agents between them (R208). -/
theorem popWords_direct (direct : Direct s) (kind : LsKind) {va : Word} {n : Nat} (ha : va.toNat % 4 = 0) (hb : Backed s va (4 * n)) :
    popWords kind va n s = .ok ((List.range n).map (s.wordInTurn va)) (s.turns (n - 1)) := by
  induction n generalizing s va with
  | zero => rfl
  | succ n ih =>
    have hc := checkAccess_direct direct.1 .read true kind ((aligned_word_iff (.inl rfl)).mpr ha)
    have bus := direct.busErrorIn (k := .read) nofun (hb.mono (m := 4) (by omega))
    have first : popWords kind va (n + 1) s = (popWords kind (va + 4#32) n (s.turnIfMore n)).bind fun vs s2 =>
        .ok (s.wordInTurn va 0 :: vs) s2 := by
      simp only [popWords, hc, Res.bind]
      rw [show (if (4 : Nat) = 8 then [(va, 4), (va + 4#32, 4)] else [(va, 4)]) = [(va, 4)] from rfl]
      simp [bus, readTurns, State.wordInTurn, State.turns]
    rw [first]
    cases n with
    | zero => rfl
    | succ n =>
      have rest := ih direct.busTurn (aligned_next ha) (hb.drop (k := 4) (by omega))
      rw [State.turnIfMore_succ, rest]
      simp only [Res.bind, wordsInTurn_cons, Nat.add_sub_cancel, State.turns_busTurn]

/-! ## Returns -/

theorem State.returnTo_eq (s : State) (a b : Word) :
    s.returnTo a b = { s with sr := setBit (a &&& srImplemented) bitSS (s.srBit bitSS), pc := b &&& 0xFFFFFFFE#32 } := rfl

/-- SR after rete: the bits of the saved word that exist, but L, and SS. -/
theorem srBit_reteTo (s : State) (a b : Word) : (∀ n, n < 31 → ((s.returnTo a b).setSrBit bitL false).srBit n =
      (decide (n ≠ bitL) && srImplemented.getLsbD n && a.getLsbD n)) ∧
    ((s.returnTo a b).setSrBit bitL false).srBit bitSS = s.srBit bitSS := by
  constructor
  · intro n hn
    rw [State.srBit, State.setSrBit, getLsbD_setBit (by omega), State.returnTo_eq, getLsbD_writtenSr hn]
    by_cases h : n = bitL <;> simp [h]
  · exact (getLsbD_setBit (by decide)).trans getLsbD_writtenSr_secure

theorem State.setSystemSp_frame (s : State) (v : Word) :
    (s.setSystemSp v).sr = s.sr ∧ (s.setSystemSp v).mem = s.mem ∧ (s.setSystemSp v).cfg = s.cfg ∧ (s.setSystemSp v).ret = s.ret ∧
      (s.setSystemSp v).ctl = s.ctl ∧ SameSystem s (s.setSystemSp v) := by
  unfold State.setSystemSp
  split <;> simp [SameSystem]

theorem SameSystem.trans {u : State} (h : SameSystem s t) (g : SameSystem t u) : SameSystem s u := by
  unfold SameSystem at *
  simp only [h, g, and_self]

/-- SS kept, the pointer of the system stack is the one that was set. -/
theorem State.systemSp_congr (ss : t.srBit bitSS = s.srBit bitSS) (sec : t.spSec = s.spSec) (sys : t.spSys = s.spSys) :
    t.systemSp = s.systemSp := by
  rw [State.systemSp, State.systemSp, ss, sec, sys]

/-- In AVR32A every mode has the one bank. -/
theorem State.phys_shared (pushes : s.cfg.archB = false) {i : RegNo} (h : i ≠ 13#4 ∧ i ≠ 15#4) : s.phys i = .bank .shared i := by
  simp [State.phys, contextOf, pushes, h]

theorem rete_saved (s : State) (ne0 : s.mode ≠ 0#3) (ne1 : s.mode ≠ 1#3) (archB : s.cfg.archB = true) : Gives (exec .rete s) fun t =>
    (∀ n, n < 31 → t.srBit n = (decide (n ≠ bitL) && srImplemented.getLsbD n && (s.ret.saved s.mode).1.getLsbD n)) ∧
    t.srBit bitSS = s.srBit bitSS ∧ t.pc = (s.ret.saved s.mode).2 &&& 0xFFFFFFFE#32 ∧ SameRegs s t [] ∧ SameMem s t ∧ SameSystem s t := by
  have run : exec .rete s = .next ((s.returnTo (s.ret.saved s.mode).1 (s.ret.saved s.mode).2).setSrBit bitL false) :=
    (if_neg (not_or.mpr ⟨ne0, ne1⟩)).trans (if_pos archB)
  obtain ⟨bits, ss⟩ := srBit_reteTo s (s.ret.saved s.mode).1 (s.ret.saved s.mode).2
  exact ⟨_, run, bits, ss, rfl, sameRegs_of, sameMem_of, by simp [SameSystem, State.returnTo, State.setSrBit, State.writeSr]⟩

/-- The state that rete leaves in AVR32A from `u`, behind the words it has popped. -/
def State.popped (u : State) (l : List (RegNo × Word)) (sp a b : Word) : State :=
  (((u.setRegs l).setSystemSp sp).returnTo a b).setSrBit bitL false

theorem State.popped_frame (u : State) (l : List (RegNo × Word)) (sp a b : Word) :
    (∀ n, n < 31 → (u.popped l sp a b).srBit n = (decide (n ≠ bitL) && srImplemented.getLsbD n && a.getLsbD n)) ∧
    (u.popped l sp a b).srBit bitSS = u.srBit bitSS ∧ (u.popped l sp a b).pc = b &&& 0xFFFFFFFE#32 ∧
    (u.popped l sp a b).systemSp = sp ∧ SameMem u (u.popped l sp a b) ∧ SameSystem u (u.popped l sp a b) := by
  obtain ⟨sr, mem, _, _, _, system⟩ := (u.setRegs l).setSystemSp_frame sp
  obtain ⟨bits, ss⟩ := srBit_reteTo ((u.setRegs l).setSystemSp sp) a b
  have secure : ((u.setRegs l).setSystemSp sp).srBit bitSS = u.srBit bitSS := by rw [State.srBit, sr, State.setRegs_sr]; rfl
  have regs : SameSystem u (u.setRegs l) := by simp [SameSystem]
  have moved : SameSystem ((u.setRegs l).setSystemSp sp) (u.popped l sp a b) := by
    simp [SameSystem, State.popped, State.returnTo, State.setSrBit, State.writeSr]
  refine ⟨bits, ss.trans secure, rfl, ?_, sameMem_of (mem.trans (u.setRegs_mem l)), (regs.trans system).trans moved⟩
  exact (State.systemSp_congr ss rfl rfl).trans (State.systemSp_setSystemSp _ sp)

theorem State.readPhys_popped (u : State) (l : List (RegNo × Word)) (sp a b : Word) {p : PhysReg} (notPc : p ≠ .pc)
    (notSp : p ≠ if u.srBit bitSS then .spSec else .spSys) : (u.popped l sp a b).readPhys p = (u.setRegs l).readPhys p := by
  have behind : (u.popped l sp a b).readPhys p = ((u.setRegs l).setSystemSp sp).readPhys p := by
    cases p with
    | pc => exact absurd rfl notPc
    | bank c i => cases c <;> rfl
    | _ => rfl
  rw [behind, State.readPhys_setSystemSp]
  rwa [State.srBit, State.setRegs_sr]

/-- The popped registers, in whichever mode the return has led to. -/
theorem State.getReg_popped (u : State) {l : List (RegNo × Word)} (sp a b : Word) (pushes : u.cfg.archB = false)
    (nodup : (l.map Prod.fst).Nodup) {q : RegNo × Word} (hq : q ∈ l) (h : q.1 ≠ 13#4 ∧ q.1 ≠ 15#4) :
    (u.popped l sp a b).getReg q.1 = q.2 := by
  have cfg : (u.popped l sp a b).cfg = u.cfg := (State.popped_frame u l sp a b).2.2.2.2.2.1
  rw [State.getReg, State.phys_shared (cfg ▸ pushes) h, u.readPhys_popped l sp a b (p := .bank .shared q.1) nofun (by split <;> nofun),
    ← State.phys_shared pushes h, ← u.phys_setRegs l]
  exact u.getReg_setRegs nodup hq h.2

/-- The registers that rete pops on its way out of an interrupt mode, with their words. -/
def State.poppedRegs (s : State) : List (RegNo × Word) :=
  if interruptMode s.mode then
    [(14#4, s.wordInTurn s.systemSp 2), (12#4, s.wordInTurn s.systemSp 3), (11#4, s.wordInTurn s.systemSp 4),
     (10#4, s.wordInTurn s.systemSp 5), (9#4, s.wordInTurn s.systemSp 6), (8#4, s.wordInTurn s.systemSp 7)]
  else []

theorem State.poppedRegs_interrupt (s : State) (h : interruptMode s.mode = true) : s.poppedRegs =
    [(14#4, s.wordInTurn s.systemSp 2), (12#4, s.wordInTurn s.systemSp 3), (11#4, s.wordInTurn s.systemSp 4),
     (10#4, s.wordInTurn s.systemSp 5), (9#4, s.wordInTurn s.systemSp 6), (8#4, s.wordInTurn s.systemSp 7)] := if_pos h

/-- They are LR and R12 to R8, each once. -/
theorem State.poppedRegs_numbers (s : State) :
    (s.poppedRegs.map Prod.fst).Nodup ∧ ∀ q ∈ s.poppedRegs, q.1 ≠ 13#4 ∧ q.1 ≠ 15#4 := by
  unfold State.poppedRegs
  split <;> simp

theorem State.getReg_poppedRegs (u s : State) (sp a b : Word) (pushes : u.cfg.archB = false) :
    ∀ q ∈ s.poppedRegs, (u.popped s.poppedRegs sp a b).getReg q.1 = q.2 := fun q hq =>
  u.getReg_popped sp a b pushes s.poppedRegs_numbers.1 hq (s.poppedRegs_numbers.2 q hq)

theorem State.getReg_popped_interrupt (u s : State) (sp a b : Word) (pushes : u.cfg.archB = false) (h : interruptMode s.mode = true) :
    let t := u.popped s.poppedRegs sp a b
    t.getReg 14#4 = s.wordInTurn s.systemSp 2 ∧ t.getReg 12#4 = s.wordInTurn s.systemSp 3 ∧ t.getReg 11#4 = s.wordInTurn s.systemSp 4 ∧
      t.getReg 10#4 = s.wordInTurn s.systemSp 5 ∧ t.getReg 9#4 = s.wordInTurn s.systemSp 6 ∧ t.getReg 8#4 = s.wordInTurn s.systemSp 7 := by
  have popped (i : RegNo) (k : Nat) (hk : (i, s.wordInTurn s.systemSp k) ∈ s.poppedRegs) :=
    u.getReg_poppedRegs s sp a b pushes (i, s.wordInTurn s.systemSp k) hk
  have row := s.poppedRegs_interrupt h
  exact ⟨popped 14#4 2 (by simp [row]), popped 12#4 3 (by simp [row]), popped 11#4 4 (by simp [row]), popped 10#4 5 (by simp [row]),
    popped 9#4 6 (by simp [row]), popped 8#4 7 (by simp [row])⟩

theorem interruptMode_iff {m : BitVec 3} (ne0 : m ≠ 0#3) (ne1 : m ≠ 1#3) : interruptMode m = true ↔ m ≠ 6#3 ∧ m ≠ 7#3 := by
  revert m; decide

theorem exec_rete_popping (ne0 : s.mode ≠ 0#3) (ne1 : s.mode ≠ 1#3) (pushes : s.cfg.archB = false) (direct : Direct s)
    (ha : s.systemSp.toNat % 4 = 0) {size : Nat} (hs : size = if interruptMode s.mode then 32 else 8) (hb : Backed s s.systemSp size) :
    exec .rete s = .next ((s.turns (size / 4 - 1)).popped s.poppedRegs (s.systemSp + BitVec.ofNat 32 size)
      (s.wordInTurn s.systemSp 0) (s.wordInTurn s.systemSp 1)) := by
  have run : exec .rete s = _ := (if_neg (not_or.mpr ⟨ne0, ne1⟩)).trans (if_neg (by rw [pushes]; decide))
  rw [run]
  simp only [State.poppedRegs]
  split at hs
  next interrupt =>
    subst hs
    simp only [if_pos interrupt]
    rw [popWords_direct direct .rete ha (show Backed s s.systemSp (4 * (2 + interruptFrame.length)) from hb)]
    rfl
  next other =>
    subst hs
    simp only [if_neg other]
    rw [popWords_direct direct .rete ha (show Backed s s.systemSp (4 * (2 + ([] : List RegNo).length)) from hb)]
    rfl

theorem rete_popping (s : State) (ne0 : s.mode ≠ 0#3) (ne1 : s.mode ≠ 1#3) (pushes : s.cfg.archB = false) (direct : Direct s)
    (ha : s.systemSp.toNat % 4 = 0) :
    let interrupt := s.mode ≠ 6#3 ∧ s.mode ≠ 7#3
    let size := if interrupt then 32 else 8
    let sp := s.systemSp
    Backed s sp size → Gives (exec .rete s) fun t =>
      (∀ n, n < 31 → t.srBit n = (decide (n ≠ bitL) && srImplemented.getLsbD n && (wordAt s sp).getLsbD n)) ∧
      t.srBit bitSS = s.srBit bitSS ∧ t.pc = s.wordInTurn sp 1 &&& 0xFFFFFFFE#32 ∧ t.systemSp = sp + BitVec.ofNat 32 size ∧
      (interrupt →
        t.getReg 14#4 = s.wordInTurn sp 2 ∧ t.getReg 12#4 = s.wordInTurn sp 3 ∧ t.getReg 11#4 = s.wordInTurn sp 4 ∧
        t.getReg 10#4 = s.wordInTurn sp 5 ∧ t.getReg 9#4 = s.wordInTurn sp 6 ∧ t.getReg 8#4 = s.wordInTurn sp 7) ∧
      (∀ p : PhysReg, p.Real → p ≠ .pc → p ≠ (if s.srBit bitSS then .spSec else .spSys) →
        (interrupt → ∀ i ∈ [8#4, 9#4, 10#4, 11#4, 12#4, 14#4], p ≠ .bank .shared i) → t.readPhys p = s.readPhys p) ∧
      SameMem (s.turns (size / 4 - 1)) t ∧ SameSystem (s.turns (size / 4 - 1)) t := by
  intro interrupt size sp hb
  have is := interruptMode_iff ne0 ne1
  have sized : size = if interruptMode s.mode then 32 else 8 := if_congr is.symm rfl rfl
  have run := exec_rete_popping ne0 ne1 pushes direct ha sized hb
  obtain ⟨u, hu⟩ : ∃ u, u = s.turns (size / 4 - 1) := ⟨_, rfl⟩
  have accessed : Accessed s u := hu ▸ s.turns_accessed _
  rw [← hu] at run ⊢
  have ss : u.srBit bitSS = s.srBit bitSS := by rw [State.srBit, accessed.sr]; rfl
  have bank : u.cfg.archB = false := accessed.cfg ▸ pushes
  obtain ⟨bits, secure, pc, ptr, mem, system⟩ := u.popped_frame s.poppedRegs (sp + BitVec.ofNat 32 size) (s.wordInTurn sp 0) (s.wordInTurn sp 1)
  refine ⟨_, run, ?_, secure.trans ss, pc, ptr, fun i => ?_, fun p real notPc notSp notPopped => ?_, mem, system⟩
  · rw [← wordInTurn_zero]; exact bits
  · exact u.getReg_popped_interrupt s _ _ _ bank (is.mpr i)
  · rw [u.readPhys_popped _ _ _ _ notPc (ss ▸ notSp), u.readPhys_setRegs_other real, accessed.readPhys]
    intro q hq
    rw [State.phys_shared bank (s.poppedRegs_numbers.2 q hq)]
    by_cases i : interruptMode s.mode = true
    · rw [s.poppedRegs_interrupt i] at hq
      refine notPopped (is.mp i) q.1 ?_
      simp only [List.mem_cons, List.not_mem_nil, or_false] at hq
      obtain rfl | rfl | rfl | rfl | rfl | rfl := hq <;> simp
    · rw [State.poppedRegs, if_neg i] at hq
      cases hq

/-- Settles O50: in AVR32B from the pair of the context, in AVR32A from the words popped. -/
theorem returnFromEvent : Obligations.ReturnFromEvent := ⟨rete_saved, rete_popping⟩

/-! ## The supervisor call and its return -/

theorem rets_saved (s : State) (supervisor : s.mode = 1#3) (archB : s.cfg.archB = true) : Gives (exec .rets s) fun t =>
    (∀ n, n < 31 → t.srBit n = (srImplemented.getLsbD n && s.ret.rsrSup.getLsbD n)) ∧ t.srBit bitSS = s.srBit bitSS ∧
    t.pc = s.ret.rarSup &&& 0xFFFFFFFE#32 ∧ SameRegs s t [] ∧ SameMem s t ∧ SameSystem s t := by
  have run : exec .rets s = .next (s.returnTo s.ret.rsrSup s.ret.rarSup) :=
    (if_neg (by rw [supervisor]; decide)).trans ((if_pos supervisor).trans (if_pos archB))
  exact ⟨_, run, fun n hn => getLsbD_writtenSr hn, getLsbD_writtenSr_secure, rfl, sameRegs_of, sameMem_of, by
    simp [SameSystem, State.returnTo, State.writeSr]⟩

theorem rets_popping (s : State) (supervisor : s.mode = 1#3) (pushes : s.cfg.archB = false) (direct : Direct s)
    (ha : s.systemSp.toNat % 4 = 0) (hb : Backed s s.systemSp 8) : Gives (exec .rets s) fun t =>
      (∀ n, n < 31 → t.srBit n = (srImplemented.getLsbD n && (wordAt s s.systemSp).getLsbD n)) ∧ t.srBit bitSS = s.srBit bitSS ∧
      t.pc = wordAt s.busTurn (s.systemSp + 4#32) &&& 0xFFFFFFFE#32 ∧ t.systemSp = s.systemSp + 8#32 ∧ SameMem s.busTurn t ∧
      SameSystem s.busTurn t := by
  have run : exec .rets s = .next ((s.busTurn.setSystemSp (s.systemSp + 8#32)).returnTo (s.wordInTurn s.systemSp 0)
      (s.wordInTurn s.systemSp 1)) := by
    refine ((if_neg (by rw [supervisor]; decide)).trans ((if_pos supervisor).trans (if_neg (by rw [pushes]; decide)))).trans ?_
    simp only
    rw [popWords_direct direct .rets (n := 2) ha hb]
    rfl
  obtain ⟨sr, mem, _, _, _, system⟩ := s.busTurn.setSystemSp_frame (s.systemSp + 8#32)
  have secure : (s.busTurn.setSystemSp (s.systemSp + 8#32)).srBit bitSS = s.srBit bitSS := congrArg (·.getLsbD bitSS) sr
  have ss : ((s.busTurn.setSystemSp (s.systemSp + 8#32)).returnTo (s.wordInTurn s.systemSp 0) (s.wordInTurn s.systemSp 1)).srBit bitSS =
      (s.busTurn.setSystemSp (s.systemSp + 8#32)).srBit bitSS := getLsbD_writtenSr_secure
  refine ⟨_, run, fun n hn => ?_, ss.trans secure, ?_, ?_, sameMem_of mem, system.trans ?_⟩
  · rw [← wordInTurn_zero]; exact getLsbD_writtenSr hn
  · rw [← wordInTurn_one]; rfl
  · exact (State.systemSp_congr ss rfl rfl).trans (State.systemSp_setSystemSp _ _)
  · simp [SameSystem, State.returnTo, State.writeSr]

/-- The mode of an SR that `setMode` has made 1, and its other bits. -/
theorem supervisor_sr {v : Word} (h : t.sr = setMode v 1#3) (hs : s.sr = v) : t.mode = 1#3 ∧ SameSr s t [22, 23, 24] := by
  refine ⟨State.mode_setMode h, fun n hn other => ?_⟩
  simp only [List.mem_cons, List.not_mem_nil, or_false, not_or] at other
  rw [State.srBit, h, getLsbD_setMode_eq hn, if_neg (by omega), State.srBit, hs]

theorem scall_saving (s : State) (mode : s.mode = 0#3 ∨ s.mode = 1#3) (archB : s.cfg.archB = true) : Gives (exec .scall s) fun t =>
    t.ret.rarSup = s.pc + 2#32 ∧ t.ret.rsrSup = s.sr ∧ t.mode = 1#3 ∧ SameSr s t [22, 23, 24] ∧
    t.pc = (s.ctl.evba + 0x100#32) &&& 0xFFFFFFFE#32 ∧ SameRegs s t [] ∧ SameMem s t ∧ t.ctl = s.ctl := by
  have run : exec .scall s = .next (({ s with ret := s.ret.save 1#3 s.sr (s.pc + 2#32), sr := setMode s.sr 1#3 } : State).jump
      (scallTarget s)) := (if_pos mode).trans (if_pos archB)
  obtain ⟨supervisor, sr⟩ := supervisor_sr (s := s) (t := ({ s with ret := s.ret.save 1#3 s.sr (s.pc + 2#32), sr := setMode s.sr 1#3 } :
    State).jump (scallTarget s)) rfl rfl
  exact ⟨_, run, rfl, rfl, supervisor, sr, rfl, sameRegs_of, sameMem_of, rfl⟩

theorem pushSystem_direct (direct : Direct s) {va : Word} (ha : va.toNat % 4 = 0) (hb : Backed s va 4) (v : Word) :
    pushSystem va v s = .ok () { s with mem := writeBytes s.mem va (bytesOfWord v 4) } := by
  have hc := checkAccess_direct direct.1 .write true .scall ((aligned_word_iff (.inl rfl)).mpr ha)
  have whole : (bytesOfWord v 4).take 4 = bytesOfWord v 4 := rfl
  simp [pushSystem, hc, Res.bind, writeChecked, direct.busErrorIn (k := .write) nofun hb, writeTurns, whole]

theorem exec_scall_pushing (mode : s.mode = 0#3 ∨ s.mode = 1#3) (pushes : s.cfg.archB = false) (direct : Direct s)
    (ha : s.systemSp.toNat % 4 = 0) (hb : Backed s (s.systemSp - 8#32) 8) :
    let u := State.busTurn { s with mem := writeBytes s.mem (s.systemSp - 4#32) (bytesOfWord (s.pc + 2#32) 4) }
    exec .scall s = .next (({ ({ u with mem := writeBytes u.mem (s.systemSp - 8#32) (bytesOfWord s.sr 4) } : State).setSystemSp
      (s.systemSp - 8#32) with sr := setMode s.sr 1#3 } : State).jump (scallTarget s)) := by
  intro u
  have high : (s.systemSp - 4#32).toNat % 4 = 0 := by rw [BitVec.toNat_sub]; simp; omega
  have low : (s.systemSp - 8#32).toNat % 4 = 0 := by rw [BitVec.toNat_sub]; simp; omega
  have backed {k : Nat} (hk : k < 2) := Backed.pushedWord (s := s) (sp := s.systemSp) (n := 2) hb hk
  have first := pushSystem_direct direct high (backed (k := 0) (by decide)) (s.pc + 2#32)
  have second := pushSystem_direct (s := u) direct low (backed (k := 1) (by decide)) s.sr
  refine ((if_pos mode).trans (if_neg (by rw [pushes]; decide))).trans ?_
  simp only [first, Res.bind]
  rw [second]
  rfl

theorem scall_pushing (s : State) (mode : s.mode = 0#3 ∨ s.mode = 1#3) (pushes : s.cfg.archB = false) (direct : Direct s)
    (wf : Memory.wf s.mem = true) (ha : s.systemSp.toNat % 4 = 0) (hb : Backed s (s.systemSp - 8#32) 8) :
    let u := State.busTurn { s with mem := writeBytes s.mem (s.systemSp - 4#32) (bytesOfWord (s.pc + 2#32) 4) }
    Gives (exec .scall s) fun t =>
      t.mem = writeBytes u.mem (s.systemSp - 8#32) (bytesOfWord s.sr 4) ∧
      (Undisturbed s → wordAt t (s.systemSp - 4#32) = s.pc + 2#32 ∧ SameMemBut s t [(s.systemSp - 8#32, 8)]) ∧
      wordAt t (s.systemSp - 8#32) = s.sr ∧ t.systemSp = s.systemSp - 8#32 ∧ t.mode = 1#3 ∧ SameSr s t [22, 23, 24] ∧
      t.pc = (s.ctl.evba + 0x100#32) &&& 0xFFFFFFFE#32 ∧ t.ret = s.ret ∧ t.ctl = s.ctl := by
  intro u
  have run := exec_scall_pushing mode pushes direct ha hb
  obtain ⟨v, hv⟩ : ∃ v, v = ({ u with mem := writeBytes u.mem (s.systemSp - 8#32) (bytesOfWord s.sr 4) } : State).setSystemSp
    (s.systemSp - 8#32) := ⟨_, rfl⟩
  obtain ⟨sr, mem, _, ret, ctl, _⟩ :=
    ({ u with mem := writeBytes u.mem (s.systemSp - 8#32) (bytesOfWord s.sr 4) } : State).setSystemSp_frame (s.systemSp - 8#32)
  obtain ⟨t, ht⟩ : ∃ t, t = ({ v with sr := setMode s.sr 1#3 } : State).jump (scallTarget s) := ⟨_, rfl⟩
  have stored : t.mem = writeBytes u.mem (s.systemSp - 8#32) (bytesOfWord s.sr 4) := by rw [ht]; exact (congrArg State.mem hv).trans mem
  have supervisor : t.mode = 1#3 ∧ SameSr s t [22, 23, 24] := supervisor_sr (by rw [ht]; rfl) rfl
  obtain ⟨mode1, bits⟩ := supervisor
  have kept : Memory.wf u.mem = true := (Accessed.busTurn _).memory (writeBytes_wf wf)
  refine ⟨t, run.trans (by rw [ht, hv]), stored, fun quiet => ?_, ?_, ?_, mode1, bits, ?_, ?_, ?_⟩
  · have frame : t.mem = pushed s.mem s.systemSp [s.pc + 2#32, s.sr] := by
      have same : u = { s with mem := writeBytes s.mem (s.systemSp - 4#32) (bytesOfWord (s.pc + 2#32) 4) } := Undisturbed.busTurn quiet
      rw [stored, same, pushed, pushed, pushed, BitVec.sub_sub]
      rfl
    have bound : 4 * [s.pc + 2#32, s.sr].length ≤ 2 ^ 32 := by simp
    refine ⟨?_, fun a outside => ?_⟩
    · rw [wordAt, frame]
      exact wordOfBytes_pushed wf ha bound (k := 0) rfl
    · rw [State.byteAt, frame]
      exact read_pushed_outside wf fun k hk h => outside (touches_of_inRange (List.mem_singleton.mpr rfl) (inRange_pushed hk h))
  · rw [wordAt, stored]
    exact (congrArg wordOfBytes (readBytes_writeBytes (bs := bytesOfWord s.sr 4) kept (by simp [bytesOfWord]))).trans
      (wordOfBytes_bytesOfWord s.sr)
  · have ss : t.srBit bitSS = v.srBit bitSS := by
      rw [bits bitSS (by decide) (by decide), hv, State.srBit, State.srBit, sr]; rfl
    have ptr : t.systemSp = v.systemSp := State.systemSp_congr ss (by rw [ht]; rfl) (by rw [ht]; rfl)
    rw [ptr, hv, State.systemSp_setSystemSp]
  · rw [ht]; rfl
  · rw [ht]; exact (congrArg State.ret hv).trans ret
  · rw [ht]; exact (congrArg State.ctl hv).trans ctl

/-- From the modes above Supervisor, scall is a call. -/
theorem scall_calling (s : State) (ne0 : s.mode ≠ 0#3) (ne1 : s.mode ≠ 1#3) : Gives (exec .scall s) fun t =>
    t.getReg 14#4 = s.pc + 2#32 ∧ t.pc = (s.ctl.evba + 0x100#32) &&& 0xFFFFFFFE#32 ∧ SameRegs s t [14#4] ∧ SameSr s t [] ∧ SameMem s t ∧
    SameSystem s t := by
  obtain ⟨pc, lr, _, regs, sr, mem, system⟩ := called_callTo (i := .scall) (.refl s) (scallTarget s) (len := 2#32) rfl
  exact ⟨_, if_neg (not_or.mpr ⟨ne0, ne1⟩), lr, pc, regs, sr, mem, system⟩

/-- Settles O49: the call and the return of each class, and those of the modes above. -/
theorem supervisorCallAndReturn : Obligations.SupervisorCallAndReturn :=
  ⟨scall_saving, scall_pushing, scall_calling, rets_saved, rets_popping, fun s ne0 ne1 =>
    ⟨_, (if_neg ne0).trans (if_neg ne1), goesTo_jump s _⟩⟩

end Sys2Proof.Machine
end

section
/-! PROOFS. O37, O38 : the stores of one register or a pair. Each ends with the bytes of its transfers written, the pointer moved or not. -/

namespace Sys2Proof.Machine

variable {s s1 t u : State} {i : Instr} {p : RegNo} {len va ptr after : Word} {kind : LsKind} {ds : List RegNo} {bits : List Nat}
  {bytes : List Byte} {ps : List (Word × Nat)} {r : Res Unit}

/-! ## The bytes stored -/

theorem length_bytesOfWord (v : Word) (n : Nat) : (bytesOfWord v n).length = n := by
  induction n with
  | zero => rfl
  | succ n ih => rw [bytesOfWord, List.length_cons, ih]

/-- The bytes of a word made of bytes are those bytes. -/
theorem bytesOfWord_wordOfBytes {bs : List Byte} {n : Nat} (hn : bs.length = n) (h : n ≤ 4) : bytesOfWord (wordOfBytes bs) n = bs := by
  refine List.ext_getElem? fun k => ?_
  by_cases hk : k < n
  · rw [getElem?_bytesOfWord hk, List.getElem?_eq_getElem (hn ▸ hk)]
    congr 1
    ext j hj
    have place : (8 * (n - 1 - k) + j) / 8 = bs.length - 1 - k := by omega
    rw [BitVec.getElem_extractLsb', getLsbD_wordOfBytes bs (by omega), place, List.getElem?_reverse (by omega),
      show bs.length - 1 - (bs.length - 1 - k) = k by omega, List.getElem?_eq_getElem (hn ▸ hk), show (8 * (n - 1 - k) + j) % 8 = j by omega]
    exact BitVec.getLsbD_eq_getElem hj
  · rw [List.getElem?_eq_none (by rw [length_bytesOfWord]; omega), List.getElem?_eq_none (by omega)]

/-- The bytes of a word swapped are its bytes in the opposite order (47_data_transfer_stores_multiple.md R821). -/
theorem bytesOfWord_swapBytes (v : Word) : bytesOfWord (swapBytes v) 4 = (bytesOfWord v 4).reverse := by
  have four : (bytesOfWord v 4).length = 4 := length_bytesOfWord v 4
  rw [← wordOfBytes_bytesOfWord v, swapBytes_wordOfBytes four, wordOfBytes_bytesOfWord]
  exact bytesOfWord_wordOfBytes (by rw [List.length_reverse, four]) (by decide)

/-- Only the lower half of a word is in its last two bytes. -/
theorem bytesOfWord_two (v : Word) : bytesOfWord v 2 = [(v.setWidth 16).extractLsb' 8 8, (v.setWidth 16).extractLsb' 0 8] := by
  simp only [bytesOfWord, List.cons.injEq, and_true]
  constructor
  · ext k hk; simp; omega
  · ext k hk; simp; omega

theorem bytesOfWord_swapHalf (v : Word) : bytesOfWord (zext (swapHalf (v.setWidth 16))) 2 = (bytesOfWord v 2).reverse := by
  have back : (zext (swapHalf (v.setWidth 16))).setWidth 16 = swapHalf (v.setWidth 16) := by
    rw [zext, BitVec.setWidth_setWidth_of_le _ (by decide), BitVec.setWidth_eq]
  rw [bytesOfWord_two, bytesOfWord_two, back]
  have high : (swapHalf (v.setWidth 16)).extractLsb' 8 8 = (v.setWidth 16).extractLsb' 0 8 := by
    ext k hk
    rw [BitVec.getElem_extractLsb', BitVec.getElem_extractLsb', getLsbD_swapHalf _ (by omega)]
    congr 1; omega
  have low : (swapHalf (v.setWidth 16)).extractLsb' 0 8 = (v.setWidth 16).extractLsb' 8 8 := by
    ext k hk
    rw [BitVec.getElem_extractLsb', BitVec.getElem_extractLsb', getLsbD_swapHalf _ (by omega)]
    congr 1; omega
  rw [high, low]
  rfl

/-- A word made of two halfwords. -/
theorem bytesOfWord_halves (hi lo : Half) :
    bytesOfWord (hi ++ lo) 4 = [hi.extractLsb' 8 8, hi.extractLsb' 0 8, lo.extractLsb' 8 8, lo.extractLsb' 0 8] := by
  simp only [bytesOfWord, List.cons.injEq, and_true]
  refine ⟨?_, ?_, ?_, ?_⟩ <;> refine BitVec.eq_of_getLsbD_eq fun k hk => ?_ <;>
    simp only [BitVec.getLsbD_setWidth, BitVec.getLsbD_ushiftRight, BitVec.getLsbD_append, BitVec.getLsbD_extractLsb']
  · rw [if_neg (by omega), show 8 * 3 + k - 16 = 8 + k by omega]
  · rw [if_neg (by omega), show 8 * 2 + k - 16 = 0 + k by omega]
  · rw [if_pos (by omega)]
  · rw [if_pos (by omega)]

/-- `half` is the halfword extended. -/
theorem setWidth_half (v : Word) (x : BitVec 1) : (half v x).setWidth 16 = halfPart v x := by
  have back (h : Half) : (sext h).setWidth 16 = h := by
    ext k hk
    rw [BitVec.getElem_setWidth, sext, BitVec.getLsbD_signExtend, if_pos hk, decide_eq_true (by omega), Bool.true_and,
      BitVec.getLsbD_eq_getElem hk]
  unfold half halfPart
  split <;> exact back _

theorem bytesOfWord_halfParts (x y : Word) (xp yp : BitVec 1) :
    bytesOfWord (halfPart x xp ++ halfPart y yp) 4 = bytesOfWord (half x xp) 2 ++ bytesOfWord (half y yp) 2 := by
  rw [bytesOfWord_halves, bytesOfWord_two, bytesOfWord_two, setWidth_half, setWidth_half]
  rfl

/-! ## What a store leaves -/

/-- `r` is a store of `bytes` at `va`: where the access passes, the bytes are written to its transfers. -/
def Puts (s : State) (kind : LsKind) (va : Word) (bytes : List Byte) (r : Res Unit) : Prop :=
  ∀ ps s1, Reaches s kind bytes.length va ps s1 → r = .ok () { s1 with mem := writeTransfers s.mem ps bytes }

theorem puts_store {n : Nat} {v : Word} (h : bytesOfWord v n = bytes) : Puts s kind va bytes (store kind n va v s) := by
  subst h
  intro ps s1 reaches
  rw [length_bytesOfWord] at reaches
  exact store_reaches reaches

theorem puts_storeDouble (s : State) (kind : LsKind) (va hi lo : Word) :
    Puts s kind va (bytesOfWord hi 4 ++ bytesOfWord lo 4) (storeDouble kind va hi lo s) := by
  intro ps s1 reaches
  rw [List.length_append, length_bytesOfWord, length_bytesOfWord] at reaches
  exact storeDouble_reaches reaches

theorem sameMemBut_writeTransfers (s : State) (ps : List (Word × Nat)) (bytes : List Byte) (h : t.mem = writeTransfers s.mem ps bytes)
    (wf : Memory.wf s.mem = true) : SameMemBut s t ps := by
  intro a outside
  rw [State.byteAt, h]
  exact read_writeTransfers_outside wf fun p hp inside => outside (touches_of_inRange hp inside)

/-- Behind a store that passes, what is written is what the store changes. -/
theorem OnlyChecked.storeFrame (checked : OnlyChecked s s1)
    (only : WritesOnly { s1 with mem := writeTransfers s.mem ps bytes } t after ds []) (mem : t.mem = writeTransfers s.mem ps bytes) :
    StoreFrame s s1 t ds ps := by
  have accessed : Accessed s { s1 with mem := writeTransfers s.mem ps bytes } := by
    rw [← checked.mem]; exact checked.accessed.trans (.write s1 ps bytes)
  exact ⟨checked, accessed.sameRegs only, accessed.sameSr only, sameMemBut_writeTransfers s ps bytes mem, only.system⟩

/-- Free values drawn before a store are none of what it leaves. -/
theorem Reaches.checked_drawn {n k : Nat} (reaches : Reaches (s.drawFree k) kind n va ps s1) : OnlyChecked s s1 :=
  (OnlyChecked.drawFree s k).trans reaches.checked

/-- A store behind which only the PC moves; `k` free values have been drawn for it. -/
theorem stored_of_finishStore {k : Nat} (run : exec i s = s.finishStore len r) (puts : Puts (s.drawFree k) kind va bytes r)
    (reaches : Reaches (s.drawFree k) kind bytes.length va ps s1) (hlen : s.pc + len = s.after i) : Gives (exec i s) fun t =>
      t.mem = writeTransfers s.mem ps bytes ∧ StoreFrame s s1 t [] ps ∧ t.pc = s.after i := by
  rw [puts ps s1 reaches] at run
  have pc : s1.pc = s.pc := reaches.checked_drawn.accessed.pc
  have only := WritesOnly.advance { s1 with mem := writeTransfers s.mem ps bytes } len [] []
  exact ⟨_, run, rfl, reaches.checked_drawn.storeFrame only rfl, by rw [State.advance_pc, ← hlen, ← pc]⟩

/-- A store behind which the pointer moves. -/
theorem stored_of_finishStorePtr {k : Nat} (run : exec i s = s.finishStorePtr len p ptr r) (puts : Puts (s.drawFree k) kind va bytes r)
    (reaches : Reaches (s.drawFree k) kind bytes.length va ps s1) (hlen : s.pc + len = s.after i) : Gives (exec i s) fun t =>
      t.mem = writeTransfers s.mem ps bytes ∧ StoreFrame s s1 t [p] ps ∧ Writes i s t p ptr := by
  rw [puts ps s1 reaches] at run
  have pc : s1.pc = s.pc := reaches.checked_drawn.accessed.pc
  have only := (WritesOnly.advance { s1 with mem := writeTransfers s.mem ps bytes } len [p] []).setReg (List.mem_singleton_self p) ptr
  have mem := (({ s1 with mem := writeTransfers s.mem ps bytes } : State).advance len).setReg_mem p ptr
  exact ⟨_, run, mem, reaches.checked_drawn.storeFrame only mem, writes_setReg (by rw [State.advance_pc, ← hlen, ← pc]) p ptr⟩

theorem stores_of_finishStore (run : exec i s = s.finishStore len r) (puts : Puts s kind va bytes r)
    (hlen : s.pc + len = s.after i := by rfl) : Stores i s kind va bytes := fun _ _ reaches =>
  stored_of_finishStore (k := 0) run puts reaches hlen

theorem storesMoving_of_finishStorePtr (run : exec i s = s.finishStorePtr len p ptr r) (puts : Puts s kind va bytes r)
    (hlen : s.pc + len = s.after i := by rfl) : StoresMoving i s kind va bytes p ptr := fun _ _ reaches =>
  stored_of_finishStorePtr (k := 0) run puts reaches hlen

/-- A store of any bytes that leaves any value in its pointer (R822). -/
theorem storesAnything_of_finishStorePtr {n k : Nat} (run : exec i s = s.finishStorePtr len p ptr r)
    (puts : Puts (s.drawFree k) kind va bytes r) (hn : bytes.length = n) (hlen : s.pc + len = s.after i := by rfl) :
    StoresAnything i s (s.drawFree k) kind n va p := by
  intro ps s1 reaches
  obtain ⟨t, run, mem, frame, -⟩ := stored_of_finishStorePtr run puts (hn ▸ reaches) hlen
  exact ⟨t, run, ⟨bytes, hn, mem⟩, frame⟩

/-! ## The stores of a register -/

/-- Formats III, IV and V of st.b and st.h. -/
theorem storeForms_store {mk : StoreForm → Instr} {k : Nat} (run : ∀ form, exec (mk form) s = s.storeForm kind k form)
    (lenIII : ∀ rp rs disp, s.pc + 2#32 = s.after (mk (.formIII rp rs disp)) := by intros; rfl)
    (lenIV : ∀ rp rs disp, s.pc + 4#32 = s.after (mk (.formIV rp rs disp)) := by intros; rfl)
    (lenV : ∀ rb ri rs sa, s.pc + 4#32 = s.after (mk (.formV rb ri rs sa)) := by intros; rfl) :
    (∀ rp rs disp, Stores (mk (.formIII rp rs disp)) s kind (s.dispZ rp disp k) (bytesOfWord (s.getReg rs) (2 ^ k))) ∧
    (∀ rp rs disp, Stores (mk (.formIV rp rs disp)) s kind (s.dispS rp disp 0) (bytesOfWord (s.getReg rs) (2 ^ k))) ∧
    (∀ rb ri rs sa, Stores (mk (.formV rb ri rs sa)) s kind (s.indexed rb ri sa) (bytesOfWord (s.getReg rs) (2 ^ k))) :=
  ⟨fun _ _ _ => stores_of_finishStore (run _) (puts_store rfl) (lenIII ..),
    fun _ _ _ => stores_of_finishStore (run _) (puts_store rfl) (lenIV ..),
    fun _ _ _ _ => stores_of_finishStore (run _) (puts_store rfl) (lenV ..)⟩

/-- A conditional store of revision 2. -/
theorem conditionally_stores {c : Cond} {rp rs : RegNo} {disp : BitVec 9} (k : Nat) (rev : hasRev s.cfg 2 = true)
    (run : exec i s = s.storeCond kind k c rp rs disp) (four : instrLength i = 4 := by rfl) :
    Conditionally (s.cond c) i s (Stores i s kind (s.dispZ rp disp k) (bytesOfWord (s.getReg rs) (2 ^ k))) := by
  have len : 4#32 = BitVec.ofNat 32 (instrLength i) := by rw [four]
  exact conditionally_of_ifCond (len ▸ run.trans (if_pos rev)) fun holds => stores_of_finishStore holds (puts_store rfl)

/-- stcond with L set: the store, and Z (R846). -/
theorem stcond_set {rp rs : RegNo} {disp : BitVec 16} (locked : s.flagL = true) (reaches : Reaches s .stcond 4 (s.dispS rp disp 0) ps s1) :
    Gives (exec (.stcond rp rs disp) s) fun t =>
      t.mem = writeTransfers s.mem ps (bytesOfWord (s.getReg rs) 4) ∧ (Memory.wf s.mem = true → SameMemBut s t ps) ∧ t.flagZ = true ∧
      t.pc = s.after (.stcond rp rs disp) ∧ OnlyChecked s s1 ∧ SameRegs s t [] ∧ SameSr s t [1] ∧ SameSystem s1 t := by
  have run : exec (.stcond rp rs disp) s = ((store .stcond 4 (s.dispS rp disp 0) (s.getReg rs) s).bind fun _ s1 =>
      .ok ((s1.advance 4#32).setFlags { z := some true }) s1).finish := if_pos locked
  rw [store_reaches reaches] at run
  have accessed : Accessed s { s1 with mem := writeTransfers s.mem ps (bytesOfWord (s.getReg rs) 4) } := by
    rw [← reaches.checked.mem]; exact reaches.checked.accessed.trans (.write s1 ps _)
  have only := (accessed.advance (i := .stcond rp rs disp) (len := 4#32) rfl []).setFlags { z := some true }
  obtain ⟨-, -, z, -⟩ := flags_applyFlags (State.setFlags_sr
    (({ s1 with mem := writeTransfers s.mem ps (bytesOfWord (s.getReg rs) 4) } : State).advance 4#32) { z := some true })
  exact ⟨_, run, rfl, sameMemBut_writeTransfers s ps _ rfl, z, only.pc (by simp), reaches.checked, accessed.sameRegs only,
    accessed.sameSr only, only.system⟩

theorem stcond_clear {rp rs : RegNo} {disp : BitVec 16} (unlocked : s.flagL = false) : Gives (exec (.stcond rp rs disp) s) fun t =>
    t.flagZ = false ∧ t.pc = s.after (.stcond rp rs disp) ∧ SameRegs s t [] ∧ SameSr s t [1] ∧ SameMem s t ∧ SameSystem s t := by
  have run : exec (.stcond rp rs disp) s = s.finishFlags 4#32 { z := some false } := if_neg (by rw [unlocked]; decide)
  obtain ⟨t, ends, only⟩ := CompletesWriting.finishFlags (i := .stcond rp rs disp) (s := s) (len := 4#32) (u := { z := some false })
  obtain rfl := Host.Outcome.next.inj ends
  obtain ⟨-, -, z, -⟩ := flags_applyFlags ((s.advance 4#32).setFlags_sr { z := some false })
  exact ⟨_, run, z, only.pc (by simp), only.regs, only.sr, only.mem, only.system⟩

/-- Settles O37: each form ends with the store of the bytes that its rule names. -/
theorem singleStores : Obligations.SingleStores := by
  intro s
  obtain ⟨bIII, bIV, bV⟩ := storeForms_store (s := s) (mk := .stB) (kind := .byte) (k := 0) fun _ => rfl
  obtain ⟨hIII, hIV, hV⟩ := storeForms_store (s := s) (mk := .stH) (kind := .stH) (k := 1) fun _ => rfl
  refine ⟨bIII, bIV, bV, hIII, hIV, hV, ?wIII, ?wIV, ?wV, ?sp, ?hhI, ?hhII, ?swpH, ?swpW, ?conditional, fun _ _ _ locked _ _ =>
    stcond_set locked, fun _ _ _ => stcond_clear⟩
  case wIII => exact fun _ _ _ => stores_of_finishStore rfl (puts_store rfl)
  case wIV => exact fun _ _ _ => stores_of_finishStore rfl (puts_store rfl)
  case wV => exact fun _ _ _ _ => stores_of_finishStore rfl (puts_store rfl)
  case sp => exact fun _ _ => stores_of_finishStore rfl (puts_store rfl)
  case hhI => exact fun _ _ _ _ _ _ => stores_of_finishStore rfl (puts_store (bytesOfWord_halfParts ..))
  case hhII => exact fun _ _ _ _ _ _ _ => stores_of_finishStore rfl (puts_store (bytesOfWord_halfParts ..))
  case swpH => exact fun _ _ _ => stores_of_finishStore rfl (puts_store (bytesOfWord_swapHalf _))
  case swpW => exact fun _ _ _ => stores_of_finishStore rfl (puts_store (bytesOfWord_swapBytes _))
  case conditional => exact fun _ _ _ _ rev => ⟨conditionally_stores 0 rev rfl, conditionally_stores 1 rev rfl, conditionally_stores 2 rev rfl⟩

/-! ## The stores that move their pointer -/

/-- Another register as pointer is moved. -/
theorem storesMoving_of_storePtr {rp rs : RegNo} {n : Nat} (other : rp ≠ rs) (run : exec i s = s.storePtr len kind n rp rs va ptr)
    (hlen : s.pc + len = s.after i := by rfl) : StoresMoving i s kind va (bytesOfWord (s.getReg rs) n) rp ptr :=
  storesMoving_of_finishStorePtr (run.trans (if_neg other)) (puts_store rfl) hlen

/-- The pointer as the stored register. -/
theorem storesAnything_of_storePtr {rp : RegNo} {n : Nat} (run : exec i s = s.storePtr len kind n rp rp va ptr)
    (hlen : s.pc + len = s.after i := by rfl) : StoresAnything i s (s.drawFree 2) kind n va rp :=
  storesAnything_of_finishStorePtr (run.trans (if_pos rfl)) (puts_store rfl) (length_bytesOfWord _ n) hlen

/-! ## Pairs -/

theorem puts_storePair {rs : RegNo} (even : evenNo rs = true) (va : Word) :
    Puts s .stD va (bytesOfWord (s.getReg (rs + 1#4)) 4 ++ bytesOfWord (s.getReg rs) 4) (storePair va rs s) := by
  rw [storePair, if_pos even]
  exact puts_storeDouble s .stD va _ _

theorem storesMoving_of_storePairPtr {rp rs : RegNo} (even : evenNo rs = true) (lower : rp ≠ rs) (upper : rp ≠ rs + 1#4)
    (run : exec i s = s.storePairPtr rp rs va ptr) (hlen : s.pc + 2#32 = s.after i := by rfl) :
    StoresMoving i s .stD va (bytesOfWord (s.getReg (rs + 1#4)) 4 ++ bytesOfWord (s.getReg rs) 4) rp ptr :=
  storesMoving_of_finishStorePtr (run.trans (if_neg (by simp [lower, upper]))) (puts_storePair even va) hlen

theorem storesAnything_of_storePairPtr {rp rs : RegNo} (overlap : rp = rs ∨ rp = rs + 1#4) (run : exec i s = s.storePairPtr rp rs va ptr)
    (hlen : s.pc + 2#32 = s.after i := by rfl) : StoresAnything i s (s.drawFree 3) .stD 8 va rp :=
  storesAnything_of_finishStorePtr (run.trans (if_pos (by simpa using overlap))) (puts_storeDouble (s.drawFree 3) .stD va s.free (s.freeAt 1))
    (by simp [length_bytesOfWord]) hlen

/-- Other agents act between the two words of st.d, and only there (20_memory.md R208). -/
theorem storeDouble_direct (direct : Direct s) (kind : LsKind) (ha : va.toNat % 4 = 0) (backed : Backed s va 8) (hi lo : Word) :
    let u := State.busTurn { s with mem := writeBytes s.mem va (bytesOfWord hi 4) }
    storeDouble kind va hi lo s = .ok () { u with mem := writeBytes u.mem (va + 4#32) (bytesOfWord lo 4) } := by
  intro u
  have hc := checkAccess_direct direct.1 .write s.privileged kind ((aligned_word_iff (.inr rfl)).mpr ha)
  have bus : s.busErrorIn .write [(va, 4), (va + 4#32, 4)] = none := busErrorIn_eq_none.mpr fun p hp i hi => by
    simp only [List.mem_cons, List.not_mem_nil, or_false] at hp
    obtain rfl | rfl := hp
    · exact direct.busAnswers (k := .write) nofun (backed.mono (m := 4) (by decide) i hi)
    · exact direct.busAnswers (k := .write) nofun (backed.drop (k := 4) (m := 4) (by decide) i hi)
  rw [storeDouble, hc, if_pos rfl]
  simp only [Res.bind, writeChecked, bus]
  rfl

theorem stD_inTurn {rp rs : RegNo} (even : evenNo rs = true) (direct : Direct s) (ha : (s.getReg rp).toNat % 4 = 0)
    (backed : Backed s (s.getReg rp) 8) :
    let u := State.busTurn { s with mem := writeBytes s.mem (s.getReg rp) (bytesOfWord (s.getReg (rs + 1#4)) 4) }
    Gives (exec (.stD (.formIII rp rs)) s) fun t =>
      t.mem = writeBytes u.mem (s.getReg rp + 4#32) (bytesOfWord (s.getReg rs) 4) ∧ SameRegs s t [] ∧ SameSr s t [] ∧
      t.pc = s.after (.stD (.formIII rp rs)) ∧ SameSystem u t := by
  intro u
  have run : exec (.stD (.formIII rp rs)) s = s.finishStore 2#32 (storePair (s.getReg rp) rs s) := by rfl
  rw [storePair, if_pos even, storeDouble_direct direct .stD ha backed] at run
  exact ⟨_, run, rfl, sameRegs_of, fun _ _ _ => rfl, rfl, by simp [SameSystem, u]⟩

/-- An odd register stores any pair (00_scope.md R29). -/
theorem stD_odd {rp rs ri : RegNo} {sa : BitVec 2} (odd : evenNo rs = false)
    (reaches : Reaches (s.drawFree 2) .stD 8 (s.indexed rp ri sa) ps s1) : Gives (exec (.stD (.formV rp ri rs sa)) s) fun t =>
      (∃ bytes, bytes.length = 8 ∧ t.mem = writeTransfers s.mem ps bytes) ∧ StoreFrame s s1 t [] ps := by
  have run : exec (.stD (.formV rp ri rs sa)) s = s.finishStore 4#32 (storePair (s.indexed rp ri sa) rs s) := by rfl
  rw [storePair, if_neg (by rw [odd]; decide)] at run
  have eight : (bytesOfWord s.free 4 ++ bytesOfWord (s.freeAt 1) 4).length = 8 := by simp [length_bytesOfWord]
  obtain ⟨t, run, mem, frame, -⟩ := stored_of_finishStore run
    (puts_storeDouble (s.drawFree 2) .stD (s.indexed rp ri sa) s.free (s.freeAt 1)) (eight ▸ reaches) rfl
  exact ⟨t, run, ⟨_, eight, mem⟩, frame⟩

/-- Settles O38: each form by the store it makes and the pointer it leaves. -/
theorem pointerAndDoubleStores : Obligations.PointerAndDoubleStores := by
  intro s rp rs
  refine ⟨stD_inTurn, fun other => ⟨?bI, ?bII, ?hI, ?hII, ?wI, ?wII⟩, storesAnything_of_storePtr rfl, storesAnything_of_storePtr rfl,
    storesAnything_of_storePtr rfl, storesAnything_of_storePtr rfl, storesAnything_of_storePtr rfl, storesAnything_of_storePtr rfl,
    fun even lower upper => ⟨?dI, ?dII⟩, fun overlap => ⟨?anyI, ?anyII⟩, fun even => ⟨?dIII, fun _ => ?dIV, fun _ _ => ?dV⟩,
    fun odd _ _ _ _ => stD_odd odd⟩
  case bI | bII | hI | hII | wI | wII => exact storesMoving_of_storePtr other rfl
  case dI | dII => exact storesMoving_of_storePairPtr even lower upper rfl
  case anyI | anyII => exact storesAnything_of_storePairPtr overlap rfl
  case dIII | dIV | dV => exact stores_of_finishStore rfl (puts_storePair even _)

end Sys2Proof.Machine
end

section
/-! PROOFS. O39 : the instructions that read a word and write it back, on a locked bus (49_simd_rmw.md R1034 to R1040). -/

namespace Sys2Proof.Machine

variable {s s2 : State} {i : Instr} {w va : Word} {kind : LsKind} {ws : List (Word × Nat)} {f : Word → Word}

theorem Swaps.checked (h : Swaps s kind va w ws s2) : OnlyChecked s s2 := by
  obtain ⟨rs, s1, hr, hw, -⟩ := h
  have read := checkAccess_leaves .read s.privileged kind 4 va s
  have write := checkAccess_leaves .write s1.privileged kind 4 va s1
  rw [hr] at read
  rw [hw] at write
  exact OnlyChecked.trans read write

/-- memc, mems and memt write back `f` of the word. -/
theorem modifies_word {imm : BitVec 15} (present : s.cfg.hasRmw = true) (run : exec i s = s.modifyWord kind imm f)
    (swaps : Swaps s kind (rmwAddress imm) w ws s2) : Gives (exec i s) fun t =>
      t.mem = writeTransfers s.mem ws (bytesOfWord (f w) 4) ∧ StoreFrame s s2 t [] ws ∧ t.pc = s.pc + 4#32 := by
  have run := run.trans (if_pos present)
  rw [swapWord_swaps f swaps] at run
  have only := WritesOnly.advance { s2 with mem := writeTransfers s.mem ws (bytesOfWord (f w) 4) } 4#32 [] []
  exact ⟨_, run, rfl, swaps.checked.storeFrame only rfl, congrArg (· + 4#32) swaps.checked.accessed.pc⟩

/-- One bit of a word. -/
theorem getLsbD_oneBit (bp : BitVec 5) {k : Nat} (hk : k < 32) : ((1#32 : Word) <<< bp.toNat).getLsbD k = decide (k = bp.toNat) := by
  rw [BitVec.getLsbD_shiftLeft, BitVec.getLsbD_one]
  have := bp.isLt
  grind

theorem memc_bit (w : Word) (bp : BitVec 5) {k : Nat} (hk : k < 32) :
    (w &&& ~~~(1#32 <<< bp.toNat)).getLsbD k = (decide (k ≠ bp.toNat) && w.getLsbD k) := by
  rw [BitVec.getLsbD_and, BitVec.getLsbD_not, getLsbD_oneBit bp hk, Bool.and_comm, decide_eq_true hk, Bool.true_and, decide_not]

theorem mems_bit (w : Word) (bp : BitVec 5) {k : Nat} (hk : k < 32) :
    (w ||| (1#32 <<< bp.toNat)).getLsbD k = (decide (k = bp.toNat) || w.getLsbD k) := by
  rw [BitVec.getLsbD_or, getLsbD_oneBit bp hk, Bool.or_comm]

theorem memt_bit (w : Word) (bp : BitVec 5) {k : Nat} (hk : k < 32) :
    (w ^^^ (1#32 <<< bp.toNat)).getLsbD k = (decide (k = bp.toNat) != w.getLsbD k) := by
  rw [BitVec.getLsbD_xor, getLsbD_oneBit bp hk, Bool.xor_comm]

/-- The exchange ends with the write of its destination behind the write of the word. -/
theorem exchange_frame {s0 : State} {rd : RegNo} {v : Word} {bytes : List Byte} (checked : OnlyChecked s s2)
    (len : ({ s2 with mem := writeTransfers s.mem ws bytes } : State).advance 4#32 = s0) :
    (s0.setReg rd v).mem = writeTransfers s.mem ws bytes ∧ StoreFrame s s2 (s0.setReg rd v) [rd] ws := by
  subst len
  have only := (WritesOnly.advance { s2 with mem := writeTransfers s.mem ws bytes } 4#32 [rd] []).setReg (List.mem_singleton_self rd) v
  have mem := (({ s2 with mem := writeTransfers s.mem ws bytes } : State).advance 4#32).setReg_mem rd v
  exact ⟨mem, checked.storeFrame only mem⟩

theorem xchg_gives {rd rx ry : RegNo} (defined : xchgUndefined rd rx ry = false) (swaps : Swaps s .xchg (s.getReg rx) w ws s2) :
    Gives (exec (.xchg rd rx ry) s) fun t =>
      t.mem = writeTransfers s.mem ws (bytesOfWord (s.getReg ry) 4) ∧ StoreFrame s s2 t [rd] ws ∧ Writes (.xchg rd rx ry) s t rd w := by
  have run : exec (.xchg rd rx ry) s = ((swapWord .xchg (s.getReg rx) (fun _ => s.getReg ry) s).bind fun w s1 =>
      .ok ((s1.advance 4#32).setReg rd w) s1).finish := if_neg (by rw [defined]; decide)
  rw [swapWord_swaps _ swaps] at run
  obtain ⟨mem, frame⟩ := exchange_frame (rd := rd) (v := w) swaps.checked rfl
  exact ⟨_, run, mem, frame, writes_setReg (congrArg (· + 4#32) swaps.checked.accessed.pc) rd w⟩

theorem xchg_undefined {rd rx ry : RegNo} (undefined : xchgUndefined rd rx ry = true)
    (swaps : Swaps (s.drawFree 2) .xchg (s.getReg rx) w ws s2) : Gives (exec (.xchg rd rx ry) s) fun t =>
      (∃ bytes, bytes.length = 4 ∧ t.mem = writeTransfers s.mem ws bytes) ∧ StoreFrame s s2 t [rd] ws := by
  have run : exec (.xchg rd rx ry) s = ((swapWord .xchg (s.getReg rx) (fun _ => s.free) (s.drawFree 2)).bind fun _ s1 =>
      .ok ((s1.advance 4#32).setReg rd (s.freeAt 1)) s1).finish := if_pos undefined
  rw [swapWord_swaps _ swaps] at run
  obtain ⟨mem, frame⟩ := exchange_frame (rd := rd) (v := s.freeAt 1) (ws := ws) (bytes := bytesOfWord s.free 4)
    ((OnlyChecked.drawFree s 2).trans swaps.checked) rfl
  exact ⟨_, run, ⟨_, length_bytesOfWord _ 4, mem⟩, frame⟩

/-- Settles O39: the three changes of a bit, and the exchange with its undefined forms. -/
theorem readModifyWrite : Obligations.ReadModifyWrite := by
  refine fun s w ws s2 => ⟨fun bp imm present => ⟨fun swaps => ?_, fun swaps => ?_, fun swaps => ?_⟩, ?_, fun _ _ _ => xchg_undefined⟩
  · exact ⟨_, fun _ => memc_bit w bp, modifies_word (f := fun w => w &&& ~~~(1#32 <<< bp.toNat)) present rfl swaps⟩
  · exact ⟨_, fun _ => mems_bit w bp, modifies_word (f := fun w => w ||| (1#32 <<< bp.toNat)) present rfl swaps⟩
  · exact ⟨_, fun _ => memt_bit w bp, modifies_word (f := fun w => w ^^^ (1#32 <<< bp.toNat)) present rfl swaps⟩
  · intro rd rx ry rd15 rx15 ry15 notX notY swaps
    obtain ⟨t, run, mem, frame, writes⟩ := xchg_gives (rd := rd) (rx := rx) (ry := ry) (by simp [xchgUndefined, *]) swaps
    rw [Writes, if_neg rd15] at writes
    exact ⟨t, run, mem, frame, writes⟩

end Sys2Proof.Machine
end

section
/-! PROOFS. O56 : the operation, the moves, the loads and the stores of a coprocessor. -/

namespace Sys2Proof.Machine

variable {s s1 t w : State} {i : Instr} {cp : BitVec 3} {d : RegNo} {va : Word} {kind : LsKind} {ptr : Option (RegNo × Word)}
  {ds : List RegNo} {ps : List (Word × Nat)} {bytes : List Byte}

/-! ## The coprocessor registers of a pair -/

theorem State.setCopReg_other (s : State) (cp : BitVec 3) (d : RegNo) (v : Word) : SameCops s (s.setCopReg cp d v) cp [d] := by
  intro c j other
  rw [State.copReg_setCopReg, if_neg (by simpa using other)]

theorem State.setCopPair_eq (s : State) (cp : BitVec 3) (d : RegNo) (hi lo : Word) :
    ∃ cop n, s.setCopPair cp d hi lo = { s with cop := cop, freeIdx := n } := by
  unfold State.setCopPair
  split
  · exact ⟨_, _, rfl⟩
  · exact s.freeCopRegs_eq cp _

theorem SameCops.swap {d e : RegNo} (h : SameCops s t cp [d, e]) : SameCops s t cp [e, d] := fun c j other =>
  h c j fun ⟨hc, hj⟩ => other ⟨hc, by simpa [or_comm] using hj⟩

theorem State.setCopPair_other (s : State) (cp : BitVec 3) (d : RegNo) (hi lo : Word) :
    SameCops s (s.setCopPair cp d hi lo) cp [d, d + 1#4] := by
  unfold State.setCopPair
  split
  · intro c j other
    rw [State.copReg_setCopReg, State.copReg_setCopReg, if_neg fun h => other ⟨h.1, by simp [h.2]⟩,
      if_neg fun h => other ⟨h.1, by simp [h.2]⟩]
  · exact SameCops.swap (s.freeCopRegs_other cp [d + 1#4, d])

/-- The two registers of an even pair. -/
theorem State.copReg_setCopPair (s : State) (cp : BitVec 3) (even : evenNo d = true) (hi lo : Word) :
    (s.setCopPair cp d hi lo).copReg cp (d + 1#4) = hi ∧ (s.setCopPair cp d hi lo).copReg cp d = lo := by
  have next : d + 1#4 ≠ d := by revert d; decide
  rw [State.setCopPair, if_pos even]
  simp [State.copReg_setCopReg, next]

/-! ## What a write of coprocessor registers leaves -/

/-- Behind a load, `w` has coprocessor registers of `ds` written, and `t` is `w` with the pointer moved. -/
theorem copWritten (checked : OnlyChecked s s1) (written : ∃ cop n, w = { s1.advance 4#32 with cop := cop, freeIdx := n })
    (same : SameCops s1 w cp ds) (moved : Moved w t ptr) (len : s.after i = s.pc + 4#32) :
    PointerAt i s t ptr ∧ CopFrame s s1 t cp ds (ptr.map Prod.fst).toList ∧ ∀ c j, t.copReg c j = w.copReg c j := by
  obtain ⟨cop, n, rfl⟩ := written
  have accessed := checked.accessed
  obtain ⟨regs, sr, mem, copied, system⟩ := accessed.behind_cop moved
  have kept (c : BitVec 3) (j : RegNo) : t.copReg c j = ({ s1.advance 4#32 with cop := cop, freeIdx := n } : State).copReg c j :=
    State.copReg_congr copied c j
  refine ⟨accessed.pointerAt moved len, ⟨checked, fun c j other => ?_, regs, sr, sameMem_of (mem.trans checked.mem), system⟩, kept⟩
  rw [kept, same c j other]
  exact State.copReg_congr accessed.cop c j

/-- An instruction that touches no coprocessor register. -/
theorem copFrame_of_system {rs : List RegNo} (regs : SameRegs s t rs) (sr : SameSr s t []) (mem : SameMem s t) (system : SameSystem s t) :
    CopFrame s s t cp [] rs := by
  obtain ⟨h1, h2, h3, h4, h5, h6, h7, h8, h9, h10, cop, rest⟩ := system
  exact ⟨.refl s, fun c j _ => State.copReg_congr cop c j, regs, sr, mem, h1, h2, h3, h4, h5, h6, h7, h8, h9, h10, rfl, rest⟩

/-! ## Loads -/

/-- A load of one coprocessor register; `move` is what happens to the pointer behind it. -/
theorem loadsCop_of_run {move : State → State}
    (run : exec i s = ((loadWord kind va s).bind fun v s1 => .ok (move ((s1.advance 4#32).setCopReg cp d v)) s).finish)
    (moved : ∀ u, Moved u (move u) ptr) (len : s.after i = s.pc + 4#32 := by rfl) : LoadsCop i s kind va cp d ptr := by
  intro bs s1 reads
  rw [loadWord, load_reads id reads] at run
  obtain ⟨pointer, frame, kept⟩ := copWritten (w := (s1.advance 4#32).setCopReg cp d (wordOfBytes bs)) reads.checked
    ⟨_, _, rfl⟩ ((s1.advance 4#32).setCopReg_other cp d (wordOfBytes bs)) (moved _) len
  refine ⟨_, run, ?_, pointer, frame⟩
  rw [id, kept, State.copReg_setCopReg, if_pos ⟨rfl, rfl⟩]

/-- A load of a pair. -/
theorem loadsCopPair_of_run {move : State → State}
    (run : exec i s = ((loadDouble kind va s).bind fun v s1 => .ok (move ((s1.advance 4#32).setCopPair cp d v.1 v.2)) s).finish)
    (moved : ∀ u, Moved u (move u) ptr) (len : s.after i = s.pc + 4#32 := by rfl) : LoadsCopPair i s kind va cp d ptr := by
  intro bs s1 reads
  rw [loadDouble_reads reads] at run
  obtain ⟨pointer, frame, kept⟩ := copWritten reads.checked ((s1.advance 4#32).setCopPair_eq cp d (wordOfBytes (bs.take 4))
    (wordOfBytes (bs.drop 4))) ((s1.advance 4#32).setCopPair_other cp d _ _) (moved _) len
  refine ⟨_, run, fun even => ?_, pointer, frame⟩
  rw [kept, kept]
  exact State.copReg_setCopPair _ cp even _ _

/-! ## Stores -/

/-- A store of a coprocessor register without and with a moved pointer. -/
theorem storesCop_of_finishStore {r : Res Unit} (run : exec i s = s.finishStore 4#32 r) (puts : Puts s kind va bytes r)
    (len : s.after i = s.pc + 4#32 := by rfl) : StoresCop i s kind va bytes none :=
  stores_of_finishStore run puts len.symm

theorem storesCop_of_finishStorePtr {r : Res Unit} {p : RegNo} {v : Word} (run : exec i s = s.finishStorePtr 4#32 p v r)
    (puts : Puts s kind va bytes r) (len : s.after i = s.pc + 4#32 := by rfl) : StoresCop i s kind va bytes (some (p, v)) :=
  storesMoving_of_finishStorePtr run puts len.symm

theorem puts_storeCopPair (even : evenNo d = true) : Puts s kind va (bytesOfWord (s.copReg cp (d + 1#4)) 4 ++ bytesOfWord (s.copReg cp d) 4)
    (s.storeCopPair kind cp d va) := by
  rw [State.storeCopPair, if_pos even]
  exact puts_storeDouble s kind va _ _

theorem puts_storeCopPair_odd (odd : evenNo d = false) :
    Puts (s.drawFree 2) kind va (bytesOfWord s.free 4 ++ bytesOfWord (s.freeAt 1) 4) (s.storeCopPair kind cp d va) := by
  rw [State.storeCopPair, if_neg (by rw [odd]; decide)]
  exact puts_storeDouble (s.drawFree 2) kind va _ _

theorem State.length_freePair (s : State) : (bytesOfWord s.free 4 ++ bytesOfWord (s.freeAt 1) 4).length = 8 := by simp [length_bytesOfWord]

theorem storesCopPair_of_finishStore (run : exec i s = s.finishStore 4#32 (s.storeCopPair kind cp d va))
    (len : s.after i = s.pc + 4#32 := by rfl) : StoresCopPair i s kind va cp d none := by
  refine ⟨fun even => storesCop_of_finishStore run (puts_storeCopPair even) len, fun odd ps s1 reaches => ?_⟩
  obtain ⟨t, run, mem, frame, pc⟩ := stored_of_finishStore run (puts_storeCopPair_odd odd) (s.length_freePair ▸ reaches) len.symm
  exact ⟨t, run, ⟨_, s.length_freePair, mem⟩, frame, pc⟩

theorem storesCopPair_of_finishStorePtr {p : RegNo} {v : Word} (run : exec i s = s.finishStorePtr 4#32 p v (s.storeCopPair kind cp d va))
    (len : s.after i = s.pc + 4#32 := by rfl) : StoresCopPair i s kind va cp d (some (p, v)) := by
  refine ⟨fun even => storesCop_of_finishStorePtr run (puts_storeCopPair even) len, fun odd ps s1 reaches => ?_⟩
  obtain ⟨t, run, mem, frame, pc⟩ := stored_of_finishStorePtr run (puts_storeCopPair_odd odd) (s.length_freePair ▸ reaches) len.symm
  exact ⟨t, run, ⟨_, s.length_freePair, mem⟩, frame, pc⟩

/-! ## The operation and the moves -/

theorem cop_gives (ready : copReady s cp) (op : BitVec 7) (d x y : RegNo) : Gives (exec (.cop cp op d x y) s) fun t =>
    t.copReg cp d = Config.copResult cp op d (s.copReg cp x) (s.copReg cp y) ∧ SameCops s t cp [d] ∧ t.pc = s.pc + 4#32 ∧
    SameRegs s t [] ∧ SameSr s t [4, 3, 2, 1, 0] ∧ SameMem s t ∧ SameSystem { s with cop := t.cop } t := by
  refine ⟨_, requireCop_ready ready _, ?_, (s.advance 4#32).setCopReg_other cp d _, rfl, sameRegs_of, fun n hn other => ?_, sameMem_of, by
    simp [SameSystem]; simp [State.setCopReg]⟩
  · exact ((s.advance 4#32).copReg_setCopReg cp cp d d _).trans (if_pos ⟨rfl, rfl⟩)
  · exact srBit_setFlags_other _ hn other

theorem mvcrW_gives (ready : copReady s cp) (rd crs : RegNo) : Gives (exec (.mvcrW cp rd crs) s) fun t =>
    Writes (.mvcrW cp rd crs) s t rd (s.copReg cp crs) ∧ CopFrame s s t cp [] [rd] := by
  obtain ⟨t, run, writes, regs, sr, mem, system⟩ := s.finishReg_noFlags (.mvcrW cp rd crs) rd (s.copReg cp crs) (len := 4#32) rfl
  exact ⟨t, (requireCop_ready ready _).trans run, writes, copFrame_of_system regs sr mem system⟩

theorem mvcrD_gives (ready : copReady s cp) (rd crs : RegNo) : Gives (exec (.mvcrD cp rd crs) s) fun t =>
    CopFrame s s t cp [] [rd, rd + 1#4] ∧
    (evenNo rd = true → evenNo crs = true → WritesPair (.mvcrD cp rd crs) s t rd (s.copReg cp (crs + 1#4) ++ s.copReg cp crs)) := by
  have run : exec (.mvcrD cp rd crs) s = .next (if evenNo crs then (s.advance 4#32).setPair rd (s.copReg cp (crs + 1#4)) (s.copReg cp crs)
      else (s.advance 4#32).freeRegs [rd + 1#4, rd]) := (requireCop_ready ready _).trans (apply_ite Host.Outcome.next _ _ _).symm
  have start := WritesOnly.advance s 4#32 [rd, rd + 1#4] []
  refine ⟨_, run, ?_, fun evenD evenS => ?_⟩
  · split
    · have only := start.setPair (d := rd) (by simp) (by simp) (s.copReg cp (crs + 1#4)) (s.copReg cp crs)
      exact copFrame_of_system only.regs only.sr only.mem only.system
    · have only := start.freeRegs (is := [rd + 1#4, rd]) (by simp)
      exact copFrame_of_system only.regs only.sr only.mem only.system
  · rw [if_pos evenS]
    exact (Accessed.refl s).writesPair_setPair evenD _ _ rfl

theorem mvrcW_gives (ready : copReady s cp) (crd rs : RegNo) : Gives (exec (.mvrcW cp crd rs) s) fun t =>
    t.copReg cp crd = s.getReg rs ∧ t.pc = s.pc + 4#32 ∧ CopFrame s s t cp [crd] [] := by
  obtain ⟨pointer, frame, kept⟩ := copWritten (w := (s.advance 4#32).setCopReg cp crd (s.getReg rs)) (i := .mvrcW cp crd rs)
    (ptr := none) (.refl s) ⟨_, _, rfl⟩
    ((s.advance 4#32).setCopReg_other cp crd (s.getReg rs)) rfl rfl
  exact ⟨_, requireCop_ready ready _, (State.copReg_setCopReg ..).trans (if_pos ⟨rfl, rfl⟩), pointer, frame⟩

theorem mvrcD_gives (ready : copReady s cp) (crd rs : RegNo) : Gives (exec (.mvrcD cp crd rs) s) fun t =>
    t.pc = s.pc + 4#32 ∧ CopFrame s s t cp [crd, crd + 1#4] [] ∧
    (evenNo crd = true → evenNo rs = true → t.copReg cp (crd + 1#4) = s.getReg (rs + 1#4) ∧ t.copReg cp crd = s.getReg rs) := by
  have run : exec (.mvrcD cp crd rs) s = .next (if evenNo rs then (s.advance 4#32).setCopPair cp crd (s.getReg (rs + 1#4)) (s.getReg rs)
      else (s.advance 4#32).freeCopRegs cp [crd + 1#4, crd]) := (requireCop_ready ready _).trans (apply_ite Host.Outcome.next _ _ _).symm
  refine ⟨_, run, ?_⟩
  split
  next even =>
    obtain ⟨pointer, frame, kept⟩ := copWritten (i := .mvrcD cp crd rs) (ptr := none) (.refl s)
      ((s.advance 4#32).setCopPair_eq cp crd (s.getReg (rs + 1#4)) (s.getReg rs)) ((s.advance 4#32).setCopPair_other cp crd _ _) rfl rfl
    exact ⟨pointer, frame, fun evenD _ => State.copReg_setCopPair _ cp evenD _ _⟩
  next odd =>
    obtain ⟨pointer, frame, kept⟩ := copWritten (i := .mvrcD cp crd rs) (ptr := none) (.refl s)
      ((s.advance 4#32).freeCopRegs_eq cp [crd + 1#4, crd]) (SameCops.swap ((s.advance 4#32).freeCopRegs_other cp [crd + 1#4, crd])) rfl rfl
    exact ⟨pointer, frame, fun _ even => absurd even odd⟩

/-- Settles O56: behind the check for the coprocessor, each transfer by the access it makes and the pointer it moves. -/
theorem coprocessorTransfers : Obligations.CoprocessorTransfers := by
  intro s cp ready
  have ok := requireCop_ready ready
  have stays (u : State) : Moved u (id u) none := rfl
  refine ⟨cop_gives ready, mvcrW_gives ready, mvcrD_gives ready, mvrcW_gives ready, mvrcD_gives ready, fun d rp disp => ⟨?_, ?_, ?_, ?_⟩,
    fun d rp => ⟨?_, ?_, ?_, ?_⟩, fun d rb ri sa => ⟨?_, ?_, ?_, ?_⟩, ?_⟩
  · exact loadsCop_of_run (move := id) (ok _) stays
  · exact loadsCopPair_of_run (move := id) (ok _) stays
  · exact storesCop_of_finishStore (ok _) (puts_store rfl)
  · exact storesCopPair_of_finishStore (ok _)
  · exact loadsCop_of_run (move := fun u => u.setReg rp (s.getReg rp - 4#32)) (ok _) fun _ => rfl
  · exact loadsCopPair_of_run (move := fun u => u.setReg rp (s.getReg rp - 8#32)) (ok _) fun _ => rfl
  · exact storesCop_of_finishStorePtr (ok _) (puts_store rfl)
  · exact storesCopPair_of_finishStorePtr (ok _)
  · exact loadsCop_of_run (move := id) (ok _) stays
  · exact loadsCopPair_of_run (move := id) (ok _) stays
  · exact storesCop_of_finishStore (ok _) (puts_store rfl)
  · exact storesCopPair_of_finishStore (ok _)
  · rintro rfl d rp disp
    exact ⟨loadsCop_of_run (move := id) (ok _) stays, loadsCopPair_of_run (move := id) (ok _) stays,
      storesCop_of_finishStore (ok _) (puts_store rfl), storesCopPair_of_finishStore (ok _)⟩

end Sys2Proof.Machine
end

section
/-! PROOFS. O41 : the instructions that store a list of registers. -/

namespace Sys2Proof.Machine

variable {s s1 t : State} {i : Instr} {kind : LsKind} {len va v ptr : Word} {p : RegNo} {ps : List (Word × Nat)}
  {ws : List (Word × Word)} {list : BitVec 16}

/-! ## Words stored in turn, on a machine of physical addresses -/

theorem Direct.withMem (direct : Direct s) (mem : List Host.Cell) : Direct { s with mem := mem } := direct

/-- Aligned words of backed memory, stored with the other agents between them (20_memory.md R208). -/
theorem storeWords_direct (direct : Direct s) (kind : LsKind) (aligned : ∀ w ∈ ws, w.1.toNat % 4 = 0) (backed : ∀ w ∈ ws, Backed s w.1 4) :
    storeWords kind ws s = .ok () (StoredInTurn s ws) := by
  induction ws generalizing s with
  | nil => rfl
  | cons w ws ih =>
    obtain ⟨a, v⟩ := w
    have first := store_direct direct kind (v := v) ((aligned_word_iff (.inl rfl)).mpr (aligned _ List.mem_cons_self))
      (backed _ List.mem_cons_self)
    rw [storeWords, first]
    cases ws with
    | nil => rfl
    | cons w ws =>
      exact ih (direct.withMem _).busTurn (fun q hq => aligned q (List.mem_cons_of_mem _ hq)) fun q hq =>
        backed q (List.mem_cons_of_mem _ hq)

theorem aligned_offset (ha : va.toNat % 4 = 0) (k : Nat) : (va + BitVec.ofNat 32 (4 * k)).toNat % 4 = 0 := by
  rw [BitVec.toNat_add, BitVec.toNat_ofNat]; omega

/-- Without write-back the words of a list lie at its pointer and upwards. -/
theorem listStores_up {value : RegNo → Word} {w : Word × Word} (h : w ∈ listStores va 0#1 list value) :
    ∃ k < (listAscending list).length, w.1 = va + BitVec.ofNat 32 (4 * k) := by
  obtain ⟨q, hq, rfl⟩ := List.mem_map.mp h
  have bound := List.snd_lt_of_mem_zipIdx hq
  exact ⟨q.2, by simpa using bound, rfl⟩

theorem stm_inTurn {rp : RegNo} (nonempty : list ≠ 0#16) (direct : Direct s) (ha : (s.getReg rp).toNat % 4 = 0)
    (backed : Backed s (s.getReg rp) (4 * (listAscending list).length)) : Gives (exec (.stm rp 0#1 list) s) fun t =>
      t.mem = (StoredInTurn s (listStores (s.getReg rp) 0#1 list s.getReg)).mem ∧ SameRegs s t [] ∧ SameSr s t [] ∧
      t.pc = s.after (.stm rp 0#1 list) := by
  have stored : storeWords .stm (listStores (s.getReg rp) 0#1 list s.getReg) s =
      .ok () (StoredInTurn s (listStores (s.getReg rp) 0#1 list s.getReg)) := by
    refine storeWords_direct direct .stm (fun w hw => ?_) fun w hw => ?_ <;> obtain ⟨k, hk, e⟩ := listStores_up hw <;> rw [e]
    · exact aligned_offset ha k
    · exact backed.drop (by omega)
  have accessed := storeWords_accessed .stm (listStores (s.getReg rp) 0#1 list s.getReg) s
  rw [stored] at accessed
  have run : exec (.stm rp 0#1 list) s = s.finishStore 4#32 (storeWords .stm (blockStores (s.getReg rp) 0#1 ((listAscending list).map s.getReg)) s) :=
    if_neg nonempty
  rw [blockStores_eq_listStores, stored] at run
  have only := Accessed.advance (i := .stm rp 0#1 list) (len := 4#32) accessed rfl []
  exact ⟨_, run, rfl, accessed.sameRegs only, accessed.sameSr only, only.pc (by simp)⟩

/-! ## The ends of a push -/

theorem Pushed.mono {s0 : State} {ds : List RegNo} {P Q : State → Prop} (h : Pushed i kind s s0 ws ds P) (imp : ∀ t, P t → Q t) :
    Pushed i kind s s0 ws ds Q := by
  intro ps s1 reaches
  obtain ⟨t, run, mem, only, regs, sr, system, held⟩ := h ps s1 reaches
  exact ⟨t, run, mem, only, regs, sr, system, imp t held⟩

/-- `k` free values have been drawn for the words. -/
theorem pushed_of_finishStore {k : Nat} (run : exec i s = s.finishStore len (storeWords kind ws (s.drawFree k)))
    (hlen : s.pc + len = s.after i := by rfl) : Pushed i kind s (s.drawFree k) ws [] fun t => t.pc = s.after i := by
  intro ps s1 reaches
  rw [storeWords_reachesAll reaches] at run
  have accessed := (Accessed.drawFree s k).trans reaches.accessed
  have only := accessed.advance hlen []
  exact ⟨_, run, rfl, reaches.sameMemBut, accessed.sameRegs only, accessed.sameSr only, only.system, only.pc (by simp)⟩

theorem pushed_of_finishStorePtr {k : Nat} (run : exec i s = s.finishStorePtr len p ptr (storeWords kind ws (s.drawFree k)))
    (hlen : s.pc + len = s.after i := by rfl) : Pushed i kind s (s.drawFree k) ws [p] fun t => Writes i s t p ptr := by
  intro ps s1 reaches
  rw [storeWords_reachesAll reaches] at run
  have accessed := (Accessed.drawFree s k).trans reaches.accessed
  have only := (accessed.advance hlen [p]).setReg (List.mem_singleton_self p) ptr
  have mem := (s1.advance len).setReg_mem p ptr
  refine ⟨_, run, mem, fun wf a outside => ?_, accessed.sameRegs only, accessed.sameSr only, only.system,
    writes_setReg (accessed.pc_advance hlen) p ptr⟩
  rw [State.byteAt, mem]
  exact reaches.sameMemBut wf a outside

/-- The registers of a list that is not empty; without write-back the pointer stays. -/
theorem pushed_of_writeBack {k : Nat} {wb : BitVec 1} (run : exec i s = if wb = 1#1 then
      s.finishStorePtr len p ptr (storeWords kind ws (s.drawFree k)) else s.finishStore len (storeWords kind ws (s.drawFree k)))
    (hlen : s.pc + len = s.after i := by rfl) :
    Pushed i kind s (s.drawFree k) ws (if wb = 1#1 then [p] else []) fun _ => True := by
  split at run
  next moves => rw [if_pos moves]; exact Pushed.mono (pushed_of_finishStorePtr run hlen) fun _ _ => trivial
  next stays => rw [if_neg stays]; exact Pushed.mono (pushed_of_finishStore run hlen) fun _ _ => trivial

/-- An empty list (93_implementation_defined.md U40). -/
theorem emptyList_gives {ds : List RegNo} (run : exec i s = s.finishEmptyList len ds) :
    Gives (exec i s) fun t => SameRegs s t ds ∧ SameSr s t [] ∧ SameMem s t ∧ SameSystem s t := by
  have only := (WritesOnly.advance s len ds []).freeRegs (List.Subset.refl ds)
  exact ⟨_, run, only.regs, only.sr, only.mem, only.system⟩

/-! ## The words of each instruction -/

theorem exec_pushm {list : BitVec 8} (nonempty : list ≠ 0#8) : exec (.pushm list) s = s.finishStorePtr 2#32 13#4
      (s.getReg 13#4 - BitVec.ofNat 32 (4 * (listAscending (reglist8 list)).length))
      (storeWords .pushm (listStores (s.getReg 13#4) 1#1 (reglist8 list) s.getReg) s) := by
  have names : ¬ (listAscending (reglist8 list)).isEmpty := by simpa using listAscending_ne_nil (reglist8_ne_zero nonempty)
  rw [← blockStores_eq_listStores]
  exact if_neg names

theorem exec_stm_writeBack {rp : RegNo} (nonempty : list ≠ 0#16) (other : list.getLsbD rp.toNat = false) :
    exec (.stm rp 1#1 list) s = s.finishStorePtr 4#32 rp (s.getReg rp - BitVec.ofNat 32 (4 * (listAscending list).length))
      (storeWords .stm (listStores (s.getReg rp) 1#1 list s.getReg) s) := by
  rw [← blockStores_eq_listStores]
  refine (if_neg nonempty).trans ?_
  simp only [other, Bool.and_false, Bool.false_and]
  rfl

/-- The pointer in its own list (93_implementation_defined.md U46). -/
theorem exec_stm_overlap {rp : RegNo} (nonempty : list ≠ 0#16) (overlap : list.getLsbD rp.toNat = true) :
    exec (.stm rp 1#1 list) s = s.finishStorePtr 4#32 rp (s.freeAt 1)
      (storeWords .stm (listStores (s.getReg rp) 1#1 list fun i => if i = rp then s.free else s.getReg i) (s.drawFree 2)) := by
  rw [← blockStores_eq_listStores]
  refine (if_neg nonempty).trans ?_
  simp only [overlap, Bool.and_true, Bool.true_and, beq_self_eq_true, beq_iff_eq, if_true]

theorem State.readApp_eq (s : State) (i : RegNo) : s.readApp i = s.readPhys (appReg i) := by
  unfold State.readApp appReg
  split <;> rfl

theorem ne_zero_of_getLsbD {n : Nat} (h : list.getLsbD n = true) : list ≠ 0#16 := by
  rintro rfl; simp at h

theorem exec_stmts {rp : RegNo} (wb : BitVec 1) (nonempty : list ≠ 0#16) (noPc : list.getLsbD 15 = false) :
    exec (.stmts rp wb list) s =
      let stored := storeWords .stmts (listStores (s.getReg rp) wb list fun i => s.readPhys (appReg i)) s
      if wb = 1#1 then s.finishStorePtr 4#32 rp (s.getReg rp - BitVec.ofNat 32 (4 * (listAscending list).length)) stored
      else s.finishStore 4#32 stored := by
  rw [← blockStores_eq_listStores, ← funext s.readApp_eq]
  refine (if_neg nonempty).trans ?_
  simp only [noPc]
  rfl

/-- The free values of a list are in the order of its registers. -/
theorem map_freeAt (s : State) {is : List RegNo} (nodup : is.Nodup) :
    (List.range is.length).map s.freeAt = is.map fun i => s.freeAt (is.idxOf i) := by
  refine List.ext_getElem (by simp) fun k h1 h2 => ?_
  have inside : k < is.length := by simpa using h1
  rw [List.getElem_map, List.getElem_map, List.getElem_range, nodup.idxOf_getElem k inside]

/-- R15 in the list (93_implementation_defined.md U47). -/
theorem exec_stmts_pc {rp : RegNo} (wb : BitVec 1) (pc : list.getLsbD 15 = true) :
    exec (.stmts rp wb list) s =
      let stored := storeWords .stmts (listStores (s.getReg rp) wb list fun i => s.freeAt ((listAscending list).idxOf i))
        (s.drawFree (listAscending list).length)
      if wb = 1#1 then s.finishStorePtr 4#32 rp (s.getReg rp - BitVec.ofNat 32 (4 * (listAscending list).length)) stored
      else s.finishStore 4#32 stored := by
  rw [← blockStores_eq_listStores, ← map_freeAt s (listAscending_nodup list)]
  refine (if_neg (ne_zero_of_getLsbD pc)).trans ?_
  simp only [pc]
  rfl

/-- Settles O41: each list by its words, its pointer and the free values drawn for it. -/
theorem multipleStores : Obligations.MultipleStores := by
  intro s
  refine ⟨fun rp list => stm_inTurn, fun list nonempty => ?pushm, fun rp list nonempty => ?stm, fun rp list nonempty other => ?stmMoving,
    fun rp list overlap => ?stmOverlap, fun rp list nonempty noPc => ?stmts, fun rp list nonempty noPc => ?stmtsMoving,
    fun rp wb list pc => pushed_of_writeBack (exec_stmts_pc wb pc), emptyList_gives rfl, fun _ _ => emptyList_gives rfl,
    fun _ _ => emptyList_gives rfl⟩
  case pushm => exact Pushed.mono (pushed_of_finishStorePtr (k := 0) (len := 2#32) (exec_pushm nonempty)) fun t wrote => wrote
  case stm =>
    refine pushed_of_finishStore (k := 0) (len := 4#32) ?_
    rw [← blockStores_eq_listStores]
    exact if_neg nonempty
  case stmMoving => exact pushed_of_finishStorePtr (k := 0) (exec_stm_writeBack nonempty other)
  case stmOverlap =>
    exact Pushed.mono (pushed_of_finishStorePtr (exec_stm_overlap (ne_zero_of_getLsbD overlap) overlap)) fun _ _ => trivial
  case stmts => exact pushed_of_finishStore (k := 0) (exec_stmts 0#1 nonempty noPc)
  case stmtsMoving => exact pushed_of_finishStorePtr (k := 0) (exec_stmts 1#1 nonempty noPc)

end Sys2Proof.Machine
end

section
/-! PROOFS. O40 : the instructions that load a list of registers. -/

namespace Sys2Proof.Machine

variable {s s1 t : State} {i : Instr} {kind : LsKind} {len va v : Word} {list : BitVec 16} {vs : List Word}
  {regs : List (RegNo × Word)} {ptr : Option (RegNo × Word)} {r12 : Option Word}

/-! ## The registers that the end of a pop writes -/

theorem State.setRegs_append (s : State) (l m : List (RegNo × Word)) : s.setRegs (l ++ m) = (s.setRegs l).setRegs m := by
  induction l generalizing s with
  | nil => rfl
  | cons q l ih => exact ih _

theorem WritesOnly.setRegs {after : Word} {ds : List RegNo} {bits : List Nat} (h : WritesOnly s t after ds bits) {l : List (RegNo × Word)}
    (sub : l.map Prod.fst ⊆ ds) : WritesOnly s (t.setRegs l) after ds bits := by
  induction l generalizing t with
  | nil => exact h
  | cons q l ih =>
    obtain ⟨first, rest⟩ := List.cons_subset.mp sub
    exact ih (h.setReg first q.2) rest

theorem find_eq_lookup (l : List (RegNo × Word)) (k : RegNo) : (l.find? fun p => p.1 == k).map Prod.snd = l.lookup k := by
  induction l with
  | nil => rfl
  | cons q l ih =>
    rw [List.find?_cons, List.lookup_cons, BEq.comm (a := k)]
    split <;> simp_all

/-- The writes of a pop but that of R15, in their order: the list, the R12 option and the pointer. -/
def popWrites (regs : List (RegNo × Word)) (ptr : Option (RegNo × Word)) (r12 : Option Word) : List (RegNo × Word) :=
  regs.filter (fun p => p.1 != 15#4) ++ ((r12.map fun v => (12#4, v)).toList ++ ptr.toList)

theorem State.finishPop_eq (s : State) : s.finishPop len regs ptr r12 =
    ((regs.lookup 15#4).map fun w => ((s.advance len).setRegs (popWrites regs ptr r12)).testR12.jump w).getD
      ((s.advance len).setRegs (popWrites regs ptr r12)) := by
  rw [← find_eq_lookup, popWrites, State.setRegs_append]
  unfold State.finishPop
  cases r12 <;> cases ptr <;> cases regs.find? (fun p => p.1 == 15#4) <;> rfl

theorem getReg_popWrites_other (u : State) {q : RegNo × Word} (hq : q ∈ regs) (nodup : (regs.map Prod.fst).Nodup) (notPc : q.1 ≠ 15#4)
    (notPtr : ∀ p, ptr = some p → q.1 ≠ p.1) (alone : r12.isSome → 12#4 ∉ regs.map Prod.fst) :
    (u.setRegs (popWrites regs ptr r12)).getReg q.1 = q.2 := by
  have not12 (w : Word) (hw : r12 = some w) : q.1 ≠ 12#4 := fun e =>
    alone (by rw [hw]; rfl) (e ▸ List.mem_map_of_mem hq)
  rw [popWrites, State.setRegs_append, State.getReg_setRegs_other]
  · exact u.getReg_setRegs (nodup.sublist (List.filter_sublist.map _)) (List.mem_filter.mpr ⟨hq, by simpa using notPc⟩) notPc
  · cases r12 <;> cases ptr <;> simp_all

theorem getReg_popWrites_ptr (u : State) {p : RegNo × Word} (notPc : p.1 ≠ 15#4) :
    (u.setRegs (popWrites regs (some p) r12)).getReg p.1 = p.2 := by
  rw [popWrites, State.setRegs_append, State.setRegs_append]
  exact State.getReg_setReg_same _ _ notPc

theorem getReg_popWrites_r12 (u : State) {w : Word} (notPtr : ∀ p, ptr = some p → p.1 ≠ 12#4) :
    (u.setRegs (popWrites regs ptr (some w))).getReg 12#4 = w := by
  rw [popWrites, State.setRegs_append, State.setRegs_append, State.getReg_setRegs_other]
  · exact State.getReg_setReg_same (i := 12#4) _ _ (by decide)
  · cases ptr with
    | none => simp
    | some p => simpa using (notPtr p rfl).symm

/-! ## What a pop leaves -/

/-- The names under which a pop is stated cover its writes. -/
theorem popWrites_subset : (popWrites regs ptr r12).map Prod.fst ⊆
    regs.map Prod.fst ++ (ptr.map Prod.fst).toList ++ (if r12.isSome then [12#4] else []) := by
  unfold popWrites
  intro d hd
  cases r12 <;> cases ptr <;> simp at hd ⊢ <;> grind

/-- None of them is R15. -/
theorem popWrites_notPc (ptrNotPc : ∀ p, ptr = some p → p.1 ≠ 15#4) : 15#4 ∉ (popWrites regs ptr r12).map Prod.fst := by
  unfold popWrites
  cases r12 <;> cases ptr <;> simp_all <;> exact Ne.symm ‹_›

/-- The end of a pop. The R12 option stands alone: neither the list nor the pointer names R12. -/
theorem popped_finishPop (checked : OnlyChecked s s1) (hlen : s.pc + len = s.after i) (nodup : (regs.map Prod.fst).Nodup)
    (ptrNotPc : ∀ p, ptr = some p → p.1 ≠ 15#4)
    (alone : r12.isSome → 12#4 ∉ regs.map Prod.fst ∧ ∀ p, ptr = some p → p.1 ≠ 12#4) :
    Popped i s s1 (s1.finishPop len regs ptr r12) regs ptr r12 := by
  let u := (s1.advance len).setRegs (popWrites regs ptr r12)
  have only : WritesOnly s1 u (s.after i) ((popWrites regs ptr r12).map Prod.fst) [] :=
    (checked.accessed.advance hlen _).setRegs (List.Subset.refl _)
  have mem : SameMem s u := sameMem_of ((State.setRegs_mem ..).trans checked.mem)
  have regs_same : SameRegs s u _ := fun p real notPc other =>
    checked.accessed.sameRegs only p real notPc fun d hd => other d (popWrites_subset hd)
  have written (q) (hq : q ∈ regs) (notPc : q.1 ≠ 15#4) (notPtr : ∀ p, ptr = some p → q.1 ≠ p.1) : u.getReg q.1 = q.2 :=
    getReg_popWrites_other _ hq nodup notPc notPtr fun h => (alone h).1
  have pointer (p) (hp : ptr = some p) : u.getReg p.1 = p.2 := by subst hp; exact getReg_popWrites_ptr _ (ptrNotPc p rfl)
  have constant (w) (hw : r12 = some w) : u.getReg 12#4 = w := by subst hw; exact getReg_popWrites_r12 _ (alone rfl).2
  rw [State.finishPop_eq]
  cases pc : regs.lookup 15#4 with
  | none =>
    simp only [Popped, pc, Option.map_none, Option.getD_none, Option.isSome_none, Bool.false_eq_true, if_false]
    exact ⟨written, pointer, constant, only.pc (popWrites_notPc ptrNotPc), checked.accessed.sameSr only, regs_same, mem, only.system⟩
  | some w =>
    have kept {d : RegNo} (h : d ≠ 15#4) : (u.testR12.jump w).getReg d = u.getReg d :=
      (State.getReg_jump _ w h).trans (State.getReg_setFlags ..)
    have jumped := (only.setFlags (testFlags (u.getReg 12#4))).jump w
    simp only [Popped, pc, Option.map_some, Option.getD_some, Option.isSome_some, if_true]
    refine ⟨fun q hq notPc notPtr => (kept notPc).trans (written q hq notPc notPtr), fun p hp => (kept (ptrNotPc p hp)).trans (pointer p hp),
      fun w hw => (kept (by decide)).trans (constant w hw), rfl, ⟨?_, checked.accessed.sameSr jumped⟩, ?_, mem, jumped.system⟩
    · exact kept (d := 12#4) (by decide) ▸ flags_of_testFlags (sr := u.sr) rfl
    · exact fun p real notPc other => checked.accessed.sameRegs jumped p real notPc fun d hd => other d (popWrites_subset hd)

/-! ## popm and ldm -/

theorem map_fst_zip_sublist (is : List RegNo) (vs : List Word) : ((is.zip vs).map Prod.fst).Sublist is := by
  induction is generalizing vs with
  | nil => exact List.Sublist.refl _
  | cons i is ih =>
    cases vs with
    | nil => exact List.nil_sublist _
    | cons v vs => exact (ih vs).cons_cons i

theorem loadedRegs_nodup (list : BitVec 16) (vs : List Word) : ((loadedRegs list vs).map Prod.fst).Nodup :=
  (List.nodup_reverse.mpr (listAscending_nodup list)).sublist (map_fst_zip_sublist _ vs)

theorem getLsbD_of_mem_listAscending {d : RegNo} (h : d ∈ listAscending list) : list.getLsbD d.toNat = true := by
  obtain ⟨k, hk, rfl⟩ := List.mem_map.mp h
  obtain ⟨small, bit⟩ := List.mem_filter.mp hk
  rwa [BitVec.toNat_ofNat, Nat.mod_eq_of_lt (List.mem_range.mp small)]

/-- A register whose bit is clear is not loaded. -/
theorem notMem_loadedRegs {d : RegNo} (h : list.getLsbD d.toNat = false) (vs : List Word) : d ∉ (loadedRegs list vs).map Prod.fst := by
  intro named
  have bit := getLsbD_of_mem_listAscending (List.mem_reverse.mp ((map_fst_zip_sublist _ vs).subset named))
  rw [h] at bit
  cases bit

theorem lookup_loadedRegs_pc (noPc : list.getLsbD 15 = false) (vs : List Word) : (loadedRegs list vs).lookup 15#4 = none := by
  refine List.lookup_eq_none_iff.mpr fun q hq => ?_
  have ne : 15#4 ≠ q.1 := fun e => notMem_loadedRegs (d := 15#4) noPc vs (e ▸ List.mem_map_of_mem (f := Prod.fst) hq)
  simpa using ne

/-- The `k`-th register from the highest one receives the `k`-th word. -/
theorem mem_loadedRegs {q : RegNo × Nat} (h : q ∈ (listAscending list).reverse.zipIdx) (word : Nat → Word) :
    (q.1, word q.2) ∈ loadedRegs list ((List.range (listAscending list).length).map word) := by
  have place := List.mem_zipIdx_iff_getElem?.mp h
  have inside : q.2 < (listAscending list).length := by simpa using List.snd_lt_of_mem_zipIdx h
  exact List.mem_iff_getElem?.mpr ⟨q.2, List.getElem?_zip_eq_some.mpr ⟨place, by simp [inside]⟩⟩

theorem loadWords_readsAll {n : Nat} (h : ReadsAll kind (wordsFrom va n) s vs s1) : loadWords kind va n s = .ok vs s1 := by
  rw [loadWords_eq_loadEach, loadEach_readsAll h]

theorem reglist8_pc (list : BitVec 8) : (reglist8 list).getLsbD 15 = list.getLsbD 7 := by
  revert list; decide

/-- Free values drawn are none of what a pop leaves. -/
theorem Popped.of_drawFree {k : Nat} (h : Popped i s (s1.drawFree k) t regs ptr r12) : Popped i s s1 t regs ptr r12 := by
  obtain ⟨written, pointer, constant, pc, flags, same, mem, system⟩ := h
  exact ⟨written, pointer, constant, pc, flags, same, mem, system⟩

/-- popm of a list that is not empty; with the option it is `l1` that is popped (R862). -/
theorem popm_popped {k : BitVec 1} {list : BitVec 8} {l1 : BitVec 16} {option : Prop} [Decidable option] (nonempty : list ≠ 0#8)
    (hopt : option ↔ k = 1#1 ∧ list.getLsbD 7 = true) (hl1 : l1 = if option then reglist8 list &&& 0xAFFF#16 else reglist8 list)
    (reads : ReadsAll .popm (wordsFrom (s.getReg 13#4) (listAscending l1).length) s vs s1) : Gives (exec (.popm k list) s) fun t =>
      Popped (.popm k list) s s1 t ((listAscending l1).reverse.zip vs)
        (some (13#4, s.getReg 13#4 + BitVec.ofNat 32 (4 * (listAscending l1).length)))
        (if option then some (optionValue (reglist8 list)) else none) := by
  have flag : (k == 1#1 && (reglist8 list).getLsbD 15) = decide option := by rw [reglist8_pc, Bool.eq_iff_iff]; simp [hopt]
  have run : exec (.popm k list) s = ((loadWords .popm (s.getReg 13#4) (listAscending l1).length s).bind fun vs s1 =>
      .ok (s1.finishPop 2#32 (loadedRegs l1 vs) (some (13#4, s.getReg 13#4 + BitVec.ofNat 32 (4 * (listAscending l1).length)))
        (if option then some (optionValue (reglist8 list)) else none)) s1).finish := by
    refine (if_neg (reglist8_ne_zero nonempty)).trans ?_
    simp only [flag, decide_eq_true_eq, ← hl1]
    rfl
  rw [loadWords_readsAll reads] at run
  refine ⟨_, run, popped_finishPop reads.checked rfl (loadedRegs_nodup l1 vs) (by simp) fun isOption => ⟨?_, by simp⟩⟩
  have chosen : option := by by_contra no; simp [no] at isOption
  exact notMem_loadedRegs (by rw [hl1, if_pos chosen]; simp) vs

/-- ldm of a list that is not empty, where the pointer field is not the option (R866). -/
theorem ldm_popped {rp : RegNo} {wb : BitVec 1} (nonempty : list ≠ 0#16) (plain : ¬ (rp = 15#4 ∧ list.getLsbD 15 = true))
    (reads : ReadsAll .ldm (wordsFrom (s.getReg rp) (listAscending list).length) s vs s1) : Gives (exec (.ldm rp wb list) s) fun t =>
      ∃ v, Popped (.ldm rp wb list) s s1 t ((listAscending list).reverse.zip vs)
        (if wb = 1#1 then some (if rp = 15#4 then 13#4 else rp, v) else none) none ∧
        (list.getLsbD rp.toNat = false ∨ rp = 15#4 → v = s.getReg rp + BitVec.ofNat 32 (4 * (listAscending list).length)) := by
  let overlap := wb == 1#1 && rp != 15#4 && list.getLsbD rp.toNat
  let final := s.getReg rp + BitVec.ofNat 32 (4 * (listAscending list).length)
  have noOption : (rp == 15#4 && list.getLsbD 15) = false := by simpa using plain
  have run : exec (.ldm rp wb list) s = ((loadWords .ldm (s.getReg rp) (listAscending list).length s).bind fun vs s1 =>
      .ok ((s1.drawFree (if overlap then 1 else 0)).finishPop 4#32 (loadedRegs list vs)
        (if wb = 1#1 then some (if rp = 15#4 then 13#4 else rp, if overlap then s1.free else final) else none) none) s1).finish := by
    refine (if_neg nonempty).trans ?_
    simp only [noOption, Bool.false_eq_true, if_false]
    rfl
  rw [loadWords_readsAll reads] at run
  have popped := popped_finishPop (i := .ldm rp wb list) (len := 4#32) (r12 := none)
    (ptr := if wb = 1#1 then some (if rp = 15#4 then 13#4 else rp, if overlap then s1.free else final) else none)
    (reads.checked.trans (.drawFree s1 (if overlap then 1 else 0))) rfl (loadedRegs_nodup list vs) ?ptrNotPc nofun
  case ptrNotPc =>
    intro p hp
    split at hp
    · obtain rfl := Option.some.inj hp
      by_cases h : rp = 15#4 <;> simp [h]
    · cases hp
  refine ⟨_, run, if overlap then s1.free else final, Popped.of_drawFree popped, fun other => if_neg ?_⟩
  obtain h | h := other <;> simp [overlap, h]

/-- ldm with the R12 option: the pointer field is 15, the pointer the stack's (R866). -/
theorem ldm_option {wb : BitVec 1} (pc : list.getLsbD 15 = true)
    (reads : ReadsAll .ldm (wordsFrom (s.getReg 13#4) (listAscending (list &&& 0x8FFF#16)).length) s vs s1) :
    Gives (exec (.ldm 15#4 wb list) s) fun t => Popped (.ldm 15#4 wb list) s s1 t ((listAscending (list &&& 0x8FFF#16)).reverse.zip vs)
      (if wb = 1#1 then some (13#4, s.getReg 13#4 + BitVec.ofNat 32 (4 * (listAscending (list &&& 0x8FFF#16)).length)) else none)
      (some (optionValue list)) := by
  have run : exec (.ldm 15#4 wb list) s = ((loadWords .ldm (s.getReg 13#4) (listAscending (list &&& 0x8FFF#16)).length s).bind fun vs s1 =>
      .ok (s1.finishPop 4#32 (loadedRegs (list &&& 0x8FFF#16) vs)
        (if wb = 1#1 then some (13#4, s.getReg 13#4 + BitVec.ofNat 32 (4 * (listAscending (list &&& 0x8FFF#16)).length)) else none)
        (some (optionValue list))) s1).finish := by
    refine (if_neg (ne_zero_of_getLsbD pc)).trans ?_
    simp only [pc, Bool.and_true, beq_self_eq_true, if_true, bne_self_eq_false, Bool.and_false, Bool.false_and, Bool.false_eq_true, if_false]
    rfl
  rw [loadWords_readsAll reads] at run
  refine ⟨_, run, popped_finishPop reads.checked rfl (loadedRegs_nodup _ vs) (fun p hp => ?_) fun _ =>
    ⟨notMem_loadedRegs (by simp) vs, fun p hp => ?_⟩⟩ <;>
  · split at hp <;> cases hp
    simp

/-- The words of ldm, with the other agents between them (20_memory.md R208). -/
theorem ldm_inTurn {rp : RegNo} (nonempty : list ≠ 0#16) (noPc : list.getLsbD 15 = false) (direct : Direct s)
    (ha : (s.getReg rp).toNat % 4 = 0) (backed : Backed s (s.getReg rp) (4 * (listAscending list).length)) :
    Gives (exec (.ldm rp 0#1 list) s) fun t =>
      (∀ p ∈ (listAscending list).reverse.zipIdx, t.getReg p.1 = s.wordInTurn (s.getReg rp) p.2) ∧
      t.mem = (s.turns ((listAscending list).length - 1)).mem ∧ SameRegs s t (listAscending list) ∧ SameSr s t [] ∧
      t.pc = s.after (.ldm rp 0#1 list) := by
  let u := s.turns ((listAscending list).length - 1)
  let regs := loadedRegs list ((List.range (listAscending list).length).map (s.wordInTurn (s.getReg rp)))
  have accessed : Accessed s u := s.turns_accessed _
  have run : exec (.ldm rp 0#1 list) s = ((loadWords .ldm (s.getReg rp) (listAscending list).length s).bind fun vs s1 =>
      .ok (s1.finishPop 4#32 (loadedRegs list vs) none none) s1).finish := by
    refine (if_neg nonempty).trans ?_
    simp only [noPc, Bool.and_false, Bool.false_eq_true, if_false]
    rfl
  rw [loadWords_direct direct .ldm ((aligned_word_iff (.inl rfl)).mpr ha) backed] at run
  have pcFree : regs.lookup 15#4 = none := lookup_loadedRegs_pc noPc _
  have e : u.finishPop 4#32 regs none none = (u.advance 4#32).setRegs (popWrites regs none none) := by rw [State.finishPop_eq, pcFree]; rfl
  have only : WritesOnly u ((u.advance 4#32).setRegs (popWrites regs none none)) (s.after (.ldm rp 0#1 list))
      ((popWrites regs none none).map Prod.fst) [] :=
    (Accessed.advance (i := .ldm rp 0#1 list) (len := 4#32) accessed rfl _).setRegs (List.Subset.refl _)
  refine ⟨_, run, ?_⟩
  rw [e]
  have regs_only : SameRegs s ((u.advance 4#32).setRegs (popWrites regs none none)) (listAscending list) := fun p real notPc other =>
    accessed.sameRegs only p real notPc fun d hd => other d ?named
  refine ⟨fun q hq => ?_, State.setRegs_mem .., regs_only, accessed.sameSr only, only.pc (popWrites_notPc nofun)⟩
  case named =>
    have named := popWrites_subset hd
    simp only [Option.map_none, Option.toList_none, Option.isSome_none, List.append_nil, Bool.false_eq_true, if_false] at named
    exact List.mem_reverse.mp ((map_fst_zip_sublist _ _).subset named)
  have notPc : q.1 ≠ 15#4 := by
    intro e
    have bit := getLsbD_of_mem_listAscending (List.mem_reverse.mp (List.fst_mem_of_mem_zipIdx hq))
    rw [e] at bit
    exact absurd (noPc.symm.trans bit) (by decide)
  exact getReg_popWrites_other _ (mem_loadedRegs hq (s.wordInTurn (s.getReg rp))) (loadedRegs_nodup list _) notPc nofun nofun

/-! ## ldmts: the registers of the application context -/

/-- From `s` to `t` only the physical registers `ps` have been written. -/
structure WritesPhys (s t : State) (ps : List PhysReg) : Prop where
  phys : ∀ i, t.phys i = s.phys i
  regs : ∀ p : PhysReg, p.Real → p ∉ ps → t.readPhys p = s.readPhys p
  sr : t.sr = s.sr
  mem : t.mem = s.mem
  system : SameSystem s t

namespace WritesPhys

variable {ps : List PhysReg}

theorem refl (s : State) (ps : List PhysReg) : WritesPhys s s ps :=
  ⟨fun _ => rfl, fun _ _ _ => rfl, rfl, rfl, by simp [SameSystem]⟩

theorem writePhys (h : WritesPhys s t ps) {p : PhysReg} (hp : p ∈ ps) (real : p.Real) (v : Word) : WritesPhys s (t.writePhys p v) ps where
  phys i := (State.phys_congr (by simp) (by simp [State.srBit]) (by simp [State.mode]) i).trans (h.phys i)
  regs q hq notIn := (t.readPhys_writePhys_other v real hq fun e => notIn (e ▸ hp)).trans (h.regs q hq notIn)
  sr := (t.writePhys_sr p v).trans h.sr
  mem := (t.writePhys_mem p v).trans h.mem
  system := by simpa [SameSystem] using h.system

theorem drawFree (h : WritesPhys s t ps) (n : Nat) : WritesPhys s (t.drawFree n) ps :=
  ⟨h.phys, fun p real notIn => ((Accessed.drawFree t n).readPhys p).trans (h.regs p real notIn), h.sr, h.mem, h.system⟩

theorem setReg (h : WritesPhys s t ps) {d : RegNo} (hd : s.phys d ∈ ps) (v : Word) : WritesPhys s (t.setReg d v) ps :=
  h.writePhys (h.phys d ▸ hd) (t.phys_real d) v

end WritesPhys

theorem appReg_real {d : RegNo} (h : d ≠ 15#4) : (appReg d).Real := by
  unfold appReg
  split
  · trivial
  next notSp => exact ⟨notSp, h⟩

theorem appReg_injective {d e : RegNo} (h : appReg d = appReg e) : d = e := by
  unfold appReg at h
  by_cases hd : d = 13#4 <;> by_cases he : e = 13#4 <;> simp_all

theorem State.writeApp_eq (s : State) (d : RegNo) (v : Word) : s.writeApp d v = s.writePhys (appReg d) v := by
  unfold State.writeApp appReg
  split <;> rfl

theorem WritesPhys.writeApps {ps : List PhysReg} (h : WritesPhys s t ps) (named : ∀ q ∈ regs, q.1 ≠ 15#4 ∧ appReg q.1 ∈ ps) :
    WritesPhys s (t.writeApps regs) ps := by
  induction regs generalizing t with
  | nil => exact h
  | cons q regs ih =>
    obtain ⟨notPc, mem⟩ := named q List.mem_cons_self
    exact ih (t.writeApp_eq q.1 q.2 ▸ h.writePhys mem (appReg_real notPc) q.2) fun q' hq => named q' (List.mem_cons_of_mem _ hq)

theorem WritesPhys.freeApps {ps : List PhysReg} (h : WritesPhys s t ps) {is : List RegNo} (named : ∀ d ∈ is, d ≠ 15#4 ∧ appReg d ∈ ps) :
    WritesPhys s (t.freeApps is) ps := by
  induction is generalizing t with
  | nil => exact h
  | cons d is ih =>
    obtain ⟨notPc, mem⟩ := named d List.mem_cons_self
    exact ih ((t.writeApp_eq d t.free ▸ h.writePhys mem (appReg_real notPc) t.free).drawFree 1) fun e he =>
      named e (List.mem_cons_of_mem _ he)

theorem WritesPhys.freeRegs {ps : List PhysReg} (h : WritesPhys s t ps) {is : List RegNo} (named : ∀ d ∈ is, s.phys d ∈ ps) :
    WritesPhys s (t.freeRegs is) ps := by
  induction is generalizing t with
  | nil => exact h
  | cons d is ih =>
    exact ih ((h.setReg (named d List.mem_cons_self) t.free).drawFree 1) fun e he => named e (List.mem_cons_of_mem _ he)

/-- Each application register of the row holds its own value. -/
theorem State.readPhys_writeApps (s : State) (nodup : (regs.map Prod.fst).Nodup) (noPc : ∀ q ∈ regs, q.1 ≠ 15#4) {q : RegNo × Word}
    (hq : q ∈ regs) : (s.writeApps regs).readPhys (appReg q.1) = q.2 := by
  induction regs generalizing s with
  | nil => cases hq
  | cons p regs ih =>
    obtain ⟨first, rest⟩ := List.nodup_cons.mp nodup
    have noPcs (r) (hr : r ∈ regs) := noPc r (List.mem_cons_of_mem _ hr)
    obtain rfl | hq := List.mem_cons.mp hq
    · have others : WritesPhys (s.writeApp q.1 q.2) ((s.writeApp q.1 q.2).writeApps regs) (regs.map fun r => appReg r.1) :=
        (WritesPhys.refl _ _).writeApps fun r hr => ⟨noPcs r hr, List.mem_map_of_mem hr⟩
      have kept := others.regs (appReg q.1) (appReg_real (noPc q List.mem_cons_self)) fun named => by
        obtain ⟨r, hr, e⟩ := List.mem_map.mp named
        exact first (appReg_injective e ▸ List.mem_map_of_mem hr)
      refine kept.trans ?_
      rw [State.writeApp_eq, State.readPhys_writePhys_same, if_neg]
      unfold appReg
      split <;> nofun
    · exact ih _ rest noPcs hq

theorem mem_withoutPc {d : RegNo} (h : d ∈ withoutPc list) : d ≠ 15#4 ∧ d ∈ listAscending list := by
  have bit := getLsbD_of_mem_listAscending h
  rw [BitVec.getLsbD_and, Bool.and_eq_true] at bit
  have number : BitVec.ofNat 4 d.toNat = d := by simp
  refine ⟨?_, number ▸ mem_listAscending d.isLt bit.1⟩
  rintro rfl
  exact absurd bit.2 (by decide)

theorem notPc_of_mem_loadedRegs (noPc : list.getLsbD 15 = false) {q : RegNo × Word} (h : q ∈ loadedRegs list vs) : q.1 ≠ 15#4 := fun e =>
  notMem_loadedRegs (d := 15#4) noPc vs (e ▸ List.mem_map_of_mem (f := Prod.fst) h)

/-- What ldmts can write: application registers, and its pointer with write-back. -/
def ldmtsWrites (s : State) (is : List RegNo) (wb : BitVec 1) (rp : RegNo) : List PhysReg :=
  is.map appReg ++ if wb = 1#1 then [s.phys rp] else []

theorem appReg_mem_ldmtsWrites {is : List RegNo} {wb : BitVec 1} {rp d : RegNo} (h : d ∈ is) : appReg d ∈ ldmtsWrites s is wb rp :=
  List.mem_append_left _ (List.mem_map_of_mem h)

theorem notMem_ldmtsWrites {is : List RegNo} {wb : BitVec 1} {rp : RegNo} {p : PhysReg} (apps : ∀ d ∈ is, p ≠ appReg d)
    (pointer : wb = 1#1 → p ≠ s.phys rp) : p ∉ ldmtsWrites s is wb rp := by
  intro h
  obtain h | h := List.mem_append.mp h
  · obtain ⟨d, hd, e⟩ := List.mem_map.mp h
    exact apps d hd e.symm
  · split at h
    next moves => exact pointer moves (List.mem_singleton.mp h)
    next => cases h

/-- What ldmts leaves behind its loads. -/
theorem ldmts_left {is : List RegNo} {wb : BitVec 1} {rp : RegNo} (checked : OnlyChecked s s1)
    (written : WritesPhys (s1.advance 4#32) t (ldmtsWrites s is wb rp)) :
    (∀ p : PhysReg, p.Real → p ≠ .pc → (∀ d ∈ is, p ≠ appReg d) → (wb = 1#1 → p ≠ s.phys rp) → t.readPhys p = s.readPhys p) ∧
    (wb = 0#1 ∨ rp ≠ 15#4 → t.pc = s.pc + 4#32) ∧ SameSr s t [] ∧ SameMem s t ∧ SameSystem s1 t := by
  have accessed := checked.accessed
  refine ⟨fun p real notPc apps pointer => ?_, fun stays => ?_, fun n _ _ => ?_, sameMem_of (written.mem.trans checked.mem), written.system⟩
  · exact (written.regs p real (notMem_ldmtsWrites apps pointer)).trans ((s1.readPhys_advance 4#32 p notPc).trans (accessed.readPhys p))
  · have kept : PhysReg.pc ∉ ldmtsWrites s is wb rp := by
      refine notMem_ldmtsWrites (fun d _ => ?_) fun moves => ?_
      · unfold appReg; split <;> nofun
      · exact (State.phys_ne (j := 15#4) (stays.resolve_left (by rw [moves]; decide))).symm
    exact (written.regs .pc trivial kept).trans (accessed.pc ▸ rfl)
  · rw [State.srBit, written.sr]
    exact congrArg (·.getLsbD n) accessed.sr

/-- ldmts of a list that is not empty (R870). -/
theorem ldmts_gives {rp : RegNo} {wb : BitVec 1} (nonempty : list ≠ 0#16)
    (reads : ReadsAll .ldmts (wordsFrom (s.getReg rp) (listAscending list).length) s vs s1) : Gives (exec (.ldmts rp wb list) s) fun t =>
      (list.getLsbD 15 = false → ∀ q ∈ (listAscending list).reverse.zip vs, (wb = 1#1 → appReg q.1 ≠ s.phys rp) →
        t.readPhys (appReg q.1) = q.2) ∧
      (list.getLsbD 15 = false → wb = 1#1 → rp ≠ 15#4 →
        t.getReg rp = s.getReg rp + BitVec.ofNat 32 (4 * (listAscending list).length)) ∧
      (∀ p : PhysReg, p.Real → p ≠ .pc → (∀ i ∈ listAscending list, p ≠ appReg i) → (wb = 1#1 → p ≠ s.phys rp) →
        t.readPhys p = s.readPhys p) ∧
      (wb = 0#1 ∨ rp ≠ 15#4 → t.pc = s.pc + 4#32) ∧ SameSr s t [] ∧ SameMem s t ∧ SameSystem s1 t := by
  have run : exec (.ldmts rp wb list) s = ((loadWords .ldmts (s.getReg rp) (listAscending list).length s).bind fun vs s1 =>
      .ok (if list.getLsbD 15 then ((s1.advance 4#32).freeApps (withoutPc list)).freeRegs (if wb = 1#1 then [rp] else [])
        else if wb = 1#1 then ((s1.advance 4#32).writeApps (loadedRegs list vs)).setReg rp
            (s.getReg rp + BitVec.ofNat 32 (4 * (listAscending list).length))
          else (s1.advance 4#32).writeApps (loadedRegs list vs)) s1).finish := if_neg nonempty
  rw [loadWords_readsAll reads] at run
  have start : WritesPhys (s1.advance 4#32) (s1.advance 4#32) (ldmtsWrites s (listAscending list) wb rp) := .refl _ _
  have physRp (h : wb = 1#1) : (s1.advance 4#32).phys rp ∈ ldmtsWrites s (listAscending list) wb rp := by
    rw [State.phys_advance, reads.checked.accessed.phys]
    exact List.mem_append_right _ (by rw [if_pos h]; exact List.mem_singleton_self _)
  cases pc : list.getLsbD 15 with
  | true =>
    rw [pc] at run
    refine ⟨_, run, nofun, nofun, ldmts_left reads.checked ?_⟩
    refine (start.freeApps fun d hd => ?_).freeRegs fun d hd => ?_
    · exact ⟨(mem_withoutPc hd).1, appReg_mem_ldmtsWrites (mem_withoutPc hd).2⟩
    · split at hd
      next moves => exact List.mem_singleton.mp hd ▸ physRp moves
      next => cases hd
  | false =>
    rw [pc] at run
    have noPc (q) (hq : q ∈ loadedRegs list vs) := notPc_of_mem_loadedRegs pc hq
    have loaded : WritesPhys (s1.advance 4#32) ((s1.advance 4#32).writeApps (loadedRegs list vs))
        (ldmtsWrites s (listAscending list) wb rp) := start.writeApps fun q hq =>
      ⟨noPc q hq, appReg_mem_ldmtsWrites (List.mem_reverse.mp ((map_fst_zip_sublist _ vs).subset (List.mem_map_of_mem hq)))⟩
    have values (q) (hq : q ∈ loadedRegs list vs) := (s1.advance 4#32).readPhys_writeApps (loadedRegs_nodup list vs) noPc hq
    by_cases moves : wb = 1#1
    · simp only [if_pos moves, Bool.false_eq_true, if_false] at run
      refine ⟨_, run, fun _ q hq notPtr => ?_, fun _ _ notPc => State.getReg_setReg_same _ _ notPc,
        ldmts_left reads.checked (loaded.setReg (physRp moves) _)⟩
      refine (State.readPhys_writePhys_other _ _ (State.phys_real _ rp) (appReg_real (noPc q hq)) ?_).trans (values q hq)
      rw [loaded.phys, State.phys_advance, reads.checked.accessed.phys]
      exact notPtr moves
    · simp only [if_neg moves, Bool.false_eq_true, if_false] at run
      exact ⟨_, run, fun _ q hq _ => values q hq, fun _ h => absurd h moves, ldmts_left reads.checked loaded⟩

/-- ldmts of an empty list. -/
theorem ldmts_empty (rp : RegNo) (wb : BitVec 1) : Gives (exec (.ldmts rp wb 0#16) s) fun t =>
    (∀ p : PhysReg, p.Real → p ≠ .pc → (∀ i, i ≠ 15#4 → p ≠ appReg i) → p ≠ s.phys rp → t.readPhys p = s.readPhys p) ∧
    (rp ≠ 15#4 → t.pc = s.pc + 4#32) ∧ SameSr s t [] ∧ SameMem s t ∧ SameSystem s t := by
  have start : WritesPhys (s.advance 4#32) (s.advance 4#32) (ldmtsWrites s (withoutPc 0xFFFF#16) 1#1 rp) := .refl _ _
  obtain ⟨regs, pc, sr, mem, system⟩ := ldmts_left (.refl s) ((start.freeApps (is := withoutPc 0xFFFF#16) fun d hd =>
    ⟨(mem_withoutPc hd).1, appReg_mem_ldmtsWrites hd⟩).freeRegs (is := [rp]) fun d hd => by
      rw [List.mem_singleton.mp hd, State.phys_advance]
      exact List.mem_append_right _ (List.mem_singleton_self _))
  exact ⟨_, rfl, fun p real notPc apps pointer => regs p real notPc (fun d hd => apps d (mem_withoutPc hd).1) fun _ => pointer,
    fun h => pc (.inr h), sr, mem, system⟩

/-- Settles O40: each list by the words that its loads leave, its pointer, and the test or the option of R12. -/
theorem multipleLoads : Obligations.MultipleLoads := by
  intro s
  refine ⟨fun rp list => ldm_inTurn, fun k list vs s1 nonempty => ?popm, fun rp wb list vs s1 => ldm_popped,
    fun wb list vs s1 pc => ldm_option pc, fun rp wb list vs s1 => ldmts_gives, fun _ => emptyList_gives rfl, fun _ _ => emptyList_gives rfl,
    ldmts_empty⟩
  exact popm_popped nonempty Iff.rfl rfl

end Sys2Proof.Machine
end

section
/-! PROOFS. O58 : the instructions that aid Java execution, and the window behind a write of JOSP. -/

namespace Sys2Proof.Machine

variable {s s1 t : State} {i j : Instr} {vs : List Word}

/-! ## The instructions that lie ahead -/

theorem readBytes_append (m : List Host.Cell) (pa : Word) (k n : Nat) :
    readBytes m pa (k + n) = readBytes m pa k ++ readBytes m (pa + BitVec.ofNat 32 k) n := by
  induction k generalizing pa with
  | zero => simp [readBytes]
  | succ k ih =>
    have next : pa + 1#32 + BitVec.ofNat 32 k = pa + BitVec.ofNat 32 (k + 1) := by
      rw [Nat.add_comm k, BitVec.ofNat_add, BitVec.add_assoc]
    rw [Nat.add_right_comm, readBytes, ih, next, readBytes, List.cons_append]

/-- What lies at an address as one row lies there part by part. -/
theorem readBytes_eq_append {m : List Host.Cell} {pa : Word} {as bs : List Byte} (h : readBytes m pa (as ++ bs).length = as ++ bs) :
    readBytes m pa as.length = as ∧ readBytes m (pa + BitVec.ofNat 32 as.length) bs.length = bs := by
  have same (m' : List Host.Cell) (a : Word) (n : Nat) : (readBytes m' a n).length = n := by
    induction n generalizing a with
    | zero => rfl
    | succ n ih => rw [readBytes, List.length_cons, ih]
  rw [List.length_append, readBytes_append] at h
  exact List.append_inj h (same ..)

theorem instrLength_even (i : Instr) : (BitVec.ofNat 32 (instrLength i)).getLsbD 0 = false := by
  unfold instrLength encode
  cases encodeCode i with
  | half c => exact (by decide : (2#32).getLsbD 0 = false)
  | word w => exact (by decide : (4#32).getLsbD 0 = false)

theorem even_behind (even : s.pc.getLsbD 0 = false) (i : Instr) (idx : Nat) : (s.behind (instrLength i) idx).pc.getLsbD 0 = false := by
  rw [State.behind, BitVec.getLsbD_add (by decide), even, instrLength_even, BitVec.carry_zero]
  rfl

/-- A hazardous instruction behind well-formed ones is ahead of a window that holds them all. -/
theorem hazardAhead_of_row {n : Nat} (js : List Instr) (direct : Direct s) (even : s.pc.getLsbD 0 = false)
    (wf : (js ++ [j]).all WellFormed = true) (hazard : hazardous j = true) (inside : js.length < n)
    (bytes : readBytes s.mem s.pc ((js ++ [j]).flatMap encode).length = (js ++ [j]).flatMap encode)
    (backed : Backed s s.pc ((js ++ [j]).flatMap encode).length) : hazardAhead n s = true := by
  induction js generalizing s n with
  | nil =>
    obtain ⟨n, rfl⟩ := Nat.exists_eq_add_of_lt inside
    simp only [List.nil_append, List.flatMap_cons, List.flatMap_nil, List.append_nil] at bytes backed
    have decodes := Laws.DecodeEncode.decodeCode_encodeCode j (by simpa using wf)
    exact hazardAhead_here (fetchCode_direct direct even decodes backed bytes) decodes hazard
  | cons i js ih =>
    obtain ⟨n, rfl⟩ : ∃ m, n = m + 1 := ⟨n - 1, by omega⟩
    obtain ⟨wfI, wfs⟩ : WellFormed i = true ∧ (js ++ [j]).all WellFormed = true := by simpa using wf
    have row : ((i :: js) ++ [j]).flatMap encode = encode i ++ (js ++ [j]).flatMap encode := rfl
    rw [row] at bytes backed
    obtain ⟨first, rest⟩ := readBytes_eq_append bytes
    rw [List.length_append] at backed
    have decodes := Laws.DecodeEncode.decodeCode_encodeCode i wfI
    have fetched := fetchCode_direct direct even decodes (backed.mono (Nat.le_add_right ..)) first
    exact hazardAhead_behind fetched (ih (s := s.behind (instrLength i) s.freeIdx) direct (even_behind even i _) wfs
      (Nat.lt_of_succ_lt_succ inside) rest (backed.drop (Nat.le_refl _)))

/-- The window behind an instruction that opens it or runs in it. -/
theorem State.hazard_flagged (t : State) (open_ : writesJosp i = true ∨ 0 < s.hazardLeft)
    (ahead : hazardAhead (t.hazard i s).hazardLeft (s.behind (instrLength i) t.freeIdx) = true) : (t.hazard i s).hazardFlag = true := by
  by_cases opens : writesJosp i = true
  · simp only [State.hazard, if_pos opens, State.lookAhead] at ahead ⊢
    rw [ahead, Bool.or_true]
  · have inWindow : ¬ (s.hazardLeft == 0) = true := by simpa using (open_.resolve_left opens).ne'
    simp only [State.hazard, if_neg opens, State.windowPast, if_neg inWindow, State.lookAhead] at ahead ⊢
    rw [ahead, Bool.or_true]

theorem State.hazard_shrinks (t : State) (noWrite : writesJosp i = false) (inWindow : 0 < s.hazardLeft) :
    (t.hazard i s).hazardLeft = s.hazardLeft - 1 ∧ (hazardous i = true → (t.hazard i s).hazardFlag = true) := by
  have notClosed : ¬ (s.hazardLeft == 0) = true := by simpa using inWindow.ne'
  simp only [State.hazard, noWrite, Bool.false_eq_true, if_false, State.windowPast, if_neg notClosed, State.lookAhead]
  exact ⟨trivial, fun bad => by rw [bad, Bool.or_true, Bool.true_or]⟩

/-- mtsr JOSP, which every mode may make (48_system_coprocessor_java.md R914). -/
theorem mtsr_josp (java : s.cfg.hasJava = true) (there : listed s.cfg 22 = true) (rs : RegNo) :
    Gives (exec (.mtsr rs 22#8) s) fun t => t.java.josp = s.getReg rs ∧ t.hazardLeft = s.cfg.jospHazard := by
  have write : (s.advance 4#32).writeSysReg 22#8 (s.getReg rs) =
      { s.advance 4#32 with java := { s.java with josp := s.getReg rs }, hazardLeft := s.cfg.jospHazard } := by
    simp [State.writeSysReg, State.writeIf, java, there]
  have run : exec (.mtsr rs 22#8) s = .next ((s.advance 4#32).writeSysReg 22#8 (s.getReg rs)) := by
    rw [exec_mtsr, execMtsr, requireRight, if_pos (by simp [State.maySysReg])]
  rw [write] at run
  exact ⟨_, run, rfl, rfl⟩

theorem jospWindow (java : s.cfg.hasJava = true) : JospWindow s :=
  ⟨fun rs there => mtsr_josp java there rs, fun t _ => State.hazard_shrinks t, fun t i _ js direct even wf hazard opened inside bytes backed =>
    State.hazard_flagged t opened (hazardAhead_of_row (s := s.behind (instrLength i) t.freeIdx) js direct (even_behind even i _) wf hazard inside
      bytes backed)⟩

/-! ## The instructions -/

/-- imm3 encodes 1 to 4 and -4 to -1 (R387). -/
theorem jospStep_eq (imm : BitVec 3) : jospStep imm = if imm.toNat < 4 then (imm.toNat : Int) + 1 else imm.toNat - 8 := by
  revert imm; decide

theorem incjosp_gives (java : s.cfg.hasJava = true) {imm : BitVec 3} {n : Int}
    (step : (imm.toNat < 4 ∧ n = imm.toNat + 1) ∨ (4 ≤ imm.toNat ∧ n = imm.toNat - 8))
    (low : 0 ≤ ((s.java.josp.toNat % 16 : Nat) : Int) + n) (high : ((s.java.josp.toNat % 16 : Nat) : Int) + n ≤ 8) :
    Gives (exec (.incjosp imm) s) fun t =>
      t.java = { s.java with josp := s.java.josp + BitVec.ofInt 32 n } ∧ t.pc = s.pc + 2#32 ∧ SameRegs s t [] ∧ SameSr s t [] ∧
      SameMem s t ∧ SameSystem { s with java := t.java } t := by
  obtain rfl : n = jospStep imm := by rw [jospStep_eq]; split <;> omega
  have pointer : ((s.java.josp.extractLsb' 0 4).toNat : Int) = ((s.java.josp.toNat % 16 : Nat) : Int) := by
    rw [BitVec.extractLsb'_toNat, Nat.shiftRight_zero]
  have run : exec (.incjosp imm) s =
      .next { s.advance 2#32 with java := { s.java with josp := s.java.josp + BitVec.ofInt 32 (jospStep imm) } } := by
    refine (if_pos java).trans ?_
    simp only [pointer, if_neg (not_lt.mpr low), if_neg (not_lt.mpr high)]
  exact ⟨_, run, rfl, rfl, sameRegs_of, fun _ _ _ => rfl, sameMem_of, by simp [SameSystem]⟩

theorem ReadsAll.length {kind : LsKind} {vas : List Word} (h : ReadsAll kind vas s vs s1) : vs.length = vas.length := by
  induction vas generalizing s vs with
  | nil => obtain ⟨rfl, -⟩ := h; rfl
  | cons va vas ih =>
    obtain ⟨bs, rest, s0, -, -, rfl, others⟩ := h
    rw [List.length_cons, List.length_cons, ih others]

theorem toList_lvOf (h : vs.length = 8) : (lvOf vs).toList = vs := by
  refine List.ext_getElem (by simp [h]) fun k h1 h2 => ?_
  simp [lvOf, List.getD_eq_getElem?_getD, h2]

theorem popjc_gives (java : s.cfg.hasJava = true) (reads : ReadsAll .popjc s.frameAddresses s vs s1) : Gives (exec .popjc s) fun t =>
    t.java.lv.toList = vs ∧ t.java = { s.java with lv := t.java.lv } ∧ t.pc = s.pc + 2#32 ∧ SameRegs s t [] ∧ SameSr s t [] ∧
    SameMem s t ∧ SameSystem { s1 with java := t.java } t := by
  have run : exec .popjc s = ((loadEach .popjc s.frameAddresses s).bind fun vs s1 =>
      .ok { s1.advance 2#32 with java := { s1.java with lv := lvOf vs } } s1).finish := if_pos java
  rw [loadEach_readsAll reads] at run
  have accessed := reads.checked.accessed
  have only := Accessed.advance (i := .popjc) (len := 2#32) accessed rfl []
  have same : s1.java = s.java := by obtain ⟨_, _, _, rfl, _⟩ := reads.checked; rfl
  refine ⟨_, run, toList_lvOf (reads.length.trans (by simp [State.frameAddresses])), by rw [same], only.pc (by simp),
    fun p real notPc other => ?_, fun n _ _ => congrArg (·.getLsbD n) accessed.sr, sameMem_of reads.checked.mem, by simp [SameSystem]⟩
  exact Eq.trans (by cases p with | bank c i => cases c <;> rfl | _ => rfl) (accessed.sameRegs only p real notPc other)

/-- GM is cleared on the way from Supervisor mode (R993). -/
theorem retj_gives (java : s.cfg.hasJava = true) : Gives (exec .retj s) fun t =>
    t.pc = s.getReg 14#4 &&& 0xFFFFFFFE#32 ∧ t.srBit bitJ = true ∧ t.srBit bitR = false ∧
    t.srBit bitGM = (decide (s.mode ≠ 1#3) && s.srBit bitGM) ∧ SameSr s t [bitJ, bitR, bitGM] ∧ SameRegs s t [] ∧ SameMem s t ∧
    SameSystem s t := by
  let sr := setBit (setBit s.sr bitJ true) bitR false
  have run : exec .retj s = .next { s.jump (s.getReg 14#4) with sr := if s.mode = 1#3 then setBit sr bitGM false else sr } := by
    refine (if_pos java).trans ?_
    split <;> rfl
  have bit {n : Nat} (hn : n < 32) : (if s.mode = 1#3 then setBit sr bitGM false else sr).getLsbD n =
      if n = bitGM ∧ s.mode = 1#3 then false else if n = bitR then false else if n = bitJ then true else s.srBit n := by
    by_cases h : s.mode = 1#3 <;> simp [h, sr, getLsbD_setBit hn, State.srBit]
  refine ⟨_, run, rfl, bit (by decide), bit (by decide), (bit (by decide)).trans ?_, fun n hn other => (bit hn).trans ?_, sameRegs_of,
    sameMem_of, by simp [SameSystem]⟩
  · by_cases h : s.mode = 1#3 <;> simp [h, bitGM, bitR, bitJ]
  · simp only [List.mem_cons, List.not_mem_nil, or_false, not_or] at other
    obtain ⟨notJ, notR, notGM⟩ := other
    simp [notJ, notR, notGM]

/-- Settles O58: the window by what lies ahead, the instructions by their accesses. -/
theorem javaInstructions : Obligations.JavaInstructions := by
  intro s java
  refine ⟨jospWindow java, fun imm n => incjosp_gives java, fun vs s1 => popjc_gives java, ?pushjc, retj_gives java⟩
  exact pushed_of_finishStore (k := 0) (len := 2#32) (if_pos java)

end Sys2Proof.Machine
end

section
/-! PROOFS. O59 : the packed instructions lane by lane (49_simd_rmw.md R1001 to R1030). -/

namespace Sys2Proof.Machine

variable {s : State} {i : Instr} {d : RegNo} {w : Nat} {v X Y : Word} {u : FlagUpdate}

/-! ## Lanes -/

/-- `v` is packed from the lanes `f`, of `w` bits each. -/
def Packs (w : Nat) (v : Word) (f : Nat → BitVec w) : Prop := ∀ k, w * k < 32 → v.extractLsb' (w * k) w = f k

theorem packs_bytes (f : Nat → Byte) : Packs 8 (packBytes (f 3) (f 2) (f 1) (f 0)) f := by
  intro k hk
  obtain rfl | rfl | rfl | rfl : k = 0 ∨ k = 1 ∨ k = 2 ∨ k = 3 := by omega
  · exact BitVec.extractLsb'_append_eq_right
  · exact (BitVec.extractLsb'_append_eq_of_le (by decide)).trans BitVec.extractLsb'_append_eq_right
  · refine (BitVec.extractLsb'_append_eq_of_le (by decide)).trans ?_
    exact (BitVec.extractLsb'_append_eq_of_le (by decide)).trans BitVec.extractLsb'_append_eq_right
  · refine (BitVec.extractLsb'_append_eq_of_le (by decide)).trans ?_
    refine (BitVec.extractLsb'_append_eq_of_le (by decide)).trans ?_
    exact (BitVec.extractLsb'_append_eq_of_le (by decide)).trans BitVec.extractLsb'_eq_self

theorem packs_halves (f : Nat → Half) : Packs 16 (packHalves (f 1) (f 0)) f := by
  intro k hk
  obtain rfl | rfl : k = 0 ∨ k = 1 := by omega
  · exact BitVec.extractLsb'_append_eq_right
  · exact (BitVec.extractLsb'_append_eq_of_le (by decide)).trans BitVec.extractLsb'_eq_self

theorem halfPart_eq (v : Word) (p : BitVec 1) : halfPart v p = v.extractLsb' (16 * p.toNat) 16 := by
  obtain rfl | rfl : p = 0#1 ∨ p = 1#1 := by revert p; decide
  · rfl
  · rfl

/-! ## Arithmetic on the integers of lanes -/

theorem toNat_add_emod (a b : BitVec w) : ((a + b).toNat : Int) = ((a.toNat : Int) + b.toNat) % 2 ^ w := by
  rw [BitVec.toNat_add]; push_cast; rfl

theorem toNat_sub_emod (a b : BitVec w) : ((a - b).toNat : Int) = ((a.toNat : Int) - b.toNat) % 2 ^ w := by
  have below := b.isLt
  rw [BitVec.toNat_sub, Int.natCast_emod, Nat.cast_add, Nat.cast_sub below.le, Nat.cast_pow, Nat.cast_ofNat, ← Int.add_emod_right,
    show (2 : Int) ^ w - b.toNat + a.toNat + 2 ^ w = a.toNat - b.toNat + 2 ^ w + 2 ^ w by ring, Int.add_emod_right, Int.add_emod_right]

/-- An integer in the range of a lane is the value of its lane. -/
theorem toNat_ofInt_of_range {x : Int} (low : 0 ≤ x) (high : x < 2 ^ w) : ((BitVec.ofInt w x).toNat : Int) = x := by
  rw [BitVec.toNat_ofInt, Nat.cast_pow, Nat.cast_ofNat, Int.emod_eq_of_lt low high, Int.toNat_of_nonneg low]

theorem toNat_halve {x : Int} (low : 0 ≤ x) (high : x / 2 < 2 ^ w) : ((halve w x).toNat : Int) = x / 2 := by
  rw [halve, Int.fdiv_eq_ediv_of_nonneg x (by decide)]
  exact toNat_ofInt_of_range (by omega) high

theorem toInt_halve {x : Int} (fits : fitsSigned (w + 1) (x / 2)) : (halve (w + 1) x).toInt = x / 2 := by
  rw [halve, Int.fdiv_eq_ediv_of_nonneg x (by decide)]
  exact toInt_ofInt_of_fits fits

theorem fits_toInt (a : BitVec (w + 1)) : fitsSigned (w + 1) a.toInt := ⟨BitVec.le_toInt a, BitVec.toInt_lt⟩

/-- Half of a sum or difference, and an average, of two lanes is in their range. -/
theorem fits_half {a b x : Int} (ha : fitsSigned (w + 1) a) (hb : fitsSigned (w + 1) b) (hx : x = a + b ∨ x = a - b ∨ x = a + b + 1) :
    fitsSigned (w + 1) (x / 2) := by
  unfold fitsSigned at *
  omega

theorem toInt_sshiftRight_lane (a : BitVec w) (n : Nat) : (a.sshiftRight n).toInt = a.toInt / 2 ^ n := by
  rw [BitVec.toInt_sshiftRight, Int.shiftRight_eq_div_pow, Nat.cast_pow]
  rfl

theorem toNat_ushiftRight_lane (a : BitVec w) (n : Nat) : ((a >>> n).toNat : Int) = (a.toNat : Int) / 2 ^ n := by
  rw [BitVec.toNat_ushiftRight, Nat.shiftRight_eq_div_pow]; push_cast; rfl

theorem toNat_shiftLeft_lane (a : BitVec w) (n : Nat) : ((a <<< n).toNat : Int) = (a.toNat : Int) * 2 ^ n % 2 ^ w := by
  rw [BitVec.toNat_shiftLeft, Nat.shiftLeft_eq]; push_cast; rfl

/-- The most negative lane is its own absolute value, read without a sign (R1002). -/
theorem toNat_absLane (a : BitVec w) : (absLane a).toNat = a.toInt.natAbs := by
  have abs : absLane a = a.abs := by rw [absLane, BitVec.abs]; split <;> simp
  have below := a.isLt
  rw [abs, BitVec.toNat_abs, BitVec.toInt_eq_msb_cond]
  split <;> omega

/-! ## What a packed instruction writes -/

theorem setsLanes_of_packs {f : Nat → BitVec w} {P : Word → Nat → Prop} (simd : s.cfg.hasSimd = true) (packs : Packs w v f)
    (lanes : ∀ v k, v.extractLsb' (w * k) w = f k → P v k) (run : exec i s = s.finishPacked d v u)
    (hlen : s.pc + 4#32 = s.after i := by rfl) : SetsLanes i s d w P :=
  ⟨v, fun k hk => lanes v k (packs k hk), _, run.trans (if_pos simd), writes_finishReg u hlen⟩

/-- Lanes given as unsigned and as signed integers. -/
theorem setsLanes_unsigned {f : Nat → BitVec w} {x : Nat → Int} (simd : s.cfg.hasSimd = true) (packs : Packs w v f)
    (value : ∀ k, ((f k).toNat : Int) = x k) (run : exec i s = s.finishPacked d v u)
    (hlen : s.pc + 4#32 = s.after i := by rfl) : SetsLanes i s d w fun v k => uLane w v k = x k :=
  setsLanes_of_packs simd packs (fun _ k lane => (congrArg (fun l : BitVec w => (l.toNat : Int)) lane).trans (value k)) run hlen

theorem setsLanes_signed {f : Nat → BitVec w} {x : Nat → Int} (simd : s.cfg.hasSimd = true) (packs : Packs w v f)
    (value : ∀ k, (f k).toInt = x k) (run : exec i s = s.finishPacked d v u)
    (hlen : s.pc + 4#32 = s.after i := by rfl) : SetsLanes i s d w fun v k => sLane w v k = x k :=
  setsLanes_of_packs simd packs (fun _ k lane => (congrArg BitVec.toInt lane).trans (value k)) run hlen

theorem gives_finishPacked {Q : State → Prop} (simd : s.cfg.hasSimd = true) (run : exec i s = s.finishPacked d v u)
    (flags : ∀ t : State, t.sr = applyFlags s.sr u → Q t) : Gives (exec i s) Q :=
  ⟨_, run.trans (if_pos simd), flags _ (by simp)⟩

/-! ## Saturation -/

theorem Lane.saturated_iff (l : Lane) : l.saturated = true ↔ l.sat l.exact ≠ l.exact := bne_iff_ne

theorem satSU_range (w : Nat) (x : Int) : 0 ≤ satSU w x ∧ satSU w x < 2 ^ w := by
  have positive : (0 : Int) < 2 ^ w := by positivity
  unfold satSU
  split
  · omega
  · split <;> omega

/-- The other saturation differs below 0 alone. -/
theorem satU_eq_satSU {x : Int} (h : 0 ≤ x) : satU w x = satSU w x := by
  unfold satU satSU
  rw [if_neg (c := x < 0) (by omega)]

/-- The integer of a lane that holds a saturated one. -/
theorem uLane_satSU {k : Nat} {x : Int} (h : v.extractLsb' (w * k) w = BitVec.ofInt w (satSU w x)) : uLane w v k = satSU w x := by
  rw [uLane, h]
  exact toNat_ofInt_of_range (satSU_range w x).1 (satSU_range w x).2

theorem sLane_satS {k : Nat} {x : Int} (h : v.extractLsb' ((w + 1) * k) (w + 1) = BitVec.ofInt (w + 1) (satS (w + 1) x)) :
    sLane (w + 1) v k = satS (w + 1) x := by
  rw [sLane, h]
  exact toInt_ofInt_of_fits (satS_fits le_rfl x)

section
variable {ls : Nat → Lane} {lane : Nat → Word → Nat → Int} {sat : Nat → Int → Int} {x : Nat → Int}

/-- The lanes `ls` are of the integers `x`, saturated by `sat`. -/
def LanesOf (ls : Nat → Lane) (w : Nat) (sat : Nat → Int → Int) (x : Nat → Int) : Prop :=
  ∀ k, (ls k).exact = x k ∧ (ls k).sat (x k) = sat w (x k)

theorem LanesOf.value (of : LanesOf ls w sat x) (k : Nat) : (ls k).value w = BitVec.ofInt w (sat w (x k)) := by
  rw [Lane.value, (of k).1, (of k).2]

theorem LanesOf.saturated (of : LanesOf ls w sat x) (k : Nat) : (ls k).saturated = true ↔ sat w (x k) ≠ x k := by
  rw [Lane.saturated_iff, (of k).1, (of k).2]

theorem setsSaturated_of_packs {q : Bool} (simd : s.cfg.hasSimd = true) (of : LanesOf ls w sat x) (packs : Packs w v fun k => (ls k).value w)
    (reads : ∀ {v k y}, v.extractLsb' (w * k) w = BitVec.ofInt w (sat w y) → lane w v k = sat w y)
    (record : q = true ↔ ∃ k, w * k < 32 ∧ (ls k).saturated = true) (run : exec i s = s.finishPacked d v { q := stickyQ s.flagQ q })
    (hlen : s.pc + 4#32 = s.after i := by rfl) : SetsSaturated i s d w lane sat x := by
  refine ⟨v, fun k hk => reads ((packs k hk).trans (of.value k)), _, run.trans (if_pos simd), writes_finishReg _ hlen, ?_⟩
  simp only [← of.saturated]
  exact flagQ_finishReg record rfl

theorem setsSaturated_bytes (simd : s.cfg.hasSimd = true) (of : LanesOf ls 8 sat x)
    (reads : ∀ {v k y}, v.extractLsb' (8 * k) 8 = BitVec.ofInt 8 (sat 8 y) → lane 8 v k = sat 8 y)
    (run : exec i s = s.finishSatBytes d (ls 3) (ls 2) (ls 1) (ls 0)) (hlen : s.pc + 4#32 = s.after i := by rfl) :
    SetsSaturated i s d 8 lane sat x := by
  refine setsSaturated_of_packs simd of (packs_bytes fun k => (ls k).value 8) reads ?_ run hlen
  simp only [Bool.or_eq_true]
  constructor
  · rintro (((h | h) | h) | h)
    · exact ⟨3, by decide, h⟩
    · exact ⟨2, by decide, h⟩
    · exact ⟨1, by decide, h⟩
    · exact ⟨0, by decide, h⟩
  · rintro ⟨k, hk, h⟩
    obtain rfl | rfl | rfl | rfl : k = 0 ∨ k = 1 ∨ k = 2 ∨ k = 3 := by omega
    · exact .inr h
    · exact .inl (.inr h)
    · exact .inl (.inl (.inr h))
    · exact .inl (.inl (.inl h))

theorem setsSaturated_halves (simd : s.cfg.hasSimd = true) (of : LanesOf ls 16 sat x)
    (reads : ∀ {v k y}, v.extractLsb' (16 * k) 16 = BitVec.ofInt 16 (sat 16 y) → lane 16 v k = sat 16 y)
    (run : exec i s = s.finishSatHalves d (ls 1) (ls 0)) (hlen : s.pc + 4#32 = s.after i := by rfl) :
    SetsSaturated i s d 16 lane sat x := by
  refine setsSaturated_of_packs simd of (packs_halves fun k => (ls k).value 16) reads ?_ run hlen
  rw [Bool.or_eq_true]
  constructor
  · rintro (h | h)
    · exact ⟨1, by decide, h⟩
    · exact ⟨0, by decide, h⟩
  · rintro ⟨k, hk, h⟩
    obtain rfl | rfl : k = 0 ∨ k = 1 := by omega
    · exact .inr h
    · exact .inl h

/-- Lanes of one saturation. -/
theorem lanesOf_same (w : Nat) (sat : Nat → Int → Int) (x : Nat → Int) : LanesOf (fun k => ⟨x k, sat w⟩) w sat x := fun _ => ⟨rfl, rfl⟩

/-- Lanes of sums of unsigned lanes, which are not below 0. -/
theorem lanesOf_satU (w : Nat) {x : Nat → Int} (h : ∀ k, 0 ≤ x k) : LanesOf (fun k => ⟨x k, satU w⟩) w satSU x := fun k =>
  ⟨rfl, satU_eq_satSU (h k)⟩

end

/-! ## The lanes of the operands -/

def byteLane (v : Word) (k : Nat) : Byte := v.extractLsb' (8 * k) 8
def halfLane (v : Word) (k : Nat) : Half := v.extractLsb' (16 * k) 16

theorem byteLane_toNat_lt (v : Word) (k : Nat) : (byteLane v k).toNat < 256 := (byteLane v k).isLt
theorem halfLane_toNat_lt (v : Word) (k : Nat) : (halfLane v k).toNat < 65536 := (halfLane v k).isLt

/-- The bytes of a halfword are bytes of its word. -/
theorem extractLsb'_halfPart (v : Word) (p : BitVec 1) {k : Nat} (hk : k < 2) :
    (halfPart v p).extractLsb' (8 * k) 8 = byteLane v (2 * p.toNat + k) := by
  rw [halfPart_eq]
  refine BitVec.eq_of_getLsbD_eq fun j hj => ?_
  simp only [byteLane, BitVec.getLsbD_extractLsb']
  rw [decide_eq_true (show 8 * k + j < 16 by omega), Bool.true_and]
  congr 2
  omega

/-! ## Sums, differences, halves and shifts -/

theorem wrapped_lanes (simd : s.cfg.hasSimd = true) (d x y : RegNo) :
    let ub (r : RegNo) := uLane 8 (s.getReg r)
    let uh (r : RegNo) := uLane 16 (s.getReg r)
    SetsWrapped (.paddB d x y) s d 8 (fun k => ub x k + ub y k) ∧ SetsWrapped (.paddH d x y) s d 16 (fun k => uh x k + uh y k) ∧
    SetsWrapped (.psubB d x y) s d 8 (fun k => ub x k - ub y k) ∧ SetsWrapped (.psubH d x y) s d 16 (fun k => uh x k - uh y k) ∧
    SetsWrapped (.paddxH d x y) s d 16 (fun k => uh x k + uh y (1 - k)) ∧
    SetsWrapped (.psubxH d x y) s d 16 (fun k => uh x k - uh y (1 - k)) := by
  let bx := byteLane (s.getReg x)
  let bY := byteLane (s.getReg y)
  let hx := halfLane (s.getReg x)
  let hy := halfLane (s.getReg y)
  exact ⟨setsLanes_unsigned simd (packs_bytes fun k => bx k + bY k) (fun k => toNat_add_emod (bx k) (bY k)) rfl,
    setsLanes_unsigned simd (packs_halves fun k => hx k + hy k) (fun k => toNat_add_emod (hx k) (hy k)) rfl,
    setsLanes_unsigned simd (packs_bytes fun k => bx k - bY k) (fun k => toNat_sub_emod (bx k) (bY k)) rfl,
    setsLanes_unsigned simd (packs_halves fun k => hx k - hy k) (fun k => toNat_sub_emod (hx k) (hy k)) rfl,
    setsLanes_unsigned simd (packs_halves fun k => hx k + hy (1 - k)) (fun k => toNat_add_emod (hx k) (hy (1 - k))) rfl,
    setsLanes_unsigned simd (packs_halves fun k => hx k - hy (1 - k)) (fun k => toNat_sub_emod (hx k) (hy (1 - k))) rfl⟩

/-- Half of a sum or difference of unsigned bytes; the difference is signed. -/
theorem toNat_halve_sum {a b : Byte} {x : Int} (h : x = a.toNat + b.toNat ∨ x = a.toNat + b.toNat + 1) : ((halve 8 x).toNat : Int) = x / 2 := by
  have ha := a.isLt
  have hb := b.isLt
  exact toNat_halve (by omega) (by omega)

theorem toInt_halve_difference (a b : Byte) : (halve 8 ((a.toNat : Int) - b.toNat)).toInt = ((a.toNat : Int) - b.toNat) / 2 := by
  have ha := a.isLt
  have hb := b.isLt
  exact toInt_halve (w := 7) ⟨by omega, by omega⟩

theorem toInt_halve_signed {a b : Half} {x : Int} (h : x = a.toInt + b.toInt ∨ x = a.toInt - b.toInt ∨ x = a.toInt + b.toInt + 1) :
    (halve 16 x).toInt = x / 2 :=
  toInt_halve (w := 15) (fits_half (fits_toInt a) (fits_toInt b) h)

theorem halved_lanes (simd : s.cfg.hasSimd = true) (d x y : RegNo) :
    let ub (r : RegNo) := uLane 8 (s.getReg r)
    let sh (r : RegNo) := sLane 16 (s.getReg r)
    SetsLanes (.paddhUb d x y) s d 8 (fun v k => uLane 8 v k = (ub x k + ub y k) / 2) ∧
    SetsLanes (.paddhSh d x y) s d 16 (fun v k => sLane 16 v k = (sh x k + sh y k) / 2) ∧
    SetsLanes (.psubhUb d x y) s d 8 (fun v k => sLane 8 v k = (ub x k - ub y k) / 2) ∧
    SetsLanes (.psubhSh d x y) s d 16 (fun v k => sLane 16 v k = (sh x k - sh y k) / 2) ∧
    SetsLanes (.paddxhSh d x y) s d 16 (fun v k => sLane 16 v k = (sh x k + sh y (1 - k)) / 2) ∧
    SetsLanes (.psubxhSh d x y) s d 16 (fun v k => sLane 16 v k = (sh x k - sh y (1 - k)) / 2) ∧
    SetsLanes (.pavgUb d x y) s d 8 (fun v k => uLane 8 v k = (ub x k + ub y k + 1) / 2) ∧
    SetsLanes (.pavgSh d x y) s d 16 (fun v k => sLane 16 v k = (sh x k + sh y k + 1) / 2) := by
  let bx := byteLane (s.getReg x)
  let bY := byteLane (s.getReg y)
  let hx := halfLane (s.getReg x)
  let hy := halfLane (s.getReg y)
  exact ⟨setsLanes_unsigned simd (packs_bytes fun k => halve 8 ((bx k).toNat + (bY k).toNat)) (fun k => toNat_halve_sum (.inl rfl)) rfl,
    setsLanes_signed simd (packs_halves fun k => halve 16 ((hx k).toInt + (hy k).toInt)) (fun k => toInt_halve_signed (.inl rfl)) rfl,
    setsLanes_signed simd (packs_bytes fun k => halve 8 ((bx k).toNat - (bY k).toNat)) (fun k => toInt_halve_difference (bx k) (bY k)) rfl,
    setsLanes_signed simd (packs_halves fun k => halve 16 ((hx k).toInt - (hy k).toInt)) (fun k => toInt_halve_signed (.inr (.inl rfl))) rfl,
    setsLanes_signed simd (packs_halves fun k => halve 16 ((hx k).toInt + (hy (1 - k)).toInt)) (fun k => toInt_halve_signed (.inl rfl)) rfl,
    setsLanes_signed simd (packs_halves fun k => halve 16 ((hx k).toInt - (hy (1 - k)).toInt))
      (fun k => toInt_halve_signed (.inr (.inl rfl))) rfl,
    setsLanes_unsigned simd (packs_bytes fun k => halve 8 ((bx k).toNat + (bY k).toNat + 1)) (fun k => toNat_halve_sum (.inr rfl)) rfl,
    setsLanes_signed simd (packs_halves fun k => halve 16 ((hx k).toInt + (hy k).toInt + 1))
      (fun k => toInt_halve_signed (.inr (.inr rfl))) rfl⟩

theorem shifted_bytes (simd : s.cfg.hasSimd = true) (d x : RegNo) (n : BitVec 3) :
    SetsLanes (.pasrB d x n) s d 8 (fun v k => sLane 8 v k = sLane 8 (s.getReg x) k / 2 ^ n.toNat) ∧
    SetsLanes (.plsrB d x n) s d 8 (fun v k => uLane 8 v k = uLane 8 (s.getReg x) k / 2 ^ n.toNat) ∧
    SetsWrapped (.plslB d x n) s d 8 (fun k => uLane 8 (s.getReg x) k * 2 ^ n.toNat) := by
  let bx := byteLane (s.getReg x)
  exact ⟨setsLanes_signed simd (packs_bytes fun k => (bx k).sshiftRight n.toNat) (fun k => toInt_sshiftRight_lane (bx k) n.toNat) rfl,
    setsLanes_unsigned simd (packs_bytes fun k => bx k >>> n.toNat) (fun k => toNat_ushiftRight_lane (bx k) n.toNat) rfl,
    setsLanes_unsigned simd (packs_bytes fun k => bx k <<< n.toNat) (fun k => toNat_shiftLeft_lane (bx k) n.toNat) rfl⟩

theorem shifted_halves (simd : s.cfg.hasSimd = true) (d x : RegNo) (n : BitVec 4) :
    SetsLanes (.pasrH d x n) s d 16 (fun v k => sLane 16 v k = sLane 16 (s.getReg x) k / 2 ^ n.toNat) ∧
    SetsLanes (.plsrH d x n) s d 16 (fun v k => uLane 16 v k = uLane 16 (s.getReg x) k / 2 ^ n.toNat) ∧
    SetsWrapped (.plslH d x n) s d 16 (fun k => uLane 16 (s.getReg x) k * 2 ^ n.toNat) := by
  let hx := halfLane (s.getReg x)
  exact ⟨setsLanes_signed simd (packs_halves fun k => (hx k).sshiftRight n.toNat) (fun k => toInt_sshiftRight_lane (hx k) n.toNat) rfl,
    setsLanes_unsigned simd (packs_halves fun k => hx k >>> n.toNat) (fun k => toNat_ushiftRight_lane (hx k) n.toNat) rfl,
    setsLanes_unsigned simd (packs_halves fun k => hx k <<< n.toNat) (fun k => toNat_shiftLeft_lane (hx k) n.toNat) rfl⟩

/-! ## Saturated lanes -/

theorem saturated_bytes (simd : s.cfg.hasSimd = true) (d x y : RegNo) :
    let ub (r : RegNo) := uLane 8 (s.getReg r)
    let sb (r : RegNo) := sLane 8 (s.getReg r)
    let sh (r : RegNo) := sLane 16 (s.getReg r)
    SetsSaturated (.paddsUb d x y) s d 8 uLane satSU (fun k => ub x k + ub y k) ∧
    SetsSaturated (.paddsSb d x y) s d 8 sLane satS (fun k => sb x k + sb y k) ∧
    SetsSaturated (.psubsUb d x y) s d 8 uLane satSU (fun k => ub x k - ub y k) ∧
    SetsSaturated (.psubsSb d x y) s d 8 sLane satS (fun k => sb x k - sb y k) ∧
    SetsSaturated (.packshUb d x y) s d 8 uLane satSU (fun k => if k < 2 then sh y k else sh x (k - 2)) ∧
    SetsSaturated (.packshSb d x y) s d 8 sLane satS (fun k => if k < 2 then sh y k else sh x (k - 2)) := by
  intro ub sb sh
  exact ⟨setsSaturated_bytes simd (lanesOf_satU 8 fun k => by simp only [ub, uLane]; omega) uLane_satSU rfl,
    setsSaturated_bytes simd (lanesOf_same 8 satS _) sLane_satS rfl, setsSaturated_bytes simd (lanesOf_same 8 satSU _) uLane_satSU rfl,
    setsSaturated_bytes simd (lanesOf_same 8 satS _) sLane_satS rfl, setsSaturated_bytes simd (lanesOf_same 8 satSU _) uLane_satSU rfl,
    setsSaturated_bytes simd (lanesOf_same 8 satS _) sLane_satS rfl⟩

theorem saturated_halves (simd : s.cfg.hasSimd = true) (d x y : RegNo) :
    let uh (r : RegNo) := uLane 16 (s.getReg r)
    let sh (r : RegNo) := sLane 16 (s.getReg r)
    SetsSaturated (.paddsUh d x y) s d 16 uLane satSU (fun k => uh x k + uh y k) ∧
    SetsSaturated (.paddsSh d x y) s d 16 sLane satS (fun k => sh x k + sh y k) ∧
    SetsSaturated (.psubsUh d x y) s d 16 uLane satSU (fun k => uh x k - uh y k) ∧
    SetsSaturated (.psubsSh d x y) s d 16 sLane satS (fun k => sh x k - sh y k) ∧
    SetsSaturated (.paddxsUh d x y) s d 16 uLane satSU (fun k => uh x k + uh y (1 - k)) ∧
    SetsSaturated (.paddxsSh d x y) s d 16 sLane satS (fun k => sh x k + sh y (1 - k)) ∧
    SetsSaturated (.psubxsUh d x y) s d 16 uLane satSU (fun k => uh x k - uh y (1 - k)) ∧
    SetsSaturated (.psubxsSh d x y) s d 16 sLane satS (fun k => sh x k - sh y (1 - k)) ∧
    SetsSaturated (.packwSh d x y) s d 16 sLane satS (fun k => if k = 1 then (s.getReg x).toInt else (s.getReg y).toInt) := by
  intro uh sh
  have sums (j : Nat → Nat) (k : Nat) : 0 ≤ uh x k + uh y (j k) := by simp only [uh, uLane]; omega
  exact ⟨setsSaturated_halves simd (lanesOf_satU 16 (sums id)) uLane_satSU rfl,
    setsSaturated_halves simd (lanesOf_same 16 satS _) sLane_satS rfl, setsSaturated_halves simd (lanesOf_same 16 satSU _) uLane_satSU rfl,
    setsSaturated_halves simd (lanesOf_same 16 satS _) sLane_satS rfl,
    setsSaturated_halves simd (lanesOf_satU 16 (sums fun k => 1 - k)) uLane_satSU rfl,
    setsSaturated_halves simd (lanesOf_same 16 satS _) sLane_satS rfl, setsSaturated_halves simd (lanesOf_same 16 satSU _) uLane_satSU rfl,
    setsSaturated_halves simd (lanesOf_same 16 satS _) sLane_satS rfl, setsSaturated_halves simd (lanesOf_same 16 satS _) sLane_satS rfl⟩

/-! ## Sum and difference of two selected halfwords -/

theorem uLane_halfPart (v : Word) (p : BitVec 1) : uLane 16 v p.toNat = (halfPart v p).toNat := by rw [halfPart_eq]; rfl

theorem sLane_halfPart (v : Word) (p : BitVec 1) : sLane 16 v p.toNat = (halfPart v p).toInt := by rw [halfPart_eq]; rfl

theorem selected_wrapped (simd : s.cfg.hasSimd = true) (d x y : RegNo) (p q : BitVec 1) :
    let ua := uLane 16 (s.getReg x) p.toNat
    let uc := uLane 16 (s.getReg y) q.toNat
    SetsWrapped (.paddsubH d x p y q) s d 16 (fun k => if k = 1 then ua + uc else ua - uc) ∧
    SetsWrapped (.psubaddH d x p y q) s d 16 (fun k => if k = 1 then ua - uc else ua + uc) := by
  simp only [uLane_halfPart]
  let a := halfPart (s.getReg x) p
  let b := halfPart (s.getReg y) q
  refine ⟨setsLanes_unsigned simd (packs_halves fun k => if k = 1 then a + b else a - b) (fun k => ?_) rfl,
    setsLanes_unsigned simd (packs_halves fun k => if k = 1 then a - b else a + b) (fun k => ?_) rfl⟩
  · beta_reduce
    split
    · exact toNat_add_emod a b
    · exact toNat_sub_emod a b
  · beta_reduce
    split
    · exact toNat_sub_emod a b
    · exact toNat_add_emod a b

theorem selected_halved (simd : s.cfg.hasSimd = true) (d x y : RegNo) (p q : BitVec 1) :
    let sa := sLane 16 (s.getReg x) p.toNat
    let sc := sLane 16 (s.getReg y) q.toNat
    SetsLanes (.paddsubhSh d x p y q) s d 16 (fun v k => sLane 16 v k = (if k = 1 then sa + sc else sa - sc) / 2) ∧
    SetsLanes (.psubaddhSh d x p y q) s d 16 (fun v k => sLane 16 v k = (if k = 1 then sa - sc else sa + sc) / 2) := by
  simp only [sLane_halfPart]
  let a := halfPart (s.getReg x) p
  let b := halfPart (s.getReg y) q
  refine ⟨setsLanes_signed simd (packs_halves fun k => halve 16 (if k = 1 then a.toInt + b.toInt else a.toInt - b.toInt)) (fun k => ?_) rfl,
    setsLanes_signed simd (packs_halves fun k => halve 16 (if k = 1 then a.toInt - b.toInt else a.toInt + b.toInt)) (fun k => ?_) rfl⟩
  · split
    · exact toInt_halve_signed (.inl rfl)
    · exact toInt_halve_signed (.inr (.inl rfl))
  · split
    · exact toInt_halve_signed (.inr (.inl rfl))
    · exact toInt_halve_signed (.inl rfl)

theorem selected_saturated (simd : s.cfg.hasSimd = true) (d x y : RegNo) (p q : BitVec 1) :
    let ua := uLane 16 (s.getReg x) p.toNat
    let uc := uLane 16 (s.getReg y) q.toNat
    let sa := sLane 16 (s.getReg x) p.toNat
    let sc := sLane 16 (s.getReg y) q.toNat
    SetsSaturated (.paddsubsUh d x p y q) s d 16 uLane satSU (fun k => if k = 1 then ua + uc else ua - uc) ∧
    SetsSaturated (.paddsubsSh d x p y q) s d 16 sLane satS (fun k => if k = 1 then sa + sc else sa - sc) ∧
    SetsSaturated (.psubaddsUh d x p y q) s d 16 uLane satSU (fun k => if k = 1 then ua - uc else ua + uc) ∧
    SetsSaturated (.psubaddsSh d x p y q) s d 16 sLane satS (fun k => if k = 1 then sa - sc else sa + sc) := by
  simp only [uLane_halfPart, sLane_halfPart]
  let a : Int := (halfPart (s.getReg x) p).toNat
  let b : Int := (halfPart (s.getReg y) q).toNat
  have sum : satU 16 (a + b) = satSU 16 (a + b) := satU_eq_satSU (by omega)
  have addSub : LanesOf (fun k => if k = 1 then ⟨a + b, satU 16⟩ else ⟨a - b, satSU 16⟩) 16 satSU
      (fun k => if k = 1 then a + b else a - b) := fun k => by
    by_cases h : k = 1
    · simp only [h, if_true]; exact ⟨trivial, sum⟩
    · simp only [h, if_false, and_self]
  have subAdd : LanesOf (fun k => if k = 1 then ⟨a - b, satSU 16⟩ else ⟨a + b, satU 16⟩) 16 satSU
      (fun k => if k = 1 then a - b else a + b) := fun k => by
    by_cases h : k = 1
    · simp only [h, if_true, and_self]
    · simp only [h, if_false]; exact ⟨trivial, sum⟩
  exact ⟨setsSaturated_halves simd addSub uLane_satSU rfl, setsSaturated_halves simd (lanesOf_same 16 satS _) sLane_satS rfl,
    setsSaturated_halves simd subAdd uLane_satSU rfl, setsSaturated_halves simd (lanesOf_same 16 satS _) sLane_satS rfl⟩

/-! ## Absolute values, their sum, and unpacked lanes -/

theorem absolute_lanes (simd : s.cfg.hasSimd = true) (d x : RegNo) :
    SetsLanes (.pabsSb d x) s d 8 (fun v k => uLane 8 v k = (sLane 8 (s.getReg x) k).natAbs) ∧
    SetsLanes (.pabsSh d x) s d 16 (fun v k => uLane 16 v k = (sLane 16 (s.getReg x) k).natAbs) :=
  ⟨setsLanes_unsigned simd (packs_bytes fun k => absLane (byteLane (s.getReg x) k))
      (fun k => congrArg Nat.cast (toNat_absLane (byteLane (s.getReg x) k))) rfl,
    setsLanes_unsigned simd (packs_halves fun k => absLane (halfLane (s.getReg x) k))
      (fun k => congrArg Nat.cast (toNat_absLane (halfLane (s.getReg x) k))) rfl⟩

theorem sumOfDifferences_eq (x y : Word) : (sumOfDifferences x y : Int) = (uLane 8 x 0 - uLane 8 y 0).natAbs +
      (uLane 8 x 1 - uLane 8 y 1).natAbs + (uLane 8 x 2 - uLane 8 y 2).natAbs + (uLane 8 x 3 - uLane 8 y 3).natAbs := by
  have lane (k : Nat) (p : BitVec 2) (hp : p.toNat = k) (v : Word) : ((bytePart v p).toNat : Int) = uLane 8 v k := by subst hp; rfl
  simp only [← lane 0 0#2 rfl, ← lane 1 1#2 rfl, ← lane 2 2#2 rfl, ← lane 3 3#2 rfl, sumOfDifferences]
  omega

theorem sumOfDifferences_lt (x y : Word) : sumOfDifferences x y < 2 ^ 32 := by
  have bound (v : Word) (p : BitVec 2) : (bytePart v p).toNat < 256 := (bytePart v p).isLt
  have hx0 := bound x 0#2
  have hx1 := bound x 1#2
  have hx2 := bound x 2#2
  have hx3 := bound x 3#2
  have hy0 := bound y 0#2
  have hy1 := bound y 1#2
  have hy2 := bound y 2#2
  have hy3 := bound y 3#2
  simp only [sumOfDifferences]
  omega

theorem psad_setsTo (simd : s.cfg.hasSimd = true) (d x y : RegNo) :
    let ub (r : RegNo) := uLane 8 (s.getReg r)
    SetsTo (.psad d x y) s d (fun v =>
      (v.toNat : Int) = (ub x 0 - ub y 0).natAbs + (ub x 1 - ub y 1).natAbs + (ub x 2 - ub y 2).natAbs + (ub x 3 - ub y 3).natAbs) := by
  refine setsTo_of_finishReg (v := BitVec.ofNat 32 (sumOfDifferences (s.getReg x) (s.getReg y))) ?_ (if_pos simd)
  rw [BitVec.toNat_ofNat, Nat.mod_eq_of_lt (sumOfDifferences_lt ..)]
  exact sumOfDifferences_eq ..

theorem unpacked_lanes (simd : s.cfg.hasSimd = true) (d x : RegNo) (p : BitVec 1) :
    SetsLanes (.punpckubH d x p) s d 16 (fun v k => uLane 16 v k = uLane 8 (s.getReg x) (2 * p.toNat + k)) ∧
    SetsLanes (.punpcksbH d x p) s d 16 (fun v k => sLane 16 v k = sLane 8 (s.getReg x) (2 * p.toNat + k)) := by
  have bytes (ext : Byte → Half) : Packs 16 (packHalves (ext ((halfPart (s.getReg x) p).extractLsb' 8 8))
      (ext ((halfPart (s.getReg x) p).extractLsb' 0 8))) fun k => ext (byteLane (s.getReg x) (2 * p.toNat + k)) := by
    have high := extractLsb'_halfPart (s.getReg x) p (k := 1) (by decide)
    have low := extractLsb'_halfPart (s.getReg x) p (k := 0) (by decide)
    rw [Nat.mul_one] at high
    rw [Nat.mul_zero] at low
    rw [high, low]
    exact packs_halves fun k => ext (byteLane (s.getReg x) (2 * p.toNat + k))
  exact ⟨setsLanes_unsigned simd (bytes (·.setWidth 16)) (fun k => congrArg Nat.cast (BitVec.toNat_setWidth_of_le (by decide))) rfl,
    setsLanes_signed simd (bytes (·.signExtend 16)) (fun k => BitVec.toInt_signExtend_of_le (by decide)) rfl⟩

/-! ## Maximum and minimum -/

theorem toNat_select {a b : BitVec w} : ((if b.ult a then a else b).toNat : Int) = max (a.toNat : Int) b.toNat ∧
    ((if a.ult b then a else b).toNat : Int) = min (a.toNat : Int) b.toNat := by
  simp only [BitVec.ult_eq_decide, decide_eq_true_eq]
  constructor <;> split <;> omega

theorem toInt_select {a b : BitVec w} : (if b.slt a then a else b).toInt = max a.toInt b.toInt ∧
    (if a.slt b then a else b).toInt = min a.toInt b.toInt := by
  simp only [BitVec.slt_eq_decide, decide_eq_true_eq]
  constructor <;> split <;> omega

theorem selected_lanes (simd : s.cfg.hasSimd = true) (d x y : RegNo) :
    let ub (r : RegNo) := uLane 8 (s.getReg r)
    let sh (r : RegNo) := sLane 16 (s.getReg r)
    SetsLanes (.pmaxUb d x y) s d 8 (fun v k => uLane 8 v k = max (ub x k) (ub y k)) ∧
    SetsLanes (.pminUb d x y) s d 8 (fun v k => uLane 8 v k = min (ub x k) (ub y k)) ∧
    SetsLanes (.pmaxSh d x y) s d 16 (fun v k => sLane 16 v k = max (sh x k) (sh y k)) ∧
    SetsLanes (.pminSh d x y) s d 16 (fun v k => sLane 16 v k = min (sh x k) (sh y k)) := by
  let bx := byteLane (s.getReg x)
  let bY := byteLane (s.getReg y)
  let hx := halfLane (s.getReg x)
  let hy := halfLane (s.getReg y)
  exact ⟨setsLanes_unsigned simd (packs_bytes fun k => if (bY k).ult (bx k) then bx k else bY k) (fun _ => toNat_select.1) rfl,
    setsLanes_unsigned simd (packs_bytes fun k => if (bx k).ult (bY k) then bx k else bY k) (fun _ => toNat_select.2) rfl,
    setsLanes_signed simd (packs_halves fun k => if (hy k).slt (hx k) then hx k else hy k) (fun _ => toInt_select.1) rfl,
    setsLanes_signed simd (packs_halves fun k => if (hx k).slt (hy k) then hx k else hy k) (fun _ => toInt_select.2) rfl⟩

theorem ult_byteLane (v v' : Word) (k : Nat) : (byteLane v k).ult (byteLane v' k) = true ↔ uLane 8 v k < uLane 8 v' k := by
  rw [BitVec.ult_eq_decide, decide_eq_true_eq, ← Int.ofNat_lt]; rfl

theorem slt_halfLane (v v' : Word) (k : Nat) : (halfLane v k).slt (halfLane v' k) = true ↔ sLane 16 v k < sLane 16 v' k := by
  rw [BitVec.slt_eq_decide, decide_eq_true_eq]; rfl

/-- V, N, Z and C are the comparisons of the bytes from the lowest one (R1018, R1019). -/
theorem comparedBytes {p : Byte → Byte → Bool} {P : Nat → Prop} {x y : RegNo} (simd : s.cfg.hasSimd = true)
    (compares : ∀ k, p (byteLane (s.getReg x) k) (byteLane (s.getReg y) k) = true ↔ P k) (run : exec i s = s.selectBytes d x y p) :
    Gives (exec i s) fun t => Flags t (P 0) (P 1) (P 2) (P 3) :=
  gives_finishPacked simd run fun t sr => by
    obtain ⟨v, n, z, c⟩ := flags_applyFlags sr
    rw [Flags, v, n, z, c]
    exact ⟨compares 0, compares 1, compares 2, compares 3⟩

theorem comparedHalves {p : Half → Half → Bool} {P : Nat → Prop} {x y : RegNo} (simd : s.cfg.hasSimd = true)
    (compares : ∀ k, p (halfLane (s.getReg x) k) (halfLane (s.getReg y) k) = true ↔ P k) (run : exec i s = s.selectHalves d x y p) :
    Gives (exec i s) fun t => (t.flagZ = true ↔ P 0) ∧ (t.flagC = true ↔ P 1) :=
  gives_finishPacked simd run fun t sr => by
    obtain ⟨-, -, z, c⟩ := flags_applyFlags sr
    rw [z, c]
    exact ⟨compares 0, compares 1⟩

/-- Settles O59: each instruction packs the lanes that its rule names, and each lane has the exact integer. -/
theorem packedLanes : Obligations.PackedLanes := by
  intro s d x y simd
  obtain ⟨paddB, paddH, psubB, psubH, paddxH, psubxH⟩ := wrapped_lanes simd d x y
  obtain ⟨paddhUb, paddhSh, psubhUb, psubhSh, paddxhSh, psubxhSh, pavgUb, pavgSh⟩ := halved_lanes simd d x y
  obtain ⟨paddsUb, paddsSb, psubsUb, psubsSb, packshUb, packshSb⟩ := saturated_bytes simd d x y
  obtain ⟨paddsUh, paddsSh, psubsUh, psubsSh, paddxsUh, paddxsSh, psubxsUh, psubxsSh, packwSh⟩ := saturated_halves simd d x y
  obtain ⟨pabsSb, pabsSh⟩ := absolute_lanes simd d x
  obtain ⟨pmaxUb, pminUb, pmaxSh, pminSh⟩ := selected_lanes simd d x y
  refine ⟨paddB, paddH, psubB, psubH, paddxH, psubxH, paddhUb, paddhSh, psubhUb, psubhSh, paddxhSh, psubxhSh, pavgUb, pavgSh, paddsUb,
    paddsSb, paddsUh, paddsSh, psubsUb, psubsSb, psubsUh, psubsSh, paddxsUh, paddxsSh, psubxsUh, psubxsSh, fun p q => ?selected,
    shifted_bytes simd d x, shifted_halves simd d x, pabsSb, pabsSh, psad_setsTo simd d x y, packshUb, packshSb, packwSh,
    unpacked_lanes simd d x, pmaxUb, pminUb, pmaxSh, pminSh, ?flags⟩
  case selected =>
    obtain ⟨paddsubH, psubaddH⟩ := selected_wrapped simd d x y p q
    obtain ⟨paddsubhSh, psubaddhSh⟩ := selected_halved simd d x y p q
    exact ⟨paddsubH, psubaddH, paddsubhSh, psubaddhSh, selected_saturated simd d x y p q⟩
  case flags =>
    exact ⟨comparedBytes (p := fun a b => b.ult a) (P := fun k => uLane 8 (s.getReg y) k < uLane 8 (s.getReg x) k) simd
        (fun k => ult_byteLane _ _ k) rfl,
      comparedBytes (p := fun a b => a.ult b) (P := fun k => uLane 8 (s.getReg x) k < uLane 8 (s.getReg y) k) simd
        (fun k => ult_byteLane _ _ k) rfl,
      comparedHalves (p := fun a b => b.slt a) (P := fun k => sLane 16 (s.getReg y) k < sLane 16 (s.getReg x) k) simd
        (fun k => slt_halfLane _ _ k) rfl,
      comparedHalves (p := fun a b => a.slt b) (P := fun k => sLane 16 (s.getReg x) k < sLane 16 (s.getReg y) k) simd
        (fun k => slt_halfLane _ _ k) rfl⟩

end Sys2Proof.Machine
end

section
/-! PROOFS. O60 : the counters of time and of events, and the wait of a sleep. -/

namespace Sys2Proof.Machine

variable {s t : State} {p : PerfRegs}

/-! ## Cycles -/

theorem State.tickTimer_frame (s : State) : ∃ timer, s.tickTimer = { s with timer := timer } := by
  unfold State.tickTimer
  split <;> exact ⟨_, rfl⟩

theorem State.tick_frame (s : State) : ∃ timer perf, s.tick = { s with timer := timer, perf := perf } := by
  obtain ⟨timer, e⟩ := s.tickTimer_frame
  unfold State.tick
  rw [e]
  dsimp only
  split <;> exact ⟨_, _, rfl⟩

theorem State.tick_timer (s : State) : s.tick.timer = s.tickTimer.timer := by
  unfold State.tick
  dsimp only
  split <;> rfl

theorem State.tick_perf (counts : s.cfg.hasPerf = true) : s.tick.perf = s.perf.tick := by
  obtain ⟨timer, e⟩ := s.tickTimer_frame
  unfold State.tick
  rw [e]
  exact congrArg State.perf (if_pos counts)

theorem State.ticks_frame (s : State) (n : Nat) : ∃ timer perf, s.ticks n = { s with timer := timer, perf := perf } := by
  induction n generalizing s with
  | zero => exact ⟨_, _, rfl⟩
  | succ n ih =>
    obtain ⟨_, _, first⟩ := s.tick_frame
    obtain ⟨_, _, rest⟩ := ih s.tick
    exact ⟨_, _, by rw [State.ticks, rest, first]⟩

theorem State.ticks_succ (s : State) (n : Nat) : s.ticks (n + 1) = (s.ticks n).tick := by
  induction n generalizing s with
  | zero => rfl
  | succ n ih => rw [State.ticks, ih, State.ticks]

theorem State.ticks_perf (counts : s.cfg.hasPerf = true) (n : Nat) : (s.ticks n).perf = PerfRegs.tick^[n] s.perf := by
  induction n with
  | zero => rfl
  | succ n ih =>
    obtain ⟨_, _, e⟩ := s.ticks_frame n
    have same : (s.ticks n).cfg = s.cfg := by rw [e]
    rw [State.ticks_succ, State.tick_perf (same ▸ counts), ih, Function.iterate_succ_apply']

/-! ## COUNT and COMPARE -/

/-- Up to the match with COMPARE, COUNT counts and nothing else happens (R1150). -/
theorem count_before_match {n : Nat} (before : s.timer.compare = 0#32 ∨ ∀ k, k < n → s.timer.count + BitVec.ofNat 32 k ≠ s.timer.compare) :
    (s.ticks n).timer = { s.timer with count := s.timer.count + BitVec.ofNat 32 n } := by
  induction n with
  | zero => simp [State.ticks]
  | succ n ih =>
    have counted := ih (before.imp_right fun h k hk => h k (hk.trans n.lt_succ_self))
    have noMatch : ¬ ((s.ticks n).timer.compare ≠ 0#32 ∧ (s.ticks n).timer.count = (s.ticks n).timer.compare) := by
      rw [counted]
      rintro ⟨set, atMatch⟩
      exact before.elim set fun h => h n n.lt_succ_self atMatch
    rw [State.ticks_succ, State.tick_timer, State.tickTimer, if_neg noMatch, counted, BitVec.ofNat_add, ← BitVec.add_assoc]

/-- The match raises the request, and clears COUNT where it is told to. -/
theorem count_at_match {n : Nat} (counted : (s.ticks n).timer = { s.timer with count := s.timer.count + BitVec.ofNat 32 n })
    (set : s.timer.compare ≠ 0#32) (atMatch : s.timer.count + BitVec.ofNat 32 n = s.timer.compare) :
    (s.ticks (n + 1)).timer.compareIrq = true ∧
    (s.ticks (n + 1)).timer.count = if s.cfg.archRev.toNat < 3 ∨ (match s.cfg.cpucr with
      | .storage => s.cfg.countClear
      | .own => Config.cpucrClears s.ctl.cpucr) = true then 0#32 else s.timer.compare + 1#32 := by
  have both : (s.ticks n).timer.compare ≠ 0#32 ∧ (s.ticks n).timer.count = (s.ticks n).timer.compare := by
    rw [counted]; exact ⟨set, atMatch⟩
  have clears : (s.ticks n).clearsOnMatch = s.clearsOnMatch := by
    obtain ⟨_, _, e⟩ := s.ticks_frame n
    rw [e]; rfl
  have revision : (!hasRev s.cfg 3) = decide (s.cfg.archRev.toNat < 3) := by
    rw [hasRev, ← decide_not]; exact decide_eq_decide.mpr not_le
  rw [State.ticks_succ, State.tick_timer, State.tickTimer, if_pos both, clears, counted]
  dsimp only
  rw [atMatch, State.clearsOnMatch, revision]
  refine ⟨rfl, ?_⟩
  simp only [Bool.or_eq_true, decide_eq_true_eq] <;> rfl

/-! ## The clock counter -/

theorem PerfRegs.getLsbD_overflow (p : PerfRegs) (k : Nat) (b : Bool) {n : Nat} (hn : n < 32) :
    (p.overflow k b).pccr.getLsbD n = (decide (n = k) && b || p.pccr.getLsbD n) := by
  unfold PerfRegs.overflow
  cases b with
  | true =>
    rw [if_pos rfl, getLsbD_setBit hn]
    by_cases h : n = k <;> simp [h]
  | false => simp

theorem PerfRegs.overflow_frame (p : PerfRegs) (k : Nat) (b : Bool) : ∃ pccr, p.overflow k b = { p with pccr := pccr } := by
  unfold PerfRegs.overflow
  split <;> exact ⟨_, rfl⟩

theorem PerfRegs.countClock_counters (p : PerfRegs) :
    p.countClock.pccnt = p.pccnt + 1#32 ∧ p.countClock.prescaler = p.prescaler := by
  obtain ⟨_, e⟩ := PerfRegs.overflow_frame { p with pccnt := p.pccnt + 1#32 } 8 (p.pccnt == 0xFFFFFFFF#32)
  rw [PerfRegs.countClock, e]
  exact ⟨rfl, rfl⟩

theorem PerfRegs.getLsbD_countClock (p : PerfRegs) {n : Nat} (hn : n < 32) :
    p.countClock.pccr.getLsbD n = (decide (n = 8) && p.pccnt == 0xFFFFFFFF#32 || p.pccr.getLsbD n) :=
  PerfRegs.getLsbD_overflow _ 8 _ hn

theorem PerfRegs.tick_disabled (off : p.pccr.getLsbD 0 = false) : p.tick = p := by
  rw [PerfRegs.tick, off]; rfl

theorem PerfRegs.tick_counting (on : p.pccr.getLsbD 0 = true) (whole : p.pccr.getLsbD 3 = false) : p.tick = p.countClock := by
  rw [PerfRegs.tick, on, whole]; rfl

/-- Every cycle counts, and the overflow is kept (R1161). -/
theorem PerfRegs.ticks_counting (on : p.pccr.getLsbD 0 = true) (whole : p.pccr.getLsbD 3 = false) (n : Nat) :
    (PerfRegs.tick^[n] p).pccnt = p.pccnt + BitVec.ofNat 32 n ∧
      ((PerfRegs.tick^[n] p).pccr.getLsbD 8 = true ↔ p.pccr.getLsbD 8 = true ∨ 2 ^ 32 ≤ p.pccnt.toNat + n) := by
  induction n generalizing p with
  | zero =>
    have below := p.pccnt.isLt
    exact ⟨(BitVec.add_zero _).symm, (or_iff_left (by omega)).symm⟩
  | succ n ih =>
    rw [Function.iterate_succ_apply, PerfRegs.tick_counting on whole]
    obtain ⟨counter, -⟩ := p.countClock_counters
    obtain ⟨count, flag⟩ := ih (p := p.countClock) (by rw [p.getLsbD_countClock (by decide), on]; rfl)
      (by rw [p.getLsbD_countClock (by decide), whole]; rfl)
    have wraps : p.countClock.pccr.getLsbD 8 = true ↔ p.pccnt.toNat = 2 ^ 32 - 1 ∨ p.pccr.getLsbD 8 = true := by
      rw [p.getLsbD_countClock (by decide), Bool.or_eq_true, decide_eq_true rfl, Bool.true_and, beq_iff_eq, BitVec.toNat_eq]
      rfl
    constructor
    · rw [count, counter, BitVec.add_assoc, ← BitVec.ofNat_add, Nat.add_comm 1]
    · have below := p.pccnt.isLt
      rw [flag, wraps, counter, BitVec.toNat_add, BitVec.toNat_ofNat]
      by_cases h : p.pccr.getLsbD 8 = true
      · simp [h]
      · simp only [h, Bool.false_eq_true, or_false, false_or]
        omega

/-- One cycle of 64 counts (R1161). -/
theorem PerfRegs.ticks_prescaled (on : p.pccr.getLsbD 0 = true) (scaled : p.pccr.getLsbD 3 = true) (n : Nat) :
    (PerfRegs.tick^[n] p).pccnt = p.pccnt + BitVec.ofNat 32 ((p.prescaler.toNat + n) / 64) := by
  induction n generalizing p with
  | zero =>
    have below := p.prescaler.isLt
    rw [Nat.add_zero, Nat.div_eq_of_lt (by omega)]
    exact (BitVec.add_zero _).symm
  | succ n ih =>
    have tick : p.tick = if p.prescaler = 63#6 then { p with prescaler := 0#6 }.countClock else { p with prescaler := p.prescaler + 1#6 } := by
      rw [PerfRegs.tick, on, scaled]; rfl
    rw [Function.iterate_succ_apply, tick]
    split
    next full =>
      obtain ⟨counter, scaler⟩ := PerfRegs.countClock_counters { p with prescaler := 0#6 }
      have rest := ih (p := { p with prescaler := 0#6 }.countClock) (by rw [PerfRegs.getLsbD_countClock _ (by decide), on]; rfl)
        (by rw [PerfRegs.getLsbD_countClock _ (by decide), scaled]; rfl)
      have once : (63 + (n + 1)) / 64 = 1 + (0 + n) / 64 := by omega
      rw [rest, counter, scaler, full, BitVec.add_assoc, ← BitVec.ofNat_add]
      exact congrArg (p.pccnt + BitVec.ofNat 32 ·) once.symm
    next notFull =>
      have below := p.prescaler.isLt
      have ne : p.prescaler.toNat ≠ 63 := fun e => notFull (BitVec.eq_of_toNat_eq e)
      rw [ih (p := { p with prescaler := p.prescaler + 1#6 }) on scaled]
      have next : (p.prescaler + 1#6).toNat = p.prescaler.toNat + 1 := by
        rw [BitVec.toNat_add]; exact Nat.mod_eq_of_lt (show p.prescaler.toNat + 1 < 64 by omega)
      dsimp only
      rw [next, Nat.add_right_comm, Nat.add_assoc]

/-! ## The event counters -/

theorem perfEvents_eq {conf : BitVec 6} {taken : Option Event} {completed : Bool} {input n : Nat}
    (h : Occurrences conf taken completed input n) : perfEvents conf taken completed input = n := by
  obtain ⟨itlb, dtlb, done, reserved, other⟩ := h
  unfold perfEvents
  split
  next is3 =>
    obtain ⟨yes, no⟩ := itlb is3
    split
    · exact (yes ⟨_, rfl⟩).symm
    next others => exact (no fun ⟨va, e⟩ => others va e).symm
  next not3 =>
    split
    next is4 =>
      obtain ⟨yes, no⟩ := dtlb is4
      split
      · exact (yes ⟨_, .inl rfl⟩).symm
      · exact (yes ⟨_, .inr rfl⟩).symm
      next reads writes => exact (no fun ⟨va, e⟩ => e.elim (reads va) (writes va)).symm
    next not4 =>
      split
      next is7 => exact (done is7).symm
      next not7 =>
        split
        next above => exact (reserved above).symm
        next below => exact (other not3 not4 not7 (by omega)).symm

theorem countEvents_idle (h : s.cfg.hasPerf = false ∨ s.perf.pccr.getLsbD 0 = false) (completed : Bool) : s.countEvents completed = s :=
  if_neg (by obtain h | h := h <;> rw [h] <;> simp)

theorem countEvents_counts {completed : Bool} {n0 n1 : Nat} (counts : s.cfg.hasPerf = true) (on : s.perf.pccr.getLsbD 0 = true)
    (occur0 : Occurrences (s.perf.pccr.extractLsb' 12 6) s.taken completed s.now.perf0 n0)
    (occur1 : Occurrences (s.perf.pccr.extractLsb' 18 6) s.taken completed s.now.perf1 n1) :
    ∃ pccr, s.countEvents completed =
        { s with perf := { s.perf with pcnt0 := s.perf.pcnt0 + BitVec.ofNat 32 n0, pcnt1 := s.perf.pcnt1 + BitVec.ofNat 32 n1
                                       pccr := pccr } } ∧
      (pccr.getLsbD 9 = true ↔ s.perf.pccr.getLsbD 9 = true ∨ 2 ^ 32 ≤ s.perf.pcnt0.toNat + n0) ∧
      (pccr.getLsbD 10 = true ↔ s.perf.pccr.getLsbD 10 = true ∨ 2 ^ 32 ≤ s.perf.pcnt1.toNat + n1) ∧
      ∀ k, k < 32 → k ≠ 9 → k ≠ 10 → pccr.getLsbD k = s.perf.pccr.getLsbD k := by
  have run : s.countEvents completed = { s with perf := (s.perf.count0 n0).count1 n1 } := by
    rw [State.countEvents, if_pos (by simp [counts, on]), perfEvents_eq occur0, perfEvents_eq occur1]
  obtain ⟨first, e0⟩ := PerfRegs.overflow_frame { s.perf with pcnt0 := s.perf.pcnt0 + BitVec.ofNat 32 n0 } 9
    (2 ^ 32 ≤ s.perf.pcnt0.toNat + n0)
  obtain ⟨second, e1⟩ := PerfRegs.overflow_frame { (s.perf.count0 n0) with pcnt1 := (s.perf.count0 n0).pcnt1 + BitVec.ofNat 32 n1 } 10
    (2 ^ 32 ≤ (s.perf.count0 n0).pcnt1.toNat + n1)
  have kept1 : (s.perf.count0 n0).pcnt1 = s.perf.pcnt1 := by rw [PerfRegs.count0, e0]
  have bits {k : Nat} (hk : k < 32) : ((s.perf.count0 n0).count1 n1).pccr.getLsbD k =
      (decide (k = 10) && decide (2 ^ 32 ≤ s.perf.pcnt1.toNat + n1) ||
        (decide (k = 9) && decide (2 ^ 32 ≤ s.perf.pcnt0.toNat + n0) || s.perf.pccr.getLsbD k)) := by
    rw [PerfRegs.count1, PerfRegs.getLsbD_overflow _ 10 _ hk, kept1]
    exact congrArg _ (PerfRegs.getLsbD_overflow _ 9 _ hk)
  refine ⟨((s.perf.count0 n0).count1 n1).pccr, run.trans ?_, ?_, ?_, fun k hk not9 not10 => ?_⟩
  · rw [PerfRegs.count1, e1, PerfRegs.count0, e0]
  · rw [bits (by decide)]; simp [or_comm]
  · rw [bits (by decide)]; simp [or_comm]
  · rw [bits hk]; simp [not9, not10]

/-! ## Sleep -/

theorem State.countEvents_frame (s : State) (completed : Bool) :
    ∃ perf, s.countEvents completed = { s with perf := perf } := by
  unfold State.countEvents
  split <;> exact ⟨_, rfl⟩

/-- The time of a step reaches the timer and the counters alone. -/
theorem State.clock_frame (s before : State) (completed : Bool) :
    ∃ timer perf, s.clock before completed = { s with timer := timer, perf := perf } := by
  unfold State.clock
  split
  · obtain ⟨perf, e⟩ := s.countEvents_frame (completed && s.taken.isNone)
    exact ⟨_, perf, e⟩
  · obtain ⟨timer, _, ticked⟩ := s.ticks_frame (s.now.extraCycles + 1)
    obtain ⟨perf, e⟩ := (s.ticks (s.now.extraCycles + 1)).countEvents_frame (completed && s.taken.isNone)
    exact ⟨timer, perf, by dsimp only; rw [e, ticked]⟩

/-- A core that sleeps and accepts nothing. -/
theorem step_asleep {op : BitVec 8} (asleep : s.sleeping = some op) (reset : s.sample.now.reset = false)
    (running : s.sample.ocdStopped = false) (ocd : (s.sample.cfg.hasOcd && s.sample.now.ocdStop) = false)
    (quiet : s.sample.pendingEvent = none) (noBreak : s.sample.breakAccepted = false) :
    step s = .next (s.sample.clock s.sample false) := by
  have sleeps : s.sample.sleeping.isSome = true := by rw [State.sample_sleeping, asleep]; rfl
  simp only [step, stepSampled, reset, running, ocd, quiet, noBreak, sleeps, Bool.false_eq_true, if_false, if_true]

theorem clock_stopped {op : BitVec 8} (asleep : s.sleeping = some op) (stops : s.cfg.sleepStopsClock.contains op = true) :
    (s.clock s false).timer = s.timer := by
  have stopped : clockStopped s s = true := by rw [clockStopped, asleep]; exact stops
  rw [State.clock, if_pos stopped]
  obtain ⟨_, e⟩ := s.countEvents_frame (false && s.taken.isNone)
  rw [e]

/-- Settles O60: the counters by induction on the cycles, the events by cases of their codes, the sleep by the frame of the clock. -/
theorem timeAndSleep : Obligations.TimeAndSleep := by
  refine ⟨fun s n before => ?count, fun s n counts => ?clock, fun s completed n0 n1 => ⟨fun idle => countEvents_idle idle completed,
    countEvents_counts⟩, fun s op asleep reset running ocd quiet noBreak => ?sleep⟩
  case count => exact ⟨count_before_match before, count_at_match (count_before_match before)⟩
  case clock =>
    rw [State.ticks_perf counts]
    exact ⟨fun off => Function.iterate_fixed (PerfRegs.tick_disabled off) n, fun on whole => PerfRegs.ticks_counting on whole n,
      fun on scaled => PerfRegs.ticks_prescaled on scaled n⟩
  case sleep =>
    obtain ⟨timer, perf, e⟩ := s.sample.clock_frame s.sample false
    have run := step_asleep asleep reset running ocd quiet noBreak
    have stopped (stops : s.cfg.sleepStopsClock.contains op = true) := clock_stopped (s := s.sample) asleep stops
    rw [e] at run stopped
    exact ⟨_, run, rfl, rfl, sameRegs_of, fun _ _ _ => rfl, sameMem_of, stopped⟩

end Sys2Proof.Machine
end
